-- ==== Sys2Proof/Word.lean ====
section
/-! DEFINITION. The word types of the Y7: scalar registers, instruction words, bytes, token payloads (R4, R5, R70, R87). -/

namespace Sys2Proof

/-- A scalar register's value, 64 bits (R70). -/
abbrev Word := BitVec 64

/-- One byte of memory. -/
abbrev Byte := BitVec 8

/-- One 32-bit instruction or configuration word (R87, R183). -/
abbrev Insn := BitVec 32

/-- The number of a scalar register s0–s31 (R88). -/
abbrev SReg := BitVec 5

/-- The number of a predicate p0–p7 (R88). -/
abbrev PReg := BitVec 3

/-- A token's payload (R21). -/
abbrev Payload := BitVec 256

/-- A partial map as plain data: pairs of a key and a value, keys strictly rising. -/
abbrev Sparse (α : Type) := List (Nat × α)

end Sys2Proof
end

