-- ==== Sys2Proof/Machine/Sparse.lean ====
section
/-! DEFINITION. Partial maps as plain data: lists of a key and a value, keys strictly rising. `get` answers a default for an
unlisted key; `put` lists a value; `set` keeps the canonical form in which no listed value is the default. -/

namespace Sys2Proof.Machine

/-- The value at a key, the default where the key is not listed. -/
def Sparse.get {α : Type} (dflt : α) : Sparse α → Nat → α
  | [], _ => dflt
  | (j, v) :: m, k => if j = k then v else Sparse.get dflt m k

/-- The value at a key, if the key is listed. -/
def Sparse.find {α : Type} : Sparse α → Nat → Option α
  | [], _ => none
  | (j, v) :: m, k => if j = k then some v else Sparse.find m k

/-- Lists a value at a key, in place of one that stands there. -/
def Sparse.put {α : Type} : Sparse α → Nat → α → Sparse α
  | [], k, v => [(k, v)]
  | (j, u) :: m, k, v =>
    if k < j then (k, v) :: (j, u) :: m
    else if k = j then (k, v) :: m
    else (j, u) :: Sparse.put m k v

/-- Removes a key. -/
def Sparse.drop {α : Type} : Sparse α → Nat → Sparse α
  | [], _ => []
  | (j, u) :: m, k => if j = k then Sparse.drop m k else (j, u) :: Sparse.drop m k

/-- Writes a value, keeping no entry equal to the default. -/
def Sparse.set {α : Type} [DecidableEq α] (dflt : α) (m : Sparse α) (k : Nat) (v : α) : Sparse α :=
  if v = dflt then Sparse.drop m k else Sparse.put m k v

/-- Changes the value at a key by a function. -/
def Sparse.upd {α : Type} (dflt : α) (m : Sparse α) (k : Nat) (f : α → α) : Sparse α :=
  Sparse.put m k (f (Sparse.get dflt m k))

/-- Every listed key is above `b`, and keys rise strictly. -/
def Sparse.risesFrom {α : Type} : Option Nat → Sparse α → Bool
  | _, [] => true
  | none, (j, _) :: m => Sparse.risesFrom (some j) m
  | some b, (j, _) :: m => decide (b < j) && Sparse.risesFrom (some j) m

/-- The canonical form: keys strictly rising and no listed value equal to the default. -/
def Sparse.wf {α : Type} [DecidableEq α] (dflt : α) (m : Sparse α) : Bool :=
  Sparse.risesFrom none m && m.all (fun e => decide (e.2 ≠ dflt))

end Sys2Proof.Machine
end

