-- ==== Sys2Proof/Syntax.lean ====
section
/-! DEFINITION. The instructions as data: the fields of an element operation word (R189) and the inductive Instr, one
constructor for each row of the opcode table. -/

namespace Sys2Proof

/-- The fields of an element operation word other than OP (R189). -/
structure Eow where
  /-- TY, bits 55:52. -/
  ty : BitVec 4
  /-- MOD, bits 51:48. -/
  md : BitVec 4
  /-- SA, bits 47:45. -/
  sa : BitVec 3
  /-- SB, bits 44:42. -/
  sb : BitVec 3
  /-- SC, bits 41:39. -/
  sc : BitVec 3
  /-- OE, bits 38:37. -/
  oe : BitVec 2
  /-- RIN, bits 36:33. -/
  rin : BitVec 4
  /-- ROUT, bits 32:29. -/
  rout : BitVec 4
  /-- VCO, bits 28:24. -/
  vco : BitVec 5
  /-- AUX, bits 23:16. -/
  aux : BitVec 8
  /-- IMM, bits 15:0. -/
  imm : BitVec 16
  deriving DecidableEq, Repr

/-- The instructions, operations and events of the part, one constructor for each row of the opcode table:
sequencer words carry their register and immediate fields, element operations the other fields of their operation word,
events take what an engine or the outside chooses from the turn that runs them (State). The constructors with fields stand
first. -/
inductive Instr where
  /-- ADD (R103): Writes s[a] + s[b] modulo 2^64 to s[d]. -/
  | add (d : SReg) (a : SReg) (b : SReg)
  /-- SUB (R103): Writes s[a] − s[b] modulo 2^64 to s[d]. -/
  | sub (d : SReg) (a : SReg) (b : SReg)
  /-- MUL (R103): Writes the low 64 bits of the product of s[a] and s[b] to s[d]. -/
  | mul (d : SReg) (a : SReg) (b : SReg)
  /-- MULH (R103): Writes bits 127:64 of the signed 128-bit product to s[d]. -/
  | mulh (d : SReg) (a : SReg) (b : SReg)
  /-- MULHN (R103): Writes bits 127:64 of the natural 128-bit product to s[d]. -/
  | mulhn (d : SReg) (a : SReg) (b : SReg)
  /-- DIV (R104): Signed division rounded toward zero, with fixed results for division by zero and overflow. -/
  | div (d : SReg) (a : SReg) (b : SReg)
  /-- DIVN (R104): Natural division of s[a] by s[b]. -/
  | divn (d : SReg) (a : SReg) (b : SReg)
  /-- REM (R104): Signed remainder, taking its sign from the dividend. -/
  | rem (d : SReg) (a : SReg) (b : SReg)
  /-- REMN (R104): Natural remainder of s[a] by s[b]. -/
  | remn (d : SReg) (a : SReg) (b : SReg)
  /-- AND (R103): Bitwise AND of two scalars. -/
  | and (d : SReg) (a : SReg) (b : SReg)
  /-- OR (R103): Bitwise OR of two scalars. -/
  | or (d : SReg) (a : SReg) (b : SReg)
  /-- XOR (R103): Bitwise XOR of two scalars. -/
  | xor (d : SReg) (a : SReg) (b : SReg)
  /-- SHL (R103): Shifts s[a] left by s[b][5:0]. -/
  | shl (d : SReg) (a : SReg) (b : SReg)
  /-- SHR (R103): Shifts s[a] right logically by s[b][5:0]. -/
  | shr (d : SReg) (a : SReg) (b : SReg)
  /-- SHA (R103): Shifts s[a] right arithmetically by s[b][5:0]. -/
  | sha (d : SReg) (a : SReg) (b : SReg)
  /-- MIN (R103): Writes the signed minimum of two scalars. -/
  | min (d : SReg) (a : SReg) (b : SReg)
  /-- MAX (R103): Writes the signed maximum of two scalars. -/
  | max (d : SReg) (a : SReg) (b : SReg)
  /-- MINN (R103): Writes the natural minimum of two scalars. -/
  | minn (d : SReg) (a : SReg) (b : SReg)
  /-- MAXN (R103): Writes the natural maximum of two scalars. -/
  | maxn (d : SReg) (a : SReg) (b : SReg)
  /-- CLZ (R103): Counts the leading zero bits of s[a]. -/
  | clz (d : SReg) (a : SReg)
  /-- POPC (R103): Counts the one bits of s[a]. -/
  | popc (d : SReg) (a : SReg)
  /-- SEL (R103): Writes s[a] when predicate pN is true and s[b] otherwise. -/
  | sel (d : SReg) (a : SReg) (b : SReg) (n : PReg)
  /-- ADDI (R103): Adds the sign-extended imm16 to s[a]. -/
  | addi (d : SReg) (a : SReg) (i : BitVec 16)
  /-- ANDI (R103): ANDs s[a] with the zero-extended imm16. -/
  | andi (d : SReg) (a : SReg) (i : BitVec 16)
  /-- ORI (R103): ORs s[a] with the zero-extended imm16. -/
  | ori (d : SReg) (a : SReg) (i : BitVec 16)
  /-- XORI (R103): XORs s[a] with the zero-extended imm16. -/
  | xori (d : SReg) (a : SReg) (i : BitVec 16)
  /-- SHLI (R103): Shifts s[a] left by imm16[5:0]. -/
  | shli (d : SReg) (a : SReg) (n : BitVec 6)
  /-- SHRI (R103): Shifts s[a] right logically by imm16[5:0]. -/
  | shri (d : SReg) (a : SReg) (n : BitVec 6)
  /-- SHAI (R103): Shifts s[a] right arithmetically by imm16[5:0]. -/
  | shai (d : SReg) (a : SReg) (n : BitVec 6)
  /-- LIH (R103): Writes sext(imm16) << 16 to s[d]. -/
  | lih (d : SReg) (i : BitVec 16)
  /-- ADDI_LONG (R89): ADDI with a long leading word, adding the sign-extended 42-bit immediate. -/
  | addiLong (d : SReg) (a : SReg) (i : BitVec 42)
  /-- ANDI_LONG (R89): ANDI with a long leading word and a zero-extended 42-bit immediate. -/
  | andiLong (d : SReg) (a : SReg) (i : BitVec 42)
  /-- ORI_LONG (R89): ORI with a long leading word and a zero-extended 42-bit immediate. -/
  | oriLong (d : SReg) (a : SReg) (i : BitVec 42)
  /-- XORI_LONG (R89): XORI with a long leading word and a zero-extended 42-bit immediate. -/
  | xoriLong (d : SReg) (a : SReg) (i : BitVec 42)
  /-- CMPI_LONG (R89): Signed-condition CMPI with a long leading word and a sign-extended 42-bit immediate. -/
  | cmpiLong (c : BitVec 2) (q : PReg) (a : SReg) (i : BitVec 42)
  /-- CMPI_NATURAL_LONG (R89): Natural-condition CMPI with a long leading word and a zero-extended 42-bit immediate. -/
  | cmpiNaturalLong (c : BitVec 1) (q : PReg) (a : SReg) (i : BitVec 42)
  /-- LD_LONG (R89): LD or LDN with a long leading word and a 39-bit displacement. -/
  | ldLong (d : SReg) (a : SReg) (n : BitVec 1) (w : BitVec 2) (i : BitVec 39)
  /-- ST_LONG (R89): ST with a long leading word and a 39-bit displacement. -/
  | stLong (d : SReg) (a : SReg) (w : BitVec 2) (i : BitVec 39)
  /-- LDL_STL_LONG (R89): LDL or STL with a long leading word and a 39-bit displacement. -/
  | ldlStlLong (d : SReg) (a : SReg) (n : BitVec 1) (w : BitVec 2) (i : BitVec 39)
  /-- JAL_LONG (R89): JAL with a long leading word and a 42-bit word displacement. -/
  | jalLong (d : SReg) (i : BitVec 42)
  /-- CMP (R105): Compares two scalars under eq, ne, lt, le, ltn or len and writes a predicate. -/
  | cmp (q : PReg) (a : SReg) (b : SReg) (c : BitVec 3)
  /-- CMPI (R105): Compares a scalar with a sign-extended immediate under eq, ne, lt or le. -/
  | cmpi (c : BitVec 2) (q : PReg) (a : SReg) (i : BitVec 16)
  /-- CMPI_NATURAL (R105): Compares a scalar with a zero-extended immediate under ltn or len. -/
  | cmpiNatural (c : BitVec 1) (q : PReg) (a : SReg) (i : BitVec 16)
  /-- PAND (R105): Writes the AND of two predicates. -/
  | pand (d : PReg) (a : PReg) (b : PReg)
  /-- POR (R105): Writes the OR of two predicates. -/
  | por (d : PReg) (a : PReg) (b : PReg)
  /-- PNOT (R105): Writes the negation of a predicate. -/
  | pnot (d : PReg) (a : PReg)
  /-- LD (R107): Issues a sign-extending device-memory load after alignment and translation checks. -/
  | ld (d : SReg) (a : SReg) (w : BitVec 2) (i : BitVec 13)
  /-- LDN (R107): Issues a zero-extending device-memory load. -/
  | ldn (d : SReg) (a : SReg) (w : BitVec 2) (i : BitVec 13)
  /-- ST (R107): Issues a device-memory store of the low bytes of s[d]. -/
  | st (d : SReg) (a : SReg) (w : BitVec 2) (i : BitVec 13)
  /-- LDL (R109): Loads from sequencer scratch, with sign extension. -/
  | ldl (d : SReg) (a : SReg) (w : BitVec 2) (i : BitVec 13)
  /-- STL (R109): Stores to sequencer scratch. -/
  | stl (d : SReg) (a : SReg) (w : BitVec 2) (i : BitVec 13)
  /-- AMO_ADD (R111): Atomic integer add at the sparse-update unit, returning the old value. -/
  | amoAdd (d : SReg) (a : SReg) (b : SReg) (w : BitVec 1)
  /-- AMO_FADD (R111): Atomic FP32 add at the sparse-update unit. -/
  | amoFadd (d : SReg) (a : SReg) (b : SReg)
  /-- AMO_BADD (R111): Atomic add of a BF16 pair at the sparse-update unit. -/
  | amoBadd (d : SReg) (a : SReg) (b : SReg)
  /-- AMO_MIN (R111): Atomic signed minimum. -/
  | amoMin (d : SReg) (a : SReg) (b : SReg) (w : BitVec 1)
  /-- AMO_MAX (R111): Atomic signed maximum. -/
  | amoMax (d : SReg) (a : SReg) (b : SReg) (w : BitVec 1)
  /-- AMO_MINN (R111): Atomic natural minimum. -/
  | amoMinn (d : SReg) (a : SReg) (b : SReg) (w : BitVec 1)
  /-- AMO_MAXN (R111): Atomic natural maximum. -/
  | amoMaxn (d : SReg) (a : SReg) (b : SReg) (w : BitVec 1)
  /-- AMO_AND (R111): Atomic bitwise AND. -/
  | amoAnd (d : SReg) (a : SReg) (b : SReg) (w : BitVec 1)
  /-- AMO_OR (R111): Atomic bitwise OR. -/
  | amoOr (d : SReg) (a : SReg) (b : SReg) (w : BitVec 1)
  /-- AMO_XOR (R111): Atomic bitwise XOR. -/
  | amoXor (d : SReg) (a : SReg) (b : SReg) (w : BitVec 1)
  /-- AMO_SWAP (R111): Atomic swap. -/
  | amoSwap (d : SReg) (a : SReg) (b : SReg) (w : BitVec 1)
  /-- AMO_CAS (R111): Atomic compare-and-swap against the old value in s[d]. -/
  | amoCas (d : SReg) (a : SReg) (b : SReg) (w : BitVec 1)
  /-- AMO_INCW (R111): Atomic increment that wraps to 0 at the operand. -/
  | amoIncw (d : SReg) (a : SReg) (b : SReg) (w : BitVec 1)
  /-- B (R112): Branches by a word displacement when the predicate, XOR the negate bit, holds. -/
  | b (p : PReg) (n : BitVec 1) (i : BitVec 22)
  /-- JAL (R112): Writes the return address and jumps by a word displacement. -/
  | jal (d : SReg) (i : BitVec 16)
  /-- BR (R112): Transfers control to s[a]. -/
  | br (a : SReg)
  /-- JR (R112): Transfers control to s[a] and writes the return address. -/
  | jr (d : SReg) (a : SReg)
  /-- LOOP_IMM (R114): Activates a hardware loop level with an immediate count. -/
  | loopImm (l : BitVec 2) (c : BitVec 11) (o : BitVec 12)
  /-- LOOP_REG (R114): Activates a hardware loop level with the count in a scalar. -/
  | loopReg (l : BitVec 2) (x : SReg) (o : BitVec 12)
  /-- LOOPS_IMM (R114): Activates a loop of ceil(count/16) strips, with an immediate count. -/
  | loopsImm (l : BitVec 2) (c : BitVec 11) (o : BitVec 12)
  /-- LOOPS_REG (R114): Activates a loop of ceil(count/16) strips, with the count in a scalar. -/
  | loopsReg (l : BitVec 2) (x : SReg) (o : BitVec 12)
  /-- LBRK (R115): Leaves a loop level and every level activated after it. -/
  | lbrk (l : BitVec 2)
  /-- BAR_ARV (R117): Arrives on a barrier and returns the phase token. -/
  | barArv (d : SReg) (a : SReg) (p : PReg)
  /-- BAR_WT (R117): Compares a token with the barrier phase and returns, waits or traps. -/
  | barWt (d : SReg) (a : SReg) (b : SReg) (p : PReg)
  /-- BAR_SYN (R117): Arrives on a barrier and then waits on the returned token. -/
  | barSyn (d : SReg) (a : SReg) (p : PReg)
  /-- BAR_PHS (R117): Reads the current phase of a barrier. -/
  | barPhs (d : SReg) (a : SReg) (p : PReg)
  /-- BAR_MAP (R118): At F level, writes a barrier handle entry. -/
  | barMap (d : SReg) (a : SReg) (b : SReg) (p : PReg)
  /-- CFG_LD (R121): Starts a background load of configuration commands into the shadow plane. -/
  | cfgLd (d : SReg) (a : SReg) (b : SReg) (c : SReg) (p : PReg)
  /-- CFG_SWP (R122): Seals the shadow plane, runs the load-time checks and arms the swap. -/
  | cfgSwp (d : SReg) (p : PReg)
  /-- CFG_DRN (R123): Closes the present configuration at this core by sending DRAIN. -/
  | cfgDrn (d : SReg) (p : PReg)
  /-- CFG_WT (R125): Returns and clears the drain result, or waits for one. -/
  | cfgWt (d : SReg) (p : PReg)
  /-- CFG_SEL (R126): Latches a choice of the next configuration for the coming drain. -/
  | cfgSel (d : SReg) (a : SReg) (b : SReg) (c : SReg) (p : PReg)
  /-- CFG_QRY (R127): Returns FSTAT, plane status, the drain map or an element counter. -/
  | cfgQry (d : SReg) (a : SReg) (p : PReg)
  /-- TOK_INJ (R129): Injects a token from scratch into an element input port. -/
  | tokInj (d : SReg) (a : SReg) (b : SReg) (c : SReg) (p : PReg)
  /-- TOK_TAKE (R130): Takes a token from the take port into scratch, or waits for one. -/
  | tokTake (d : SReg) (a : SReg) (p : PReg)
  /-- TOK_MARK (R129): Injects a MARK of the given round into an element input port. -/
  | tokMark (d : SReg) (a : SReg) (b : SReg) (p : PReg)
  /-- TRAP (R131): Raises TRAP_INSN precisely with imm16 in TVAL; TRAP #0 ends the core's part of the launch. -/
  | trap (i : BitVec 16)
  /-- CSRR (R132): Reads a control register into s[d]. -/
  | csrr (d : SReg) (n : BitVec 12)
  /-- CSRW (R132): Writes s[a] to a control register. -/
  | csrw (a : SReg) (n : BitVec 12)
  /-- CSRS (R132): ORs s[a] into a control register. -/
  | csrs (a : SReg) (n : BitVec 12)
  /-- LOOP_REGISTER_WRITE (R81): A write to lc, ls or le that replaces the count or is held pending while the level is active. -/
  | loopRegisterWrite (r : BitVec 12) (v : Word)
  /-- CNT_SEL_WRITE (R85): A write to CNT_SEL that sets the event and enable of the named counter. -/
  | cntSelWrite (v : Word)
  /-- TSTAT_WRITE (R77): A write to TSTAT that clears OVF by W1C and sets PLVL. -/
  | tstatWrite (v : Word)
  /-- EVT (R134): Sets the event flag of the core that s[a] names. -/
  | evt (a : SReg)
  /-- SEED_GET (R135): Writes the context's top seed entry to s[d]. -/
  | seedGet (d : SReg)
  /-- FENCE_ACQ (R136): Holds later device accesses until earlier loads and AMOs have returned. -/
  | fenceAcq (s : BitVec 2)
  /-- FENCE_REL (R136): Holds later releases until earlier stores and AMOs are performed at the scope. -/
  | fenceRel (s : BitVec 2)
  /-- CKPT (R138): Injects checkpoint MARKs into every checkpoint entry of the core, all or none. -/
  | ckpt (d : SReg) (a : SReg) (b : SReg) (p : PReg)
  /-- LAUNCH (R139): Passes a LAUNCH packet to the dispatcher as a device-side launch. -/
  | launch (d : SReg) (a : SReg) (p : PReg)
  /-- SHP_MK (R143): Checks a shape record in scratch and writes it to a shape-table entry. -/
  | shpMk (d : SReg) (a : SReg) (b : SReg) (p : PReg)
  /-- STRM_LD (R148): Issues a stream from memory to fabric and pool destinations. -/
  | strmLd (d : SReg) (a : SReg) (b : SReg) (c : SReg) (p : PReg)
  /-- STRM_SV (R148): Issues a stream from fabric or pool to one memory destination. -/
  | strmSv (d : SReg) (a : SReg) (b : SReg) (c : SReg) (p : PReg)
  /-- STRM_CP (R148): Issues a copy stream from any source to 1–4 destinations of any kind. -/
  | strmCp (d : SReg) (a : SReg) (b : SReg) (c : SReg) (p : PReg)
  /-- STRM_GA (R153): Issues a gather stream with byte offsets taken from DI1. -/
  | strmGa (d : SReg) (a : SReg) (b : SReg) (c : SReg) (p : PReg)
  /-- STRM_SC (R153): Issues a scatter stream with byte offsets taken from DI1. -/
  | strmSc (d : SReg) (a : SReg) (b : SReg) (c : SReg) (p : PReg)
  /-- STRM_UPD (R154): Issues a stream of sparse updates with word indices taken from DI1. -/
  | strmUpd (d : SReg) (a : SReg) (b : SReg) (c : SReg) (p : PReg)
  /-- STRM_ORG (R156): Sets the four shard origins in one step. -/
  | strmOrg (d : SReg) (a : SReg) (b : SReg) (p : PReg)
  /-- STRM_WT (R159): Waits for a stream to end, traps a halt, or returns RESULT. -/
  | strmWt (d : SReg) (a : SReg) (p : PReg)
  /-- STRM_QRY (R160): Returns the state, fault address or position of a stream engine. -/
  | strmQry (d : SReg) (a : SReg) (p : PReg)
  /-- STRM_RSM (R160): Resumes a STOPPED stream from its position. -/
  | strmRsm (d : SReg) (a : SReg) (p : PReg)
  /-- STRM_KIL (R161): Ends a stream, freeing unpublished slots and padding published tiles. -/
  | strmKil (d : SReg) (a : SReg) (p : PReg)
  /-- POOL_AL (R276): Allocates a tile slot, waiting while none is grantable. -/
  | poolAl (d : SReg) (a : SReg) (p : PReg)
  /-- POOL_TAL (R276): Allocates a tile slot, or returns EMPTY at once. -/
  | poolTal (d : SReg) (a : SReg) (p : PReg)
  /-- POOL_PB (R277): Publishes a handle with a read count. -/
  | poolPb (d : SReg) (a : SReg) (b : SReg) (p : PReg)
  /-- POOL_RD (R278): Reads one sector of a tile into scratch, as a peek or the consuming read. -/
  | poolRd (d : SReg) (a : SReg) (b : SReg) (c : SReg) (p : PReg)
  /-- POOL_AB (R279): Abandons readers of a handle. -/
  | poolAb (d : SReg) (a : SReg) (b : SReg) (p : PReg)
  /-- POOL_QRY (R280): Returns a descriptor, counts, slot state, ABFLT, FREC or BCONF. -/
  | poolQry (d : SReg) (a : SReg) (b : SReg) (p : PReg)
  /-- POOL_FNC (R281): Sets, clears or tests the pool fence. -/
  | poolFnc (d : SReg) (a : SReg) (b : SReg) (p : PReg)
  /-- POOL_RSV (R282): Reserves slots of a pool for the issuing core. -/
  | poolRsv (d : SReg) (a : SReg) (b : SReg) (p : PReg)
  /-- FADD (R201): Elementwise floating add, rounded once. -/
  | fadd (w : Eow)
  /-- FSUB (R201): Elementwise floating subtract. -/
  | fsub (w : Eow)
  /-- FMUL (R201): Elementwise floating multiply. -/
  | fmul (w : Eow)
  /-- FMA (R201): Fused multiply-add, rounded once. -/
  | fma (w : Eow)
  /-- FMS (R201): Fused multiply-subtract. -/
  | fms (w : Eow)
  /-- FNMA (R201): c minus the product, rounded once. -/
  | fnma (w : Eow)
  /-- FMIN (R202): Lane minimum with −0 below +0. -/
  | fmin (w : Eow)
  /-- FMAX (R202): Lane maximum. -/
  | fmax (w : Eow)
  /-- FABS (R202): Clears the sign bit. -/
  | fabs (w : Eow)
  /-- FNEG (R202): Inverts the sign bit. -/
  | fneg (w : Eow)
  /-- FCPS (R202): Magnitude of a with the sign of b. -/
  | fcps (w : Eow)
  /-- FRCP (R203): Reciprocal rounded by RNE. -/
  | frcp (w : Eow)
  /-- FRSQ (R203): Reciprocal square root. -/
  | frsq (w : Eow)
  /-- FSQRT (R203): Square root. -/
  | fsqrt (w : Eow)
  /-- FEX2 (R203): Power of two. -/
  | fex2 (w : Eow)
  /-- FLG2 (R203): Base-two logarithm. -/
  | flg2 (w : Eow)
  /-- FCMP (R204): Writes 1.0 or +0 per lane by a floating condition. -/
  | fcmp (w : Eow)
  /-- FCLS (R205): Writes the class number of each lane. -/
  | fcls (w : Eow)
  /-- IADD (R206): Integer add, wrapped or saturated. -/
  | iadd (w : Eow)
  /-- ISUB (R206): Integer subtract, wrapped or saturated. -/
  | isub (w : Eow)
  /-- IADDS (R206): Integer add with a rounding right shift. -/
  | iadds (w : Eow)
  /-- ISUBS (R206): Integer subtract with a rounding right shift. -/
  | isubs (w : Eow)
  /-- IMUL (R206): Wrapped integer multiply. -/
  | imul (w : Eow)
  /-- IMULH (R206): High half of the integer product. -/
  | imulh (w : Eow)
  /-- IMAD (R206): Integer multiply-add. -/
  | imad (w : Eow)
  /-- IMULQ (R206): Fixed-point multiply with a rounding shift. -/
  | imulq (w : Eow)
  /-- IMIN (R206): Integer minimum by signedness. -/
  | imin (w : Eow)
  /-- IMAX (R206): Integer maximum by signedness. -/
  | imax (w : Eow)
  /-- IABS (R206): Integer absolute value. -/
  | iabs (w : Eow)
  /-- IAND (R206): Lane bitwise AND. -/
  | iand (w : Eow)
  /-- IOR (R206): Lane bitwise OR. -/
  | ior (w : Eow)
  /-- IXOR (R206): Lane bitwise XOR. -/
  | ixor (w : Eow)
  /-- INOT (R206): Lane bitwise NOT. -/
  | inot (w : Eow)
  /-- ISHL (R206): Lane left shift. -/
  | ishl (w : Eow)
  /-- ISHR (R206): Lane logical right shift. -/
  | ishr (w : Eow)
  /-- ISHA (R206): Lane arithmetic right shift. -/
  | isha (w : Eow)
  /-- ICMP (R207): Writes an all-ones or zero mask per lane by an integer condition. -/
  | icmp (w : Eow)
  /-- ICLZ (R206): Counts the leading zeros of each lane. -/
  | iclz (w : Eow)
  /-- CVT (R208): Converts lanes between formats, packing or unpacking tokens. -/
  | cvt (w : Eow)
  /-- DEQ (R209): Dequantises block elements to BF16 with a held scale token. -/
  | deq (w : Eow)
  /-- QNT (R210): Quantises 64 values into two blocks and gathers their scales. -/
  | qnt (w : Eow)
  /-- CLMP (R211): Clamps each lane between lo and hi. -/
  | clmp (w : Eow)
  /-- SEL_LANES (R212): Selects a or b per lane by the c mask. -/
  | selLanes (w : Eow)
  /-- SHUF (R212): Permutes lanes by indices in K0 and K1. -/
  | shuf (w : Eow)
  /-- BCST (R212): Broadcasts one lane. -/
  | bcst (w : Eow)
  /-- ROTL (R212): Rotates lanes. -/
  | rotl (w : Eow)
  /-- SLID (R212): Slides a lane window over the sequence a, b. -/
  | slid (w : Eow)
  /-- IOTA (R213): Writes an arithmetic lane sequence per trigger. -/
  | iota (w : Eow)
  /-- RSUM (R214): Sums the lanes of a token in a fixed tree. -/
  | rsum (w : Eow)
  /-- RMAX (R214): Maximum over the lanes of a token. -/
  | rmax (w : Eow)
  /-- RMIN (R214): Minimum over the lanes of a token. -/
  | rmin (w : Eow)
  /-- ACC (R216): Adds tokens into an accumulator bank and releases at round close. -/
  | acc (w : Eow)
  /-- AMAX (R217): Keeps a running absolute maximum per lane. -/
  | amax (w : Eow)
  /-- DOT (R215): Dot product of two tokens, rounded once. -/
  | dot (w : Eow)
  /-- STEER (R225): Sends a token to O0 or O1 by a control token. -/
  | steer (w : Eow)
  /-- MERGE (R225): Forwards a token from SA or SB by a control token. -/
  | merge (w : Eow)
  /-- CARRY (R226): Loop-carried value: takes the initial token, then back-edge tokens while control is true. -/
  | carry (w : Eow)
  /-- GATE (R227): Forwards SA once an SB token has arrived. -/
  | gate (w : Eow)
  /-- INVAR (R226): Repeats a loop-invariant value while control is true. -/
  | invar (w : Eow)
  /-- DROP (R227): Discards each SA token. -/
  | drop (w : Eow)
  /-- PASS (R227): Forwards each SA token. -/
  | pass (w : Eow)
  /-- PRMI (R228): Allocates a loop permit and forwards the token. -/
  | prmi (w : Eow)
  /-- PRMO (R228): Frees a loop permit and forwards the token. -/
  | prmo (w : Eow)
  /-- MKGN (R229): Forwards tokens and schedules MARK insertions. -/
  | mkgn (w : Eow)
  /-- CNTR (R230): Generates loop indices and controls from a trigger. -/
  | cntr (w : Eow)
  /-- DLY (R231): Emits initial tokens, then forwards received ones. -/
  | dly (w : Eow)
  /-- RMK (R232): Builds a record from a data token with a new SEQ. -/
  | rmk (w : Eow)
  /-- RFLD (R232): Extracts one record field into a data token. -/
  | rfld (w : Eow)
  /-- RINS (R232): Inserts a value into a record field. -/
  | rins (w : Eow)
  /-- SENT (R233): Hands a record to the router for admission to a stage set. -/
  | sent (w : Eow)
  /-- SRET (R233): Returns a record from a stage with its pass bit. -/
  | sret (w : Eow)
  /-- ALOC (R235): Takes link slots for a granted tile slot and writes its handle token. -/
  | aloc (w : Eow)
  /-- PWR (R236): Writes a tile sector by sector, zero-fills, and emits its handle. -/
  | pwr (w : Eow)
  /-- PPUB (R237): Publishes handles with a read count and forwards them. -/
  | ppub (w : Eow)
  /-- PRQ (R238): Requests the sectors of tiles as replies to its receivers. -/
  | prq (w : Eow)
  /-- LUT (R239): Looks up table entries in a held tile. -/
  | lut (w : Eow)
  /-- WLD (R256): Loads weight registers from tokens or from an accumulator bank. -/
  | wld (w : Eow)
  /-- MROW (R249): Multiplies an input row by a weight block, chaining partial sums. -/
  | mrow (w : Eow)
  /-- MDRN (R254): Drains the element's own bank on a trigger. -/
  | mdrn (w : Eow)
  /-- MACC (R255): Accumulates pairs of FP32 partial rows. -/
  | macc (w : Eow)
  /-- RT_CFG (R306): Writes a router runtime register: SEED, SBASE, SEQ0 or CUR. -/
  | rtCfg (d : SReg) (a : SReg) (b : SReg) (p : PReg)
  /-- RT_MODE (R307): Sets the live mode of a set, or ends replay. -/
  | rtMode (d : SReg) (a : SReg) (b : SReg) (p : PReg)
  /-- RT_QRY (R308): Returns router state of a set. -/
  | rtQry (d : SReg) (a : SReg) (p : PReg)
  /-- RT_LOG (R309): Arms logging or replay for the next swap. -/
  | rtLog (d : SReg) (a : SReg) (b : SReg) (c : SReg) (p : PReg)
  /-- JRN_PROP (R365): Proposes a journal transaction. -/
  | jrnProp (d : SReg) (a : SReg) (p : PReg)
  /-- JRN_SUB (R366): Subscribes to journal records of a scope. -/
  | jrnSub (d : SReg) (a : SReg) (p : PReg)
  /-- JRN_USUB (R366): Ends a subscription. -/
  | jrnUsub (d : SReg) (a : SReg) (p : PReg)
  /-- JRN_PIN (R367): Pins a scope at its version. -/
  | jrnPin (d : SReg) (a : SReg) (b : SReg) (p : PReg)
  /-- JRN_UPIN (R367): Releases a pin. -/
  | jrnUpin (d : SReg) (a : SReg) (p : PReg)
  /-- JRN_VER (R368): Returns the version of a scope. -/
  | jrnVer (d : SReg) (a : SReg) (p : PReg)
  /-- JRN_RD (R368): Copies a journal record into scratch. -/
  | jrnRd (d : SReg) (a : SReg) (b : SReg) (p : PReg)
  /-- JRN_RVT (R369): Requests the revert of a transaction and its closure. -/
  | jrnRvt (d : SReg) (a : SReg) (p : PReg)
  /-- JRN_EXP (R370): Starts a background write-out of a journal segment. -/
  | jrnExp (d : SReg) (a : SReg) (p : PReg)
  /-- JRN_LOAD (R371): Starts a background load of a journal segment. -/
  | jrnLoad (d : SReg) (a : SReg) (p : PReg)
  /-- ILLEGAL_OP (R90): Issue of a word that no map assigns, or that has a non-zero reserved field, traps ILLEGAL_OP precisely. -/
  | illegalOp (w : Word)
  /-- LOAD_REPLY (R108): The value of an outstanding device load returns and is written to its destination scalar. -/
  | loadReply
  /-- AMO_REPLY (R111): The old value of an AMO returns from the unit and is written to d. -/
  | amoReply
  /-- BARRIER_ARRIVAL (R83): An arrival from another core reaches the barrier and is applied. -/
  | barrierArrival
  /-- BARRIER_WAIT_RELEASE (R84): A waiting BAR.WT or BAR.SYN returns when the barrier reaches its phase. -/
  | barrierWaitRelease
  /-- CFG_WT_RETURN (R125): A waiting CFG.WT returns when a drain result is written. -/
  | cfgWtReturn
  /-- CONFIG_STREAM_LOAD (R121): The background load fetches the command stream and completes, or stops on a translation fault. -/
  | configStreamLoad
  /-- SEAL_CHECKS_COMPLETE (R122): The seal checks of CFG.SWP or CFG.SEL finish, arming the plane or trapping the failing check. -/
  | sealChecksComplete
  /-- TOK_TAKE_RETURN (R130): A waiting TOK.TAKE completes when a token reaches the take port. -/
  | tokTakeReturn
  /-- TAKE_PORT_DRAIN (R261): A DRAIN that reaches the take port is consumed on arrival. -/
  | takePortDrain
  /-- ERET (R133): Returns from a trap to EPC at the level in PLVL. -/
  | eret
  /-- WFE (R134): Clears the event flag, or waits until it is set. -/
  | wfe
  /-- HALT (R135): At F level, stops issue and ends the core's part of the launch. -/
  | halt
  /-- NOP (R135): Does nothing for one cycle. -/
  | nop
  /-- EVENT_FLAG_DELIVERY (R134): An EVT, journal event or stream event sets a core's event flag, waking a WFE. -/
  | eventFlagDelivery
  /-- WFE_RETURN (R134): A waiting WFE continues once the event flag is set, and clears it. -/
  | wfeReturn
  /-- ASYNC_TRAP_TAKE (R79): A queued asynchronous fault is taken between instructions, abandoning any wait. -/
  | asyncTrapTake
  /-- STRM_WT_RETURN (R159): A waiting STRM.WT returns or traps when the engine's state changes. -/
  | strmWtReturn
  /-- STREAM_LINK_ALLOCATION (R150): Once its tile slots are granted, a stream takes a beat's link slots in all receivers at once and issues the source read. -/
  | streamLinkAllocation
  /-- STREAM_SOURCE_REPLY (R162): Data for a beat returns from memory, a pool or a remote device and is delivered or written in walk order. -/
  | streamSourceReply
  /-- STREAM_INPUT_TOKEN (R152): A token or handle at DI0 or DI1 is consumed by the running stream. -/
  | streamInputToken
  /-- STREAM_DRAIN_INPUT (R152): A DRAIN at a data input ends a stream that still needs it, with RESULT SHORT. -/
  | streamDrainInput
  /-- STREAM_WRITE_PERFORMED (R162): A MEM or RMEM beat is performed or acknowledged. -/
  | streamWritePerformed
  /-- STREAM_COMPLETE (R162): Every beat, tile and handle of a stream is done; the engine becomes IDLE with RESULT DONE. -/
  | streamComplete
  /-- STREAM_TRANSLATION_STOP (R158): The walk reaches a beat whose translation faults; the stream stops and traps. -/
  | streamTranslationStop
  /-- STREAM_DRAIN_SEND (R123): After the last token of its streams, an engine sends the DRAIN that CFG.DRN asked for. -/
  | streamDrainSend
  /-- TRANSLATION_WALK (R319): A page-table walk completes with a translation or a fault. -/
  | translationWalk
  /-- TLB_SHOOTDOWN (R324): A firmware shootdown drops translations and cached lines of a range on every core of the partition. -/
  | tlbShootdown
  /-- POOL_REMOTE_REPLY (R275): The reply to a POOL instruction aimed at another core returns and releases issue. -/
  | poolRemoteReply
  /-- POOL_ALLOC_GRANT (R268): A waiting allocation request of any requester is granted the lowest grantable FREE slot. -/
  | poolAllocGrant
  /-- POOL_REMOTE_REQUEST (R33): A pool request from another core is delivered by the node to the pool engine. -/
  | poolRemoteRequest
  /-- BANK_ACCESS (R267): The request at the head of a bank queue is performed, with merged requests and their slot events. -/
  | bankAccess
  /-- DRAIN_COLLECTOR_ABANDON (R42): At a drain, the collector abandons readers of discarded handles and frees unpublished slots. -/
  | drainCollectorAbandon
  /-- ALLOC_WAIT_PROBE_TIMER (R44): A wait blocked for 65,536 cycles sends probes to its targets. -/
  | allocWaitProbeTimer
  /-- PARKED_READ_PROBE_TIMER (R45): A read parked for 65,536 cycles sends a probe to the core that allocated its slot. -/
  | parkedReadProbeTimer
  /-- PROBE_ARRIVAL (R44): A probe reaching a core is relayed along blocked waits, discarded, or found returned. -/
  | probeArrival
  /-- BANK_MOVE (R274): A PART transaction fences a bank and waits for it to empty before moving it. -/
  | bankMove
  /-- BANK_ZEROISE_COMPLETE (R274): After 1,024 cycles the emptied bank is zeroised and given its new owner tag. -/
  | bankZeroiseComplete
  /-- BANK_BUSY_EXPIRY (R274): The trial length passes before the bank empties; the move is refused with BANK_BUSY. -/
  | bankBusyExpiry
  /-- TOKEN_ARRIVAL (R16): A token reaches the link slot its sender allocated at an input port. -/
  | tokenArrival
  /-- FREE_COUNT_RETURN (R172): A freed slot count, or a count given back at DRAIN, reaches the sender's or receiver's core. -/
  | freeCountReturn
  /-- PERMIT_DENY_DROP (R173): A token crossing a link without a permit bit is dropped and its sender halted. -/
  | permitDenyDrop
  /-- ROUTE_BROKEN (R455): A token meets a switch box whose active entry does not carry it and is dropped. -/
  | routeBroken
  /-- ROUND_CLOSE (R175): With MARKs of round RND on every named input, the element closes the round and forwards a MARK. -/
  | roundClose
  /-- ELEMENT_DRAIN_PASS (R177): With every bound input closed, the element flushes, sends DRAIN and sets PASSED. -/
  | elementDrainPass
  /-- HALTED_DISCARD (R178): A HALTED element consumes and discards a token that reaches it. -/
  | haltedDiscard
  /-- CORE_DRAIN_REPORT (R180): A core's collector reports drained, with a stray flag, once every condition holds. -/
  | coreDrainReport
  /-- DRAIN_BEGIN_NOTICE (R180): The lead collector tells the other cores of the region that a drain has begun. -/
  | drainBeginNotice
  /-- DRAIN_RESOLUTION (R124): The lead collector resolves a drain once every core of the region has reported. -/
  | drainResolution
  /-- RESOLUTION_APPLY (R181): A core applies its resolution: a swap, a latched load, or staying drained. -/
  | resolutionApply
  /-- MKGN_MARK_INSERT (R229): In the cycle after an insertion falls due, MKGN writes a MARK and advances RND. -/
  | mkgnMarkInsert
  /-- POOL_READ_REPLY (R238): The pool engine writes a PRQ reply token into the allocated receiver slots. -/
  | poolReadReply
  /-- WEIGHT_LOADER_ROW (R249): The MROW weight loader takes an SC row into W[LDP] or forwards it. -/
  | weightLoaderRow
  /-- BANK_ACCUMULATE_WRITE (R250): A tail's accumulation lands in the bank. -/
  | bankAccumulateWrite
  /-- MATRIX_DRAIN (R252): A bank drain starts after in-flight writes land and writes rows with fused scaling, dropout and residual. -/
  | matrixDrain
  /-- ROUTER_ADMISSION (R291): A waiting SENT record is granted an entry under the capacity and window conditions. -/
  | routerAdmission
  /-- ROUTER_DRAW (R293): The router draws the next stage for the longest-ready record and dispatches it. -/
  | routerDraw
  /-- ROUTER_RETURN (R296): The router takes a return from a return queue, updates statistics, and drops, exits or readies the record. -/
  | routerReturn
  /-- ROUTER_EXIT (R297): A complete record releases its side stores and exits to the EXIT port. -/
  | routerExit
  /-- SIDE_STORE (R298): A side store is performed at DEVICE scope, or stops releases on a translation fault. -/
  | sideStore
  /-- ROUTER_DRAIN (R300): Once every SENT has passed DRAIN and the set is empty, the router sends DRAIN into its ports. -/
  | routerDrain
  /-- SUPD_WINDOW_GRANT (R326): A sparse-update unit grants a window entry to an arriving update or AMO. -/
  | supdWindowGrant
  /-- SUPD_APPLY (R328): The unit applies an update or AMO to its word, merged or in order. -/
  | supdApply
  /-- JOURNAL_EXPORT_COMPLETE (R370): The write-out segment is written and its status released. -/
  | journalExportComplete
  /-- JOURNAL_LOAD_STEP (R362): The load proposes its next record once the previous one has left APPLYING, or finishes with a digest check. -/
  | journalLoadStep
  /-- PROGRESS_WINDOW_EXPIRY (R354): A 65,536-cycle window of the scope's lead core ends and its progress is counted. -/
  | progressWindowExpiry
  /-- TRIAL_END (R354): A trial ends and the transaction is confirmed or reverted for progress. -/
  | trialEnd
  /-- CONTROLLER_PROPOSAL (R387): The service-target or scale controller proposes transactions after four windows. -/
  | controllerProposal
  /-- KICK (R376): A kick message makes a mapped slot re-read WIDX, or sets a pending bit. -/
  | kick
  /-- QUEUE_MAP (R376): Firmware maps a user queue onto a hardware slot. -/
  | queueMap
  /-- QUEUE_UNMAP (R376): Firmware unmaps a queue and writes its state back to the QCB. -/
  | queueUnmap
  /-- QUEUE_REGISTER (R374): The host registers a user queue through the management channel. -/
  | queueRegister
  /-- QUEUE_ARBITRATION (R377): One arbitration decision grants a candidate slot and updates ages. -/
  | queueArbitration
  /-- NOP_PACKET (R379): A NOP packet is read and completes. -/
  | nopPacket
  /-- LAUNCH_PACKET (R378): A LAUNCH packet is accepted into the dispatcher input. -/
  | launchPacket
  /-- SIGNAL_PACKET (R381): A SIGNAL packet writes or adds to its signal word as a SYSTEM release. -/
  | signalPacket
  /-- WAIT_PACKET (R379): A WAIT packet checks its signal word and is processed when satisfied. -/
  | waitPacket
  /-- WAIT_REREAD (R380): A waiting WAIT re-reads its word on a kick, a signal, a mapping or every 2^20 cycles. -/
  | waitReread
  /-- SEED_PUSH (R384): Pushes a host value onto the seed stack. -/
  | seedPush
  /-- SEED_POP (R384): Pops the seed stack. -/
  | seedPop
  /-- SEED_FORK (R384): Pushes MIX64 of the top entry XOR the tag. -/
  | seedFork
  /-- JRN_PACKET_PROP (R378): A JRN packet with OP PROP proposes a transaction from a queue. -/
  | jrnPacketProp
  /-- JRN_PACKET_RVT (R378): A JRN packet with OP RVT requests a revert. -/
  | jrnPacketRvt
  /-- JRN_PACKET_EXP (R378): A JRN packet with OP EXP starts an write-out. -/
  | jrnPacketExp
  /-- JRN_PACKET_LOAD (R378): A JRN packet with OP LOAD starts a load. -/
  | jrnPacketLoad
  /-- LAUNCH_PLACEMENT (R382): The dispatcher places a launch first-fit on idle cores of its partition and starts its cores. -/
  | launchPlacement
  /-- LAUNCH_COMPLETION (R341): Once every core has ended and its stores are performed, the completion signal is written. -/
  | launchCompletion
  /-- CONTEXT_TEARDOWN (R386): Tear-down discards queued launches, ends running ones and kills the context's queues. -/
  | contextTeardown
  /-- PREEMPT_REQUEST (R389): A pre-emption request makes a region PENDING. -/
  | preemptRequest
  /-- CHECKPOINT_SAVE (R392): At the checkpoint point the region saves its fixed and listed parts. -/
  | checkpointSave
  /-- CKPT_OVERDUE (R393): The checkpoint bound expires and the region makes a full save. -/
  | ckptOverdue
  /-- CONTEXT_RESTORE (R396): A saved launch is restored on the same cores and resumes. -/
  | contextRestore
  /-- HANDOVER_PHASE1 (R397): The security core seals a protected save area under a transfer key. -/
  | handoverPhase1
  /-- HANDOVER_PHASE2 (R397): Source keys are destroyed as destination keys are activated. -/
  | handoverPhase2
  /-- CREATE (R404): The host creates a context with a tag, keys and a seed. -/
  | create
  /-- REGISTER (R405): A code object is measured and registered in an OPEN context. -/
  | registerObject
  /-- SEAL (R405): Closes a context to further registrations. -/
  | sealContext
  /-- GET_VERSION (R421): SPDM version request. -/
  | getVersion
  /-- GET_CAPABILITIES (R421): SPDM capabilities request. -/
  | getCapabilities
  /-- NEGOTIATE_ALGORITHMS (R421): SPDM algorithm negotiation. -/
  | negotiateAlgorithms
  /-- GET_DIGESTS (R421): SPDM certificate digests request. -/
  | getDigests
  /-- GET_CERTIFICATE (R421): SPDM certificate request. -/
  | getCertificate
  /-- CHALLENGE (R421): SPDM challenge signed with the device identity key. -/
  | challenge
  /-- GET_MEASUREMENTS (R421): Reports MR0–MR15 or a context's CMR. -/
  | getMeasurements
  /-- KEY_EXCHANGE (R421): SPDM ECDHE key exchange. -/
  | keyExchange
  /-- FINISH (R421): Completes an SPDM session handshake. -/
  | finish
  /-- HEARTBEAT (R421): SPDM session heartbeat. -/
  | heartbeat
  /-- KEY_UPDATE (R421): SPDM session key update. -/
  | keyUpdate
  /-- END_SESSION (R421): Ends an SPDM session and destroys its keys. -/
  | endSession
  /-- MEASUREMENT_EXTEND (R420): Extends a measurement register at the management core's request. -/
  | measurementExtend
  /-- TAG_CHECK_PASS (R415): A tag check resolves and releases held outbound items. -/
  | tagCheckPass
  /-- INTEGRITY (R416): A failed tag check destroys the context's keys and ends it. -/
  | integrity
  /-- RDMA_WRITE (R434): An RDMA write message is translated, performed and acknowledged. -/
  | rdmaWrite
  /-- RDMA_READ_REQUEST (R434): An RDMA read request is translated and answered with a read reply. -/
  | rdmaReadRequest
  /-- READ_REPLY (R434): A read reply for an RMEM source arrives from a remote device. -/
  | readReply
  /-- ACKNOWLEDGMENT (R434): An acknowledgment of an RMEM write arrives and performs the beat. -/
  | acknowledgment
  /-- MANAGEMENT_MESSAGE (R434): A management message carries firmware or host control requests. -/
  | managementMessage
  /-- SOFT_ERROR_CORRECTED (R440): A corrected soft error is counted and may reach SOFT_LIMIT. -/
  | softErrorCorrected
  /-- UNCORRECTABLE (R440): An uncorrectable error ends the owning launch or context. -/
  | uncorrectable
  /-- HEALTH_WINDOW_EXPIRY (R440): A 2^32-cycle health window ends and the counters restart. -/
  | healthWindowExpiry
  /-- CORE_RETIRE (R441): A lasting-fault core is retired once its launch completes or is saved. -/
  | coreRetire
  /-- THERMAL (R443): A thermal limit lowers a core's clock. -/
  | thermal
  /-- SUPPLY (R443): A supply limit lowers a core's clock. -/
  | supply
  /-- SHUTDOWN (R443): A limit that cannot be held shuts the device down. -/
  | shutdown
  /-- DEBUG_UNLOCK (R442): A signed unlock extends MR3, destroys context keys and freezes for scan. -/
  | debugUnlock
  /-- DUSK_ENTRY (R444): A core idle for 1,024 cycles enters Dusk. -/
  | duskEntry
  /-- DUSK_EXIT (R444): A placement or packet wakes a core from Dusk. -/
  | duskExit
  /-- MIDNIGHT_ENTRY (R418): A host request pre-empts, wraps keys and puts HBM in self-refresh. -/
  | midnightEntry
  /-- WAKE (R419): A host wake message restores or loses the keys and resumes contexts. -/
  | wake
  /-- DEVICE_RESET (R445): Reset runs the boot chain, training and zeroising, then sends the ready event. -/
  | deviceReset
  /-- STORE_COMPLETION (R108): An outstanding device store of a sequencer completes into the memory system and frees one of its 16 outstanding accesses. -/
  | storeCompletion
  /-- BARRIER_COMMAND_REPLY (R119): The reply to a barrier command aimed at another core's barrier returns over the memory network and writes d. -/
  | barrierCommandReply
  /-- JOURNAL_REPLY (R364): The journal engine replies to a JRN instruction, writing d and releasing the issue that the instruction held. -/
  | journalReply
  /-- CONNECTION_REQUEST (R433): An Ultra Ethernet connection request selects a delivery mode and is accepted, or refused when the mode is not supported. -/
  | connectionRequest
  deriving DecidableEq, Repr

end Sys2Proof
end

