-- ==== Sys2Proof/Machine/State.lean ====
section
/-! DEFINITION. The machine's state, as plain data, and the state after reset. -/

namespace Sys2Proof.Machine

/-- The two variants of the part (R1). -/
inductive Variant where
  | y7
  | y7l
  deriving DecidableEq, Repr

/-- An asynchronous fault waiting at a sequencer (R78, R79). -/
structure AsyncFault where
  code : BitVec 8
  srck : BitVec 3
  unit : BitVec 8
  tval : Word
  deriving DecidableEq, Repr

/-- The registers of the hardware loops (R80, R81). -/
structure Loops where
  /-- lc0–lc3. -/
  lc : Vector (BitVec 32) 4
  /-- ls0–ls3. -/
  ls : Vector Word 4
  /-- le0–le3. -/
  le : Vector Word 4
  /-- The pending write of lsn, if one is held (R81). -/
  pls : Vector (Option Word) 4
  /-- The pending write of len, if one is held (R81). -/
  ple : Vector (Option Word) 4
  /-- The active levels, the most recently activated first (R80). -/
  active : List (BitVec 2)
  deriving DecidableEq, Repr

/-- What a sequencer waits for (R76), or what holds its issue until a reply. -/
inductive Wait where
  /-- No wait: the sequencer issues. -/
  | none
  /-- BAR.WT or BAR.SYN on a phase token: the barrier's core and index, the token, the destination, and whether it is BAR.SYN. -/
  | barrier (core bar : Nat) (tok : BitVec 16) (d : SReg) (syn : Bool)
  /-- BAR.WT or BAR.PHS of another core's barrier on its way (R119), or BAR.SYN whose arrival has not been applied. -/
  | barrierCommand (id : Nat)
  /-- CFG.WT. -/
  | cfg (d : SReg)
  /-- STRM.WT on an engine. -/
  | stream (d : SReg) (engine : Nat)
  /-- TOK.TAKE to a scratch address. -/
  | take (d : SReg) (addr : Word)
  /-- POOL.AL on the allocation request of the number. -/
  | pool (d : SReg) (id : Nat)
  /-- WFE. -/
  | event
  /-- FENCE of a kind: true for rel (R136). -/
  | fence (rel : Bool)
  /-- A command to another core's pool (R275): the reply of the number. -/
  | poolReply (id : Nat)
  /-- A journal command (R364): the reply of the number. -/
  | journal (id : Nat)
  deriving DecidableEq, Repr

/-- Whether a sequencer issues. -/
inductive Run where
  /-- No launch on the core. -/
  | idle
  /-- The sequencer issues. -/
  | running
  /-- It has ended its part of the launch (R131, R135). -/
  | ended
  /-- Stopped by DOUBLE_TRAP (R79, R439). -/
  | doubleTrap
  /-- Stopped by a pre-emption save, a freeze or a reset of the power state (R392, R442). -/
  | stopped
  deriving DecidableEq, Repr

/-- The operations of AMO and of the sparse-update units (R94, R111, R154). -/
inductive AmoOp where
  | add | fadd | badd | min | max | minn | maxn | and | or | xor | swap | cas | incw
  deriving DecidableEq, Repr

/-- What an outstanding device access does (R107, R108, R111). -/
inductive AccessKind where
  /-- A load into d, sign-extending or not. -/
  | load (signed : Bool)
  /-- A store. -/
  | store
  /-- An AMO at a sparse-update unit. -/
  | amo (op : AmoOp)
  deriving DecidableEq, Repr

/-- A device access of a sequencer that has been issued and not yet performed (R108). -/
structure Access where
  /-- A number that names the access within its core. -/
  id : Nat
  kind : AccessKind
  d : SReg
  /-- The stack-linear physical address of its first byte. -/
  phys : Nat
  /-- 1, 2, 4 or 8 bytes. -/
  size : Nat
  /-- The value stored, or the operand of an AMO. -/
  value : Word
  /-- The compare value of an AMO cas. -/
  cmp : Word
  /-- The reply of an AMO once its unit has applied it (R111). -/
  reply : Option Word
  deriving DecidableEq, Repr

/-- A translation that a TLB holds (R322): a 64 KiB page, or a 512 MiB page. -/
structure TlbEntry where
  tag : BitVec 6
  /-- The first virtual address it covers and its size in bytes. -/
  base : Nat
  size : Nat
  /-- The physical address of the first byte. -/
  phys : Nat
  w : Bool
  x : Bool
  /-- CH of a level-3 entry (R321). -/
  ch : Bool
  deriving DecidableEq, Repr

/-- A physical barrier (R82). -/
structure Barrier where
  n : BitVec 16
  a : BitVec 16
  p : BitVec 16
  deriving DecidableEq, Repr

/-- An entry of a context's handle table (R82, R118). -/
structure Handle where
  valid : Bool
  scope : BitVec 2
  core : BitVec 9
  bar : BitVec 7
  n : BitVec 16
  deriving DecidableEq, Repr

/-- A token: 256 payload bits and the fields of its sideband (R21). -/
structure Token where
  payload : Payload
  /-- TAG, sideband 31:20. -/
  tag : BitVec 12
  taint : Bool
  round : BitVec 8
  /-- E3–E0. -/
  e : BitVec 4
  vc : BitVec 5
  /-- 0 DATA, 1 RECORD, 2 MARK, 3 DRAIN. -/
  kind : BitVec 2
  deriving DecidableEq, Repr

/-- What writes a token into a link slot. -/
inductive Sender where
  /-- Output `out` of an element. -/
  | elem (core ea out : Nat)
  /-- The output of a stream engine. -/
  | stream (core k : Nat)
  /-- The sequencer injection port of a core. -/
  | seq (core : Nat)
  /-- The router of a core. -/
  | router (core : Nat)
  deriving DecidableEq, Repr

/-- Where a token is received. -/
inductive Dest where
  /-- Input port of an element. -/
  | port (core ea i : Nat)
  /-- Data input 0 or 1 of a stream engine. -/
  | data (core k i : Nat)
  /-- The take port of a core (R130). -/
  | take (core : Nat)
  deriving DecidableEq, Repr

/-- A token that has left its sender and not yet reached the link slot allocated for it (R15, R455). -/
structure Flight where
  src : Sender
  dst : Dest
  /-- The route entry of the sender's own box that begins the route; 8 for a path that uses no box. -/
  entry : Nat
  /-- The box that it crosses next, with the entry to use there and the side it comes in from; none while it has crossed none (R455). -/
  pos : Option (Nat × Nat × Nat × Nat)
  tok : Token
  deriving DecidableEq, Repr

/-- A token in a link slot, with the core its sender lies in. -/
structure Stored where
  tok : Token
  origin : Nat
  deriving DecidableEq, Repr

/-- The link slots of an input port that are not FREE (R28, R172). -/
structure Port where
  /-- Tokens in arrival order. -/
  toks : List Stored
  /-- Slots allocated whose token is on its way. -/
  pend : Nat
  /-- Freed slots whose count is still on its way to a sender of another core. -/
  back : Nat
  /-- Whether the port has delivered DRAIN (CLOSED of R167; the DI and take ports keep one as well). -/
  closed : Bool
  deriving DecidableEq, Repr

/-- The state of a weight register (R247). -/
inductive WState where
  | empty
  | full (u : BitVec 8)
  | stat
  deriving DecidableEq, Repr

/-- The state of an accumulator bank (R250). -/
inductive BState where
  | free
  | filling
  | draining
  deriving DecidableEq, Repr

/-- A partial sum waiting at a chain's next element (R243). -/
structure PSum where
  /-- 16 FP32 values, column j in bits 32j + 31:32j. -/
  vals : BitVec 512
  row : BitVec 7
  taint : Bool
  deriving DecidableEq, Repr

/-- An accumulation on its way to a bank (R249, R250). -/
structure AccWrite where
  bank : Bool
  row : BitVec 4
  vals : BitVec 512
  taint : Bool
  deriving DecidableEq, Repr

/-- A bank drain in progress (R252). -/
structure DrainJob where
  bank : Bool
  /-- The next token to write: row, and half of the row for FP32. -/
  row : Nat
  half : Bool
  /-- Whether the drain has started, and what it read when it did. -/
  started : Bool
  org0 : BitVec 32
  org1 : BitVec 32
  seed : Word
  deriving DecidableEq, Repr

/-- A sector read of PRQ in request order (R238). -/
structure PrqRead where
  handle : BitVec 32
  sector : Nat
  /-- The reply token, once the pool has it. -/
  reply : Option Token
  deriving DecidableEq, Repr

/-- OPST: the operation state of an element (R167), a field for each role that an operation's entry gives it. -/
structure Opst where
  /-- State LOOP of CARRY and INVAR (R226); AMAX has consumed a token. -/
  loop : Bool
  /-- The token held: V of INVAR, the scale token of DEQ, the index token of LUT whose reads are out, the handles of PWR. -/
  held : Option Token
  /-- A counter: c of DEQ, QNT, IOTA, DLY, RMK and MKGN, m of CNTR, p of ACC, rows written of the weight block of WLD and MROW. -/
  cnt : Nat
  /-- x of CNTR; the next lane of the handle token of PWR and PRQ. -/
  idx : BitVec 32
  /-- The running maxima of AMAX, the scales of QNT. -/
  lanes : Payload
  /-- ANY of ACC and AMAX; an insertion due of MKGN; output slots taken for a token that PWR, PPUB or LUT writes later. -/
  any : Bool
  /-- The handle in use: h of PWR, PRQ and LUT, the granted slot of ALOC. -/
  hand : Option (BitVec 32)
  /-- The stored format of the tile PWR writes. -/
  fmt : Option (BitVec 4)
  /-- The next sector of PWR's and PRQ's handle. -/
  sector : Nat
  /-- The zero fill of PWR is under way. -/
  fill : Bool
  /-- Row and E bits kept for a release. -/
  row : BitVec 7
  eb : BitVec 4
  taint : Bool
  /-- The allocation request of ALOC in a pool's queue. -/
  req : Option Nat
  deriving DecidableEq, Repr

/-- The state of an element (R167), its weight, bank and partial-sum states (R243, R247, R250) and its event counters (R443). -/
structure Elem where
  w0 : BitVec 4096
  w1 : BitVec 4096
  a0 : BitVec 8192
  a1 : BitVec 8192
  fstat : BitVec 8
  /-- PHASE of O0 and O1. -/
  phase0 : BitVec 4
  phase1 : BitVec 4
  opst : Opst
  rnd : BitVec 8
  passed : Bool
  halted : Bool
  /-- I0–I3. -/
  ports : Vector Port 4
  /-- W0 and W1. -/
  ws0 : WState
  ws1 : WState
  /-- LDP and USP. -/
  ldp : Bool
  usp : Bool
  /-- Rows of the block being loaded, and rows still to forward (R249). -/
  wrow : Nat
  wfwd : Nat
  /-- A0 and A1. -/
  bs0 : BState
  bs1 : BState
  bp : Bool
  /-- DR (R252). -/
  dr : BitVec 32
  /-- Accumulating firings since the last trigger (TRIG 3). -/
  accs : Nat
  /-- TAINT of the tokens accumulated into A0 and A1 since the last drain. -/
  at0 : Bool
  at1 : Bool
  pending : List AccWrite
  drains : List DrainJob
  /-- A MARK or a DRAIN that waits for the drains of a round close or a flush (R257): the element has released for it. -/
  flushing : Bool
  psums : List PSum
  prq : List PrqRead
  /-- DRAIN has been sent and the loop inputs have not all closed (R223). -/
  sentDrain : Bool
  /-- The port of the first stray recorded in this configuration (R179). -/
  stray : Option (BitVec 2)
  /-- The oldest first: rounds closed and not yet returned on I0–I3 where they are loop inputs (R223). -/
  owed : Vector (List (BitVec 8)) 4
  /-- The id of the last checkpoint MARK whose passing is recorded (R175, R390). -/
  ckpt : Option (BitVec 8)
  /-- Blocked in allocation when it last tried (R37, R273): the places that lacked room with the slots needed in each, none for a resource
  of its own core. -/
  blocked : Option (List (Dest × Nat))
  /-- The same of MROW's weight loader, and of a drain, which wait beside the firing (R251). -/
  blockedLoad : Option (List (Dest × Nat))
  blockedDrain : Option (List (Dest × Nat))
  /-- The model's number of the tile that PWR is at: its writes of one tile are told from those of another by it (R285). -/
  tile : Nat
  /-- ECNT0–ECNT3. -/
  ecnt : Vector (BitVec 32) 4
  deriving DecidableEq, Repr

/-- The source of an allocation request (R268). -/
inductive Requester where
  | seq (core : Nat)
  | elem (core ea : Nat)
  /-- A stream engine, for the entry `k` of its destination block. -/
  | stream (core eng k : Nat)
  deriving DecidableEq, Repr

/-- A tile slot (R30, R262). -/
structure Slot where
  /-- 0 FREE, 1 ALLOCATED, 2 PUBLISHED. -/
  state : BitVec 2
  /-- Reads that remain of a PUBLISHED slot. -/
  n : BitVec 8
  /-- The 64-bit allocation count; GEN is its low 16 bits (R270). -/
  count : BitVec 64
  /-- The stored format, set by the first sector written since allocation (R269). -/
  sfmt : BitVec 4
  /-- The sectors present. -/
  pres : List Nat
  /-- The core that allocated it (R45). -/
  owner : Nat
  /-- An element of the configuration allocated it and has not published it (R42). -/
  byElem : Bool
  deriving DecidableEq, Repr

/-- A request in a pool's allocation queue. -/
structure AllocReq where
  id : Nat
  who : Requester
  deriving DecidableEq, Repr

/-- The runtime state of a pool (R262); its descriptor stands in the active plane. -/
structure Pool where
  slots : Sparse Slot
  /-- Reservations: core and count, in order of making (R282). -/
  rsv : List (Nat × Nat)
  pfnc : Bool
  abflt : BitVec 16
  frec : BitVec 64
  queue : List AllocReq
  deriving DecidableEq, Repr

/-- What a queued bank request does (R267). -/
inductive BankOp where
  /-- A read: consuming, or a peek. -/
  | read (cons : Bool)
  /-- The read of a POOL.RD: consuming or a peek, its destination register and scratch address; the request's `beat` is the number of
  the command (R278). -/
  | command (cons : Bool) (d : SReg) (scratch : Word)
  /-- A write of a sector with its format and TAINT. -/
  | write (data : Payload) (fmt : BitVec 4) (taint : Bool)
  deriving DecidableEq, Repr

/-- Whether a request reads. -/
def BankOp.reads : BankOp → Bool
  | .read _ => true
  | .command _ _ _ => true
  | .write _ _ _ => false

/-- A request queued or parked at a bank. -/
structure BankReq where
  /-- The port code of R272. -/
  port : BitVec 8
  /-- The core and unit that asked: an element, or a stream engine with the number of its beat. -/
  who : Requester
  beat : Nat
  handle : BitVec 32
  sector : Nat
  op : BankOp
  /-- The number under which it was presented at its pool's core: of requests of other cores, the order of their delivery (R33). -/
  num : Nat := 0
  deriving DecidableEq, Repr

/-- A pool bank: its queue, the reads parked for an absent sector, its fence and its conflict counter (R262, R267, R274). -/
structure Bank where
  queue : List BankReq
  parked : List BankReq
  bfnc : Bool
  /-- Whether it is being zeroised for a move. -/
  zeroising : Bool
  bconf : BitVec 32
  deriving DecidableEq, Repr

/-- A stream's shape record (R142). -/
abbrev Shape := BitVec 512

/-- The stream instructions (R146). -/
inductive StreamOp where
  | ld | sv | cp | ga | sc | upd
  deriving DecidableEq, Repr

/-- The sequence numbers of a write of a deterministic launch (R428): the sender key, which is the core's place in the region and the unit (0–7 a
stream engine, 8 the sequencer, 9 the router), with the launch it belongs to, and OWN, PRED and SUCC. -/
structure SeqNums where
  launch : Nat
  place : Nat
  unit : Nat
  own : BitVec 20
  pred : BitVec 20
  succ : BitVec 20
  deriving DecidableEq, Repr

/-- A chain of a sender that a memory interface has in progress: a base die (0–7) or a port die (8, 9), and the numbers of the last operation of it that
has been applied (R428). -/
structure Chain where
  die : Nat
  last : SeqNums
  deriving DecidableEq, Repr

/-- An update as its sender gave it (R326): core and unit (0–7 a stream engine, 8 the sequencer), the access of an AMO or the beat of a
stream, ORD, and in deterministic mode its sequence numbers (R428). -/
structure UpdatePart where
  core : Nat
  unit : Nat
  id : Nat
  ord : Bool
  seq : Option SeqNums
  deriving DecidableEq, Repr

/-- An entry of a sparse-update unit's window, or a request waiting for one (R326). -/
structure Update where
  /-- The stack-linear physical address and size of the word. -/
  phys : Nat
  size : Nat
  op : AmoOp
  value : Word
  cmp : Word
  tag : BitVec 6
  /-- Who sent it; and after a merge, those whose updates were merged into it, in order (R327). -/
  part : UpdatePart
  folded : List UpdatePart
  amo : Bool
  deriving DecidableEq, Repr

/-- Where a beat's data come from (R144, R152, R153, R155). -/
inductive BeatSource where
  /-- A sector of device memory, by its physical address. -/
  | mem (phys : Nat)
  /-- A remote device: number and address. -/
  | remote (device : BitVec 16) (addr : Word)
  /-- A sector of a tile, read by a consuming read or a peek. -/
  | tile (handle : BitVec 32) (sector : Nat)
  /-- Data already at hand: a token, or padding. -/
  | given
  deriving DecidableEq, Repr

/-- A beat of a stream whose source read has been issued (R150, R162). -/
structure Beat where
  /-- Its number in the walk. -/
  n : Nat
  src : BeatSource
  /-- Its data and TAINT, once the source has replied. -/
  data : Option (Payload × Bool)
  /-- Physical addresses of its MEM writes still to be performed. -/
  mem : List Nat
  /-- Remote devices and addresses it writes. -/
  remote : List (BitVec 16 × Word)
  /-- The tile of each POOL destination: the entry of the destination block and the handle. -/
  tiles : List (Nat × BitVec 32)
  /-- Its sparse updates, each with its lane (R154). -/
  updates : List (Nat × Update)
  /-- A scattered run with a null offset, which is read and discarded (R153). -/
  drop : Bool
  /-- Delivered to its destinations. -/
  delivered : Bool
  /-- Pool writes still at a bank, remote writes not acknowledged, updates not applied. -/
  waits : Nat
  /-- One of its pool writes has faulted: it is the beat at which the stream halts, and POS stays at it (R39, R158). -/
  failed : Bool
  /-- Tag checks that its writes are held for (R415). -/
  holds : List Nat
  deriving DecidableEq, Repr

/-- A stream as captured at issue, with its progress (R149, R150). -/
structure StreamJob where
  op : StreamOp
  base : Word
  ctl : Word
  shape : Shape
  /-- The four entries of the destination block, 128 bits each. -/
  dests : Vector (BitVec 128) 4
  /-- ORG0–ORG3 as captured. -/
  org : Vector (BitVec 32) 4
  /-- Accesses of the sequencer that a stream with REL waits for (R162). -/
  after : List Nat
  /-- The number of the next beat to allocate and issue. -/
  next : Nat
  beats : List Beat
  /-- The tile slot granted for the current tile of each POOL destination. -/
  grants : Vector (Option (BitVec 32)) 4
  /-- The allocation request waiting for each POOL destination. -/
  reqs : Vector (Option Nat) 4
  /-- Slots granted to the stream and not yet written in full. -/
  opened : List (BitVec 32)
  /-- Those of them that the stream has not published, whose handle token's link slot is still taken (R151). -/
  unpub : List (BitVec 32)
  /-- Issued after CFG.DRN: it does not hold back its engine's DRAIN (R165). -/
  late : Bool
  /-- The link slots of beat `next` are taken (R150). -/
  linked : Bool
  /-- In deterministic mode, the operations of the stream so far to each memory interface: base dies 0–7, port dies 8 and 9 (R428). -/
  owns : Vector Nat 10
  /-- Handles taken from DI0 and not yet used up, the first in use. -/
  handles : List (BitVec 32)
  /-- Offsets or indices taken from DI1 and not yet used up. -/
  offsets : List (BitVec 32)
  /-- A token taken from DI0 for the beat in issue. -/
  taken : Option Token
  /-- How it ends before its last beat: RESULT 1 KILLED or 3 SHORT, or 2 for a halt; none while the walk goes on. -/
  ending : Option (BitVec 3)
  deriving DecidableEq, Repr

/-- A stream engine (R140, R141). -/
structure Engine where
  /-- 0 IDLE, 1 RUNNING, 2 STOPPED, 3 HALTED. -/
  state : BitVec 2
  result : BitVec 3
  fcode : BitVec 8
  faddr : Word
  beats : BitVec 48
  pos : Vector (BitVec 32) 4
  job : Option StreamJob
  /-- DI0 and DI1. -/
  di : Vector Port 2
  /-- CFG.DRN asks for a DRAIN after the last token, and the engine has sent it. -/
  drainAsked : Bool
  drainSent : Bool
  deriving DecidableEq, Repr

/-- A load of the configuration engine (R121, R126). -/
structure ConfigLoad where
  addr : Word
  count : Nat
  idx : BitVec 16
  deriving DecidableEq, Repr

/-- The configuration engine and the drain collector of a core (R120–R127, R180). -/
structure ConfigEngine where
  /-- APLANE and SPLANE: the 16-bit field FN of target EA at key 256 × EA + FN. -/
  active : Sparse (BitVec 16)
  shadow : Sparse (BitVec 16)
  /-- CFG_IDX and the shadow's index. -/
  idx : BitVec 16
  shadowIdx : BitVec 16
  /-- Receivers of each output as traced at the seal of the plane (R182, R455), at key 2 × element + output and 128 + engine: the
  route entry that begins the route (8 for a path without a box) and where it ends; of the active plane and of the sealed shadow. -/
  dests : Sparse (List (Nat × Dest))
  shadowDests : Sparse (List (Nat × Dest))
  /-- The index of the command of the last stream that last wrote a shadow field (R122). -/
  writers : Sparse Nat
  /-- Escapes and targets that check 1 rejects: the command's index, FN and EA. -/
  bad : List (Nat × Nat × Nat)
  loads : List ConfigLoad
  incomplete : Bool
  /-- The shadow plane holds a loaded configuration that has not been swapped in (R124, R126). -/
  loaded : Bool
  /-- A CFG.SWP whose checks have not completed. -/
  sealing : Bool
  isSealed : Bool
  armed : Bool
  /-- The standing changes of the journal have overlaid the armed shadow plane (R352). -/
  overlaid : Bool
  /-- The choice that CFG.SEL latched (R126). -/
  latched : Option ConfigLoad
  /-- The drain result, if one waits (R124, R125). -/
  result : Option (BitVec 3)
  /-- A drain of the active configuration has begun at this core. -/
  draining : Bool
  /-- The core has been told that a drain has begun in the region. -/
  noticed : Bool
  /-- CFG.DRN has been issued for this configuration. -/
  drained : Bool
  /-- The abandons of R42 have applied, and the core has reported. -/
  abandoned : Bool
  reported : Bool
  /-- Elements whose stray of this configuration an earlier resolution has reported (R124, R179). -/
  strays : List Nat
  /-- The drains that have been resolved at the core in this launch (R180). -/
  drains : Nat
  /-- The choice that CFG.SEL latched has failed at the resolution that is on its way (R126). -/
  failed : Bool
  /-- A drain has begun in the region, and the core has not swapped since (R181). -/
  begun : Bool
  /-- Cores whose senders have returned their counts for ports of this core on passing DRAIN, since it last swapped (R172, R177). -/
  returned : List Nat
  /-- Cores that have swapped where this core has not: their senders have no free count for a port of it (R181). -/
  barred : List Nat
  deriving DecidableEq, Repr

/-- A record entry of the router (R287, R292). -/
structure RecordEntry where
  set : BitVec 3
  tok : Token
  /-- The stage the record is out in. -/
  out : Option (BitVec 3)
  /-- The draw order: the entry with the lowest number has been ready longest. -/
  since : Nat
  /-- Filled side entries: stage and payload, in stage order. -/
  sides : List (BitVec 3 × Payload)
  complete : Bool
  /-- The side stores still to perform before the exit; none while not released. -/
  releasing : Option (List Payload)
  /-- Whether its slot in the EXIT port is taken (R297). -/
  slotted : Bool
  /-- The index of its log entry while it is out (R301). -/
  logAt : Option Nat
  /-- In replay, the pass bit that its return must have (R302). -/
  expect : Option Bool
  deriving DecidableEq, Repr

/-- The counts of a window of a stage set, by stage (R294). -/
structure Window where
  ins : Vector Nat 8
  passes : Vector Nat 8
  deriving DecidableEq, Repr

/-- The state of one stage set (R287, R291, R308). -/
structure StageSet where
  rtq : List Token
  lmode : BitVec 2
  next : BitVec 20
  /-- The index of window o, and windows o and o + 1. -/
  o : Nat
  wins : Vector Window 2
  /-- P of windows o − 1 and o − 2. -/
  p1 : Vector Nat 8
  p2 : Vector Nat 8
  /-- Values of windows o and o + 1 that have left the set. -/
  gone : List (BitVec 20)
  seed : BitVec 32
  sbase : BitVec 55
  seq0 : BitVec 20
  cur : BitVec 32
  admissions : BitVec 32
  exits : BitVec 32
  drops : BitVec 32
  drainSent : Bool
  deriving DecidableEq, Repr

/-- A side store or log entry of the router on its way to device memory (R298, R301). -/
structure SideStore where
  set : BitVec 3
  /-- The virtual address, and the bytes: 32 of a side store, 4 of a log entry. -/
  addr : Word
  data : List Byte
  /-- The record entry it belongs to, if it is a side store. -/
  seq : Option (BitVec 20)
  taint : Bool
  /-- Tag checks that it is held for (R415). -/
  holds : List Nat
  deriving DecidableEq, Repr

/-- The stage router of a core (R287). -/
structure Router where
  entries : List RecordEntry
  sets : Vector StageSet 8
  /-- In deterministic mode, the stores and log entries of the drain epoch so far to each base die (R428). -/
  owns : Vector Nat 8
  /-- Draw stamps given out. -/
  stamp : Nat
  /-- The set last served in round-robin order of returns. -/
  turn : BitVec 3
  /-- 0 off, 1 recording, 2 replay, 3 ended by truncation; base, size and cursor of the log (R301, R308). -/
  log : BitVec 2
  logBase : BitVec 55
  logSize : Nat
  logCur : Nat
  /-- Log entries written or read (R301, R308). -/
  logDone : Nat
  /-- A draw whose dispatch waits for room: set, SEQ and the stage chosen (R293). -/
  drawn : Option (BitVec 3 × BitVec 20 × BitVec 3)
  /-- What RT.LOG has armed for the next swap. -/
  logNext : Option (BitVec 2 × BitVec 55 × Nat)
  held : Bool
  stores : List SideStore
  /-- Releases have stopped on a translation fault, and whether its trap is being handled or was lost (R298). -/
  stopped : Bool
  inTrap : Bool
  trapLost : Bool
  /-- The active plane is one of a deterministic launch, whose sets exit in order (R425). -/
  det : Bool
  deriving DecidableEq, Repr

/-- A request to another core's pool, or its reply (R275). -/
structure PoolCommand where
  /-- The sub-operation of R96. -/
  sub : BitVec 3
  a : Word
  b : Word
  c : Word
  deriving DecidableEq, Repr

/-- What the reply to a POOL command carries: a value for d, a fault, or a sector for scratch. -/
inductive PoolReply where
  | value (d : Word)
  | fault (code : BitVec 8) (tval : Word)
  | sector (d : Word) (scratch : Word) (data : Payload)
  deriving DecidableEq, Repr

/-- A wait that a probe has passed: its core, SRCK, UNIT and the model's number of the wait at that core (R44). -/
structure ProbeStop where
  core : Nat
  srck : BitVec 3
  unit : Nat
  num : Nat
  deriving DecidableEq, Repr

/-- A command of a sequencer on its way to or from another core, or a local arrival held by earlier accesses (R119, R275, R337). -/
inductive NetKind where
  /-- BAR.ARV, or BAR.SYN: the barrier's index, the accesses to be performed first, d and the command's number. -/
  | arrive (bar : Nat) (after : List Nat) (d : SReg) (syn : Bool) (id : Nat)
  /-- BAR.WT or BAR.PHS: the barrier's index and, for BAR.WT, the token. -/
  | barrierQuery (bar : Nat) (tok : Option (BitVec 16)) (d : SReg) (id : Nat)
  /-- The reply to a BAR.ARV: the token for d. -/
  | barrierReply (d : SReg) (v : Word) (id : Nat)
  /-- A POOL command and its reply. -/
  | poolRequest (cmd : PoolCommand) (d : SReg) (id : Nat)
  | poolReply (r : PoolReply) (d : SReg) (id : Nat)
  /-- A sector request of an element or stream engine to another core's pool. -/
  | bankRequest (r : BankReq)
  /-- An allocation request of an engine to another core's pool. -/
  | allocRequest (pool : Nat) (r : AllocReq)
  /-- EVT, a journal event or a stream event for a core (R134). -/
  | event
  /-- A probe: its hops, and the waits it has passed, the one that sent it first (R44). -/
  | probe (hops : Nat) (path : List ProbeStop)
  /-- A core tells another of the region that a drain has begun, by the number of drains that have been resolved before it; a core's report;
  a resolution (R180). -/
  | drainBegin (num : Nat)
  | drainReport (stray : Bool)
  | resolution (abandon : Bool)
  deriving DecidableEq, Repr

/-- A packet of the memory network: the cores it goes between, what it carries, and the owner tag of its context (R402). -/
structure Packet where
  src : Nat
  dst : Nat
  kind : NetKind
  tag : BitVec 6
  deriving DecidableEq, Repr

/-- A freed count, or all counts of a route given back at DRAIN, on its way to another core (R172, R177). -/
structure Credit where
  dst : Dest
  /-- True for the return that a sender makes on passing DRAIN. -/
  final : Bool
  /-- The core it travels to. -/
  dest : Nat
  deriving DecidableEq, Repr

/-- A blocked wait of a core (R44, R45): SRCK, UNIT, for a parked read its pool's core and its request, the model's number of the wait, the
cycle in which it began, and the probes that its timer has sent. -/
structure BlockedWait where
  srck : BitVec 3
  unit : Nat
  sub : Nat
  num : Nat
  since : Word
  sent : Nat
  deriving DecidableEq, Repr

/-- A core: its sequencer (R70–R86), engines and elements. -/
structure Core where
  /-- s0–s31; s0 reads zero through `Core.reg`. -/
  regs : Vector Word 32
  /-- p0–p7; p0 reads true through `Core.pred`. -/
  preds : Vector Bool 8
  loops : Loops
  pc : Word
  tvec : Word
  epc : Word
  tcause : Word
  tval : Word
  /-- TSTAT: OVF, TIN, PLVL and LVL; QCNT is the length of the queue. -/
  ovf : Bool
  tin : Bool
  plvl : Bool
  lvl : Bool
  /-- Asynchronous faults in the order of arrival, at most 16. -/
  faults : List AsyncFault
  regionOrg : BitVec 16
  regionExt : BitVec 16
  /-- CTX_ID: owner tag and partition. -/
  ctxTag : BitVec 6
  ctxPart : BitVec 5
  cycle : Word
  seedLo : BitVec 32
  seedHi : BitVec 32
  org : Vector Word 4
  cntSel : BitVec 4
  /-- EVENT and EN of each counter. -/
  cntEvent : Vector (BitVec 8) 16
  cntEn : Vector Bool 16
  cnt : Vector Word 16
  event : Bool
  accesses : List Access
  /-- The next number for an access or a command of this core. -/
  nextId : Nat
  /-- Destinations whose value a command to another core will write (R119). -/
  awaited : List SReg
  wait : Wait
  run : Run
  /-- The part of the launch ended by TRAP #0 or HALT; true once the end has been requested. -/
  endAsked : Bool
  scratch : Sparse Byte
  icache : Sparse Insn
  /-- Words that the configuration engine has prefetched, by virtual address (R325). -/
  prefetch : Sparse Insn
  tlb : List TlbEntry
  bars : Sparse Barrier
  shapes : Sparse Shape
  engines : Vector Engine 8
  elems : Sparse Elem
  cfg : ConfigEngine
  /-- Permits outstanding of permit pools 0–7 (R228). -/
  permits : Vector Nat 8
  takePort : Port
  pools : Vector Pool 16
  banks : Vector Bank 16
  /-- Sectors: data and TAINT at key (bank × 1,024 + line) × 2 + half. -/
  sram : Sparse Payload
  sramTaint : Sparse Bool
  router : Router
  /-- The waits that are blocked, each with the time for which it has been (R44, R45). -/
  waits : List BlockedWait
  /-- The numbers of the waits for which ALLOC_CYCLE has been raised (R44). -/
  told : List Nat
  /-- Units retired by elements with STAGE.TERM set (R354). -/
  units : Nat
  deriving DecidableEq, Repr

/-- The states of a context (R401). -/
inductive CtxState where
  | free
  | opened
  | closed
  | lost
  deriving DecidableEq, Repr

/-- A code object registered in a context (R405). -/
structure CodeObject where
  va : Word
  len : Nat
  /-- The SHA-512/256 digests of its kernels, in order. -/
  digests : List (BitVec 256)
  deriving DecidableEq, Repr

/-- A subscription (R359, R366). -/
structure Subscription where
  core : Nat
  b : Word
  c : Word
  logn : Nat
  mask : BitVec 7
  /-- The scope: partition, and the rectangle OX, OY, EX, EY. -/
  scope : BitVec 40
  gap : Nat
  deriving DecidableEq, Repr

/-- KSLOT: the keys of an owner tag, 768 bits (R401, R408). The transit key follows from the pool key. -/
structure KeySlot where
  pool : BitVec 128
  /-- The two memory keys. -/
  memory1 : BitVec 256
  memory2 : BitVec 256
  tag : BitVec 128
  deriving DecidableEq, Repr

/-- What belongs to an owner tag: its context's keys, measurement, tables and seed stack (R82, R317, R384, R401). -/
structure Context where
  state : CtxState
  prot : Bool
  part : BitVec 5
  /-- Its key slot, if it is filled, and the number of the draw that filled it. -/
  slot : Option KeySlot
  draw : Nat
  cmr : BitVec 512
  objects : List CodeObject
  handles : Sparse Handle
  root : BitVec 52
  /-- The seed stack, top first. -/
  seeds : List Word
  subs : Sparse Subscription
  /-- Device numbers of its peer set, and those for which a peer key is installed, with the count of messages under it (R149, R413, R435). -/
  peers : List (BitVec 16)
  peerKeys : Sparse (BitVec 64)
  /-- The SPDM session bound to it. -/
  session : Option Nat
  /-- The copy of its key slot that is wrapped under SLEEPKEY in retention SRAM (R418). -/
  wrapped : Option KeySlot
  deriving DecidableEq, Repr

/-- A sparse-update unit (R326). -/
structure SupdUnit where
  /-- Entries of the window in order of arrival. -/
  window : List Update
  /-- Requests that have reached the unit and wait for an entry, in order of arrival. -/
  waiting : List Update
  /-- Requests on their way over the memory network, which promises no order, in the order in which they were sent (R18). -/
  coming : List Update
  deriving DecidableEq, Repr

/-- The states of a journal transaction (R348, R349). -/
inductive TxState where
  | proposed | pending | applying | trial | confirmed | reverted | refused
  deriving DecidableEq, Repr

/-- An entry of a journal image (R348): key, FN or policy word index, and the values before and after. -/
structure ImageEntry where
  key : BitVec 32
  fn : BitVec 16
  before : BitVec 32
  after : BitVec 32
  deriving DecidableEq, Repr

/-- A journal record with its images (R348). -/
structure TxRecord where
  num : Nat
  kind : BitVec 4
  state : TxState
  reason : BitVec 4
  origin : BitVec 3
  /-- PART and RECT, bits 39:0 of offset 0x08. -/
  scope : BitVec 40
  /-- Parents, the nearest first. -/
  parents : List Nat
  ovf : Bool
  img : Bool
  /-- Offsets in journal memory of the before-image and the after-image (log entry 51). -/
  bimg : BitVec 55
  aimg : BitVec 55
  entries : List ImageEntry
  /-- PBEF, PAFT and TRIAL. -/
  pbef : Nat
  paft : Nat
  trial : Nat
  odev : BitVec 16
  onum : BitVec 48
  digest : BitVec 32
  aidx : BitVec 16
  /-- The members of the closure that a REVERT undoes, the transaction that was named first, and whether it reverts for want of
  progress. -/
  members : List Nat
  auto : Bool
  /-- What it depends on besides its parents: for a REVERT the transactions whose keys overlapped as it entered APPLYING (R356), for a loaded
  record those that begin its load (R362). -/
  deps : List Nat
  /-- The cores that run no launch and have taken it ahead of its drain (R351). -/
  taken : List Nat
  /-- The owning context. -/
  tag : BitVec 6
  /-- How many windows it has stood in APPLYING (R353). -/
  age : Nat
  /-- Units and complete windows of its trial so far (R354). -/
  units : Nat
  windows : Nat
  /-- How many windows before application PBEF averages. -/
  before : Nat
  /-- The first window of the lead core that counts: one that began after the entry into APPLYING, or into the trial (R353, R354). -/
  window : Nat
  /-- What the units of the scope's cores exceed those retired since application by (R355). -/
  unitsAt : Int
  /-- Whether a launch in deterministic mode has run on the scope since application (R355). -/
  det : Bool
  /-- Whether its trial is over and fell short, and it awaits the REVERT that undoes it (R354). -/
  isOver : Bool
  /-- Whether a launch has completed in one of the partitions between which the service-target controller moves a core (R387). -/
  completed : Bool
  /-- Whether it takes a core whose fault is lasting out of its partition (R441). -/
  retires : Bool
  deriving DecidableEq, Repr

/-- A pin (R358). -/
structure Pin where
  scope : BitVec 40
  version : Nat
  tag : BitVec 6
  deriving DecidableEq, Repr

/-- A load or write-out of the journal that runs in the background (R362, R370, R371). -/
structure JournalJob where
  load : Bool
  tag : BitVec 6
  /-- The core that asked; none for a host packet. -/
  core : Option Nat
  /-- Scope or target rectangle. -/
  scope : BitVec 40
  fromNum : Nat
  toNum : Nat
  sign : Bool
  va : Word
  size : Nat
  status : Word
  key : Word
  /-- The local transaction of the record being loaded, and the records applied. -/
  txn : Option Nat
  applied : Nat
  started : Bool
  /-- The transactions that begin the load: LOADED, and the first record (R362). -/
  begun : List Nat
  /-- The segment's bytes, fixed at acceptance of a write-out. -/
  bytes : List Byte
  deriving DecidableEq, Repr

/-- What a JRN instruction that waits for its reply asked for (R364). -/
structure JournalCall where
  core : Nat
  id : Nat
  d : SReg
  reply : Word
  deriving DecidableEq, Repr

/-- The windows of a core as a lead core (R344, R354): how many have ended, and the units that every core had retired when each of the
last five ended, the latest first. -/
structure LeadWindows where
  index : Nat
  snaps : List (Sparse Nat)
  deriving DecidableEq, Repr

/-- Windows in a row in which a partition fell below, and exceeded, its service target (R387). -/
structure Service where
  below : Nat
  above : Nat
  deriving DecidableEq, Repr

/-- The journal engine (R344). -/
structure Journal where
  nextNum : Nat
  oldest : Nat
  records : List TxRecord
  /-- BASE: the after-images of folded records with the number of each record, in ascending number. -/
  base : List (Nat × ImageEntry)
  pins : Sparse Pin
  jobs : List JournalJob
  calls : List JournalCall
  /-- Policy words: key partition × 65,536 + policy id. -/
  policy : Sparse (BitVec 32)
  trialMin : BitVec 16
  windows : Sparse LeadWindows
  service : Sparse Service
  /-- Whether a launch has ended or a transaction has been refused, so that the engine looks again for what is due (R351, R354). -/
  unsettled : Bool
  deriving DecidableEq, Repr

/-- A region whose drain has resolved and whose resolution is held for a transaction of several regions (R351). -/
structure RegionDrain where
  /-- The lead core. -/
  lead : Nat
  stray : Bool
  deriving DecidableEq, Repr

/-- The fields of a queue control block that a slot caches (R374, R376). -/
structure Qcb where
  base : Word
  sz : Nat
  prio : Nat
  shift : Nat
  state : BitVec 2
  err : BitVec 8
  widx : Word
  ridx : Word
  age : Nat
  deriving DecidableEq, Repr

/-- A registered user queue (R374); `gone` once its context has ended (R386). -/
structure UserQueue where
  tag : BitVec 6
  qcb : Word
  gone : Bool
  deriving DecidableEq, Repr

/-- A change of a qword of a queue control block that waits for updates of its words that arrived before (R330, R376): the bits of a mask become
`bits`; and the error that the host is then told (R375). -/
structure QcbWrite where
  queue : UserQueue
  off : Nat
  mask : Word
  bits : Word
  report : Option (Nat × BitVec 8)
  deriving DecidableEq, Repr

/-- A hardware queue slot with a mapped queue (R376). -/
structure QueueSlot where
  qid : Nat
  tag : BitVec 6
  q : Qcb
  /-- The head packet is granted and to be processed (R377). -/
  granted : Bool
  /-- The eight qwords of the head packet, once it has been read. -/
  head : Option (List Word)
  /-- A WAIT at the head was satisfied when its word was last read (R380). -/
  satisfied : Bool
  /-- An unmap waits for the granted packet (R376). -/
  unmapping : Bool
  deriving DecidableEq, Repr

/-- A launch packet in the dispatcher's input, or placed (R382, R383). -/
structure Launch where
  id : Nat
  tag : BitVec 6
  part : BitVec 5
  kidx : Nat
  cols : Nat
  rows : Nat
  code : Word
  args : Word
  signal : Word
  sop : Bool
  value : Word
  /-- The queue it came from, or the core and packet address of a LAUNCH. -/
  qid : Option Nat
  core : Nat
  packet : Word
  ridx : Word
  /-- Origin, once placed. -/
  ox : Nat
  oy : Nat
  header : Word
  det : Bool
  bound : Nat
  /-- The live-range table. -/
  live : List (BitVec 64)
  /-- The pool table of the header: sixteen qwords, or none (R385). -/
  poolTable : List Word
  /-- Placed on a region; ended without completion. -/
  placed : Bool
  /-- Pre-emption: PENDING, and the cycle of the lead core's clock at the request; stopped when the bound has passed; saved, with the
  source cores stopped for a handover (R389, R393, R397). -/
  pending : Bool
  asked : Word
  stopped : Bool
  saved : Bool
  /-- The id of the checkpoint at whose point the region stands: nothing in it fires, and it is saved (R390). -/
  point : Option (BitVec 8)
  /-- Cores whose sequencer is held after its CKPT, and cores whose streams toward FABRIC and POOL issue no beat (R389). -/
  heldCores : List Nat
  pausedCores : List Nat
  deriving DecidableEq, Repr

/-- The records of a saved launch: one for each core, in ascending place, its 64-byte header and its parts, which are the core's state
(their layout in memory is not architectural) (R394; log entry 30). -/
structure SavedLaunch where
  launch : Launch
  headers : List (BitVec 512)
  cores : List (Nat × Core)
  /-- Drain packets between the cores of the region, and their reads that wait at banks of other cores. -/
  traffic : List Packet
  deriving DecidableEq, Repr

/-- The save area of a context: the records of its saved launches; where in stack memory it stands the spec does not give (R394; log entry
30). -/
structure SaveArea where
  tag : BitVec 6
  saved : List SavedLaunch
  /-- Sealed under a transfer key, the source cores still stopped (R397). -/
  sealed_ : Bool
  deriving DecidableEq, Repr

/-- A message from a host or remote device that has reached a port (R434). -/
structure Message where
  qword0 : Word
  qword1 : Word
  payload : List Byte
  /-- The GCM tag after a sealed payload (R435). -/
  gcm : BitVec 128
  /-- The connection over which it comes, by its number (R433). -/
  conn : Nat
  /-- For replies and acknowledgments: the core, engine and beat they answer. -/
  core : Nat
  engine : Nat
  beat : Nat
  /-- The SPDM session in which it came, if it came in one (R421). -/
  session : Option Nat
  /-- The device that sent it; none for the host. -/
  device : Option (BitVec 16)
  deriving DecidableEq, Repr

/-- A message the device sends: an event, a reply, an acknowledgment or a request to a remote device (R434, R437). -/
structure Outgoing where
  qword0 : Word
  qword1 : Word
  payload : List Byte
  device : BitVec 16
  /-- Held for the tag checks of a protected context (R415). -/
  tag : BitVec 6
  waits : List Nat
  /-- The GCM tag of a sealed message (R435). -/
  gcm : BitVec 128
  /-- The sequence numbers of a remote write of a deterministic launch (R428). -/
  seq : Option SeqNums
  deriving DecidableEq, Repr

/-- A tag check of a base die that has not resolved (R414, R415). -/
structure TagCheck where
  id : Nat
  tag : BitVec 6
  stack : BitVec 3
  off : Nat
  deriving DecidableEq, Repr

/-- An SPDM session (R421). -/
structure Session where
  /-- The device at the other end; none for the host (R413, R421). -/
  device : Option (BitVec 16)
  /-- KEY_EXCHANGE done, FINISH done. -/
  finished : Bool
  /-- The context's tag it is bound to. -/
  tag : Option (BitVec 6)
  /-- Messages in each direction, the nonce count of R435. -/
  count : BitVec 64
  keyGen : Nat
  wrapped : Bool
  deriving DecidableEq, Repr

/-- The management side of the security core's SPDM responder: what has been negotiated, and the last response (R421). -/
structure Spdm where
  version : Bool
  caps : Bool
  algorithms : Bool
  sessions : Sparse Session
  response : List Byte
  deriving DecidableEq, Repr

/-- The move of a pool bank for a PART transaction (R274): the KT 1 value it takes, and whether step 3 has completed. -/
structure PartMove where
  txn : Nat
  core : Nat
  bank : Nat
  dest : BitVec 32
  done : Bool
  deriving DecidableEq, Repr

/-- The power and clock states of the device (R442, R444). -/
inductive Power where
  | boot
  | on
  | midnight
  | frozen
  | off
  deriving DecidableEq, Repr

/-- What a turn runs. -/
inductive Act where
  /-- The sequencer of the core. -/
  | seq
  /-- An element of the core. -/
  | elem
  /-- An event row of the opcode table. -/
  | event (i : Instr)
  deriving DecidableEq, Repr

/-- One turn of the schedule: which agent moves, and what it chooses (log entry 1). -/
structure Turn where
  core : Nat
  /-- The element, engine, bank, set, slot, stack or tag that an event concerns. -/
  unit : Nat
  /-- Which item of a list it concerns, or a number an outside agent supplies. -/
  n : Nat
  m : Nat
  flag : Bool
  act : Act
  deriving DecidableEq, Repr

/-- The machine. -/
structure State where
  variant : Variant
  /-- Device memory: bytes at stack-linear physical addresses, an unlisted byte 0x00 (R315; log entry 4). -/
  mem : List Host.Cell
  cores : Sparse Core
  ctxs : Sparse Context
  /-- Tokens, packets and counts on their way. -/
  flights : List Flight
  net : List Packet
  credits : List Credit
  /-- Second-level TLBs, one a compute die (R322). -/
  tlb2 : Vector (List TlbEntry) 2
  supd : Vector SupdUnit 8
  chains : List Chain
  journal : Journal
  regions : List RegionDrain
  moves : List PartMove
  /-- User queues by id, slots by number, pending bits, and the count of dropped kicks (R374, R376). -/
  queues : Sparse UserQueue
  slots : Sparse QueueSlot
  kicked : List Nat
  droppedKicks : Nat
  qcbWrites : List QcbWrite
  /-- The dispatcher's input, and placed launches (R382, R383). -/
  input : List Launch
  launches : List Launch
  nextLaunch : Nat
  saves : List SaveArea
  /-- CTAG, BTAG (key core × 16 + bank), RESERVE marks, PERMIT and the partition of a core (R401, R347). -/
  ctag : Sparse (BitVec 6)
  btag : Sparse (BitVec 6)
  reserve : Sparse Bool
  permit : Sparse (BitVec 8)
  corePart : Sparse (BitVec 5)
  /-- The partition of a bank (key core × 16 + bank) that a PART transaction has given to another than its core's (R347). -/
  bankPart : Sparse (BitVec 5)
  /-- Cores that no partition holds since a retirement cut them off (R441); retired cores, and cores whose fault is lasting (R440). -/
  unowned : List Nat
  retired : List Nat
  lasting : List Nat
  /-- POT: owner tag and FAILED of each 64 KiB page (R401). -/
  pot : Sparse (BitVec 7)
  /-- MR0–MR15. -/
  mr : Vector (BitVec 512) 16
  sleepKey : BitVec 256
  /-- Values drawn from the random source so far. -/
  draws : Nat
  checks : List TagCheck
  nextCheck : Nat
  spdm : Spdm
  inbox : List Message
  outbox : List Outgoing
  /-- Connections accepted, by their delivery mode: true for ordered (R433). -/
  connections : List Bool
  /-- Corrected soft errors a unit in the window, the units whose count has reached HTHR in it, and HTHR (R440). -/
  softErrors : Sparse Nat
  softLimits : List Nat
  hthr : BitVec 8
  power : Power
  ready : Bool
  /-- Cores in Dusk, and cores with a lowered clock (R443, R444). -/
  dusk : List Nat
  slow : List Nat
  /-- Cycles of the management core's clock (R437). -/
  mcycle : Word
  /-- The path tables of the memory network, by core (R18, R345). -/
  paths : Sparse (BitVec 32)
  /-- The model's own: the schedule, the turn that runs, and the count of steps (log entry 1). -/
  agenda : List Turn
  cur : Turn
  tick : Nat
  deriving DecidableEq, Repr

/-- Why a step can stop with a fault. -/
inductive Fault where
  /-- Raised by `step` on a device that a limit has shut down (R443): only a device reset goes on. Safe: the spec gives the device no
  further step. -/
  | deviceOff
  deriving DecidableEq, Repr

/-- Why an instruction has no meaning here. -/
inductive Refusal where
  /-- Raised by an arm of `exec` whose instruction has no meaning yet. Safe: nothing is claimed of it. -/
  | notModelled (mnemonic : String)
  deriving DecidableEq, Repr

/-- The loop registers at reset (R70). -/
def Loops.reset : Loops :=
  { lc := Vector.replicate 4 0, ls := Vector.replicate 4 0, le := Vector.replicate 4 0,
    pls := Vector.replicate 4 none, ple := Vector.replicate 4 none, active := [] }

/-- A port with every slot FREE (R167). -/
def Port.reset : Port := { toks := [], pend := 0, back := 0, closed := false }

/-- OPST cleared (R167). -/
def Opst.reset : Opst :=
  { loop := false, held := none, cnt := 0, idx := 0, lanes := 0, any := false, hand := none, fmt := none, sector := 0,
    fill := false, row := 0, eb := 0, taint := false, req := none }

/-- An element at reset (R167, R247, R250, R443; log entry 2 for ECNT). -/
def Elem.reset : Elem :=
  { w0 := 0, w1 := 0, a0 := 0, a1 := 0, fstat := 0, phase0 := 0, phase1 := 0, opst := Opst.reset, rnd := 0, passed := false,
    halted := false, ports := Vector.replicate 4 Port.reset, ws0 := .empty, ws1 := .empty, ldp := false, usp := false, wrow := 0,
    wfwd := 0, bs0 := .free, bs1 := .free, bp := false, dr := 0, accs := 0, at0 := false, at1 := false, pending := [], drains := [],
    flushing := false, psums := [], prq := [], sentDrain := false, stray := none, owed := Vector.replicate 4 [], ckpt := none, blocked := none,
    blockedLoad := none, blockedDrain := none, tile := 0,
    ecnt := Vector.replicate 4 0 }

/-- A tile slot at reset (R262). -/
def Slot.reset : Slot := { state := 0, n := 0, count := 0, sfmt := 0, pres := [], owner := 0, byElem := false }

/-- A pool at reset (R262). -/
def Pool.reset : Pool := { slots := [], rsv := [], pfnc := false, abflt := 0, frec := 0, queue := [] }

/-- A bank at reset (R262). -/
def Bank.reset : Bank := { queue := [], parked := [], bfnc := false, zeroising := false, bconf := 0 }

/-- A stream engine at reset (R141). -/
def Engine.reset : Engine :=
  { state := 0, result := 4, fcode := 0, faddr := 0, beats := 0, pos := Vector.replicate 4 0, job := none,
    di := Vector.replicate 2 Port.reset, drainAsked := false, drainSent := false }

/-- The configuration engine at reset (R127, R167). -/
def ConfigEngine.reset : ConfigEngine :=
  { active := [], shadow := [], idx := 0, shadowIdx := 0, dests := [], shadowDests := [], writers := [], bad := [], loads := [],
    incomplete := false, loaded := false, sealing := false, isSealed := false, armed := false, overlaid := false, latched := none, result := none, draining := false,
    noticed := false, drained := false, abandoned := false, reported := false, strays := [], drains := 0, failed := false,
    begun := false, returned := [], barred := [] }

/-- A statistics window with no counts (R294). -/
def Window.reset : Window := { ins := Vector.replicate 8 0, passes := Vector.replicate 8 0 }

/-- A stage set at reset (R287). -/
def StageSet.reset : StageSet :=
  { rtq := [], lmode := 0, next := 0, o := 0, wins := Vector.replicate 2 Window.reset, p1 := Vector.replicate 8 128,
    p2 := Vector.replicate 8 128, gone := [], seed := 0, sbase := 0, seq0 := 0, cur := 0, admissions := 0, exits := 0, drops := 0,
    drainSent := false }

/-- The router at reset (R287). -/
def Router.reset : Router :=
  { entries := [], sets := Vector.replicate 8 StageSet.reset, owns := Vector.replicate 8 0, stamp := 0, turn := 0, log := 0, logBase := 0, logSize := 0,
    logCur := 0, logDone := 0, drawn := none, logNext := none, held := false, stores := [],
    stopped := false, inTrap := false, trapLost := false, det := false }

/-- A barrier at reset (R82). -/
def Barrier.reset : Barrier := { n := 0, a := 0, p := 0 }

/-- A handle at the creation of its context (R82). -/
def Handle.reset : Handle := { valid := false, scope := 0, core := 0, bar := 0, n := 0 }

/-- A core at device reset (R70, R71, R77, R78, R134, R141, R142, R167, R262, R287; log entry 2 for the pc, the event flag and the
scratch, whose reset values the spec does not state). -/
def Core.reset : Core :=
  { regs := Vector.replicate 32 0, preds := Vector.replicate 8 false, loops := Loops.reset, pc := 0, tvec := 0, epc := 0, tcause := 0,
    tval := 0, ovf := false, tin := false, plvl := false, lvl := true, faults := [], regionOrg := 0, regionExt := 0, ctxTag := 0,
    ctxPart := 0, cycle := 0, seedLo := 0, seedHi := 0, org := Vector.replicate 4 0, cntSel := 0, cntEvent := Vector.replicate 16 0,
    cntEn := Vector.replicate 16 false, cnt := Vector.replicate 16 0, event := false, accesses := [], nextId := 0, awaited := [],
    wait := .none, run := .idle, endAsked := false, scratch := [], icache := [], prefetch := [], tlb := [], bars := [], shapes := [],
    engines := Vector.replicate 8 Engine.reset, elems := [], cfg := ConfigEngine.reset, permits := Vector.replicate 8 0,
    takePort := Port.reset, pools := Vector.replicate 16 Pool.reset, banks := Vector.replicate 16 Bank.reset, sram := [],
    sramTaint := [], router := Router.reset, waits := [], told := [], units := 0 }

/-- What a FREE owner tag holds (R401, R384; log entry 2 for the table root). -/
def Context.reset : Context :=
  { state := .free, prot := false, part := 0, slot := none, draw := 0, cmr := 0, objects := [], handles := [], root := 0, seeds := [],
    subs := [], peers := [], peerKeys := [], session := none, wrapped := none }

/-- The journal engine at reset (R344). -/
def Journal.reset : Journal :=
  { nextNum := 1, oldest := 1, records := [], base := [], pins := [], jobs := [], calls := [], policy := [], trialMin := 4,
    windows := [], service := [], unsettled := false }

/-- A turn of nothing: core 0's sequencer. -/
def Turn.reset : Turn := { core := 0, unit := 0, n := 0, m := 0, flag := false, act := .seq }

/-- The machine right after device reset, before the boot chain has run (R70–R71, R141–R142, R167, R262, R287, R344, R401, R445).
The variant is a Y7's, and SLEEPKEY is drawn at boot (log entries 2, 5 and 9). -/
def State.reset : State :=
  { variant := .y7, mem := [], cores := [], ctxs := [], flights := [], net := [], credits := [], tlb2 := Vector.replicate 2 [],
    supd := Vector.replicate 8 { window := [], waiting := [], coming := [] }, chains := [], journal := Journal.reset, regions := [], moves := [], queues := [],
    slots := [], kicked := [], droppedKicks := 0, qcbWrites := [], input := [], launches := [], nextLaunch := 0, saves := [], ctag := [], btag := [],
    reserve := [], permit := [], corePart := [], bankPart := [], unowned := [], retired := [], lasting := [], pot := [],
    mr := Vector.replicate 16 0, sleepKey := 0, draws := 0, checks := [], nextCheck := 0,
    spdm := { version := false, caps := false, algorithms := false, sessions := [], response := [] }, inbox := [], outbox := [],
    connections := [], softErrors := [], softLimits := [], hthr := 16, power := .boot, ready := false, dusk := [], slow := [],
    mcycle := 0, paths := [], agenda := [], cur := Turn.reset, tick := 0 }

end Sys2Proof.Machine
end

