-- ==== Sys2Proof/Config.lean ====
section
/-! DEFINITION. What the spec leaves open as a value: constants with no body, so that nothing proved rests on what they are.
A statement about them holds for every value. -/

namespace Sys2Proof.Config

/-- The turn that comes next when the schedule of State names none: which agent moves is not fixed by the spec, so any may, or none
(log entry 1); the argument is the number of the step. -/
opaque scheduled : Nat → Option Machine.Turn

/-- The cycles beyond one that a core's clock advances in the step of a tick; cycle counts are not modelled (log entry 8). -/
opaque extraCycles : Nat → Nat

/-- A value that the spec does not state, such as the TVAL of a PRIV_OP of ERET, HALT and BAR.MAP (log entry 14); the argument tells what it
belongs to (a pc, an element, a log position, a key) and never the number of the step, so that two runs of a deterministic launch meet the same
values (R426). -/
opaque unstated : Nat → BitVec 64

/-- Index ik in POS once every beat of a stream's walk has been performed (R141 gives the indices of the next beat not yet performed, and
there is none), by the shape and k (log entry 14). -/
opaque pastWalk : Machine.Shape → Nat → BitVec 32

/-- A random 64-bit value drawn by the security core (R404); the argument is the number of the draw (log entry 5). -/
opaque drawn64 : Nat → BitVec 64

/-- A random 256-bit key drawn by the security core (R401, R404, R418); the argument is the number of the draw (log entry 5). -/
opaque drawn256 : Nat → BitVec 256

/-- The result of a signature, key agreement or authenticated encryption: 512 bits that depend on which computation it is and on
its input, whose algorithm outside the part's own description the model does not compute (log entry 5). -/
opaque cryptoResult : Nat → Nat → BitVec 512

/-- What a byte of scratch holds after the state of a core has been lost in Midnight (R444), by the number of the step, the core and the
address (log entry 14). -/
opaque lostByte : Nat → Nat → Nat → BitVec 8

/-- The 64 bytes that a stage of the boot chain is measured as (R420, R422), by five times the number of the step plus the stage, so
that an uploaded firmware is measured as itself; firmware images are not modelled (log entry 5). -/
opaque bootMeasure : Nat → BitVec 512

/-- The cycles that the management core's clock advances in the step of a tick (R380, R437; log entry 8). -/
opaque managementCycles : Nat → Nat

/-- The direction (0 north, 1 east, 2 south, 3 west) in which a node of the memory network passes on a packet for a core once a ROUTE
transaction has changed its path table: the spec gives a table's 32 bits no layout (R18, R345; log entry 26). -/
opaque pathDirection : BitVec 32 → Nat → Nat

/-- The length in bytes of a save record, which follows from a layout that the spec does not give (R394; log entry 30). -/
opaque saveRecordLength : Nat → BitVec 64

/-- Where in journal memory an image stands (R348; log entry 51). -/
opaque imageOffset : Nat → BitVec 55

/-- The number by which other devices name this one (R348, R360); the spec gives no value (log entry 14). -/
opaque deviceNumber : BitVec 16

end Sys2Proof.Config
end

