-- ==== Sys2Proof/Decode.lean ====
section
/-! DEFINITION. The decoder, total on any words and bytes, and the encoder, both from the word layouts of R87–R97, R102–R137
and R189–R190. -/

namespace Sys2Proof

/-- The `n` bits of a word that start at bit `lo` (R4). -/
abbrev bits (w : Insn) (lo n : Nat) : BitVec n := w.extractLsb' lo n

/-- A reading that stands only when every reserved field named is zero (R90). -/
def whenZero (reserved : Nat) (i : Instr) : Option Instr :=
  if reserved = 0 then some i else none

/-- Major 0x00 (R92, R102). -/
def decodeInteger (w : Insn) : Option Instr :=
  match (bits w 0 11).toNat with
  | 0x0 => some (.add (bits w 21 5) (bits w 16 5) (bits w 11 5))
  | 0x1 => some (.sub (bits w 21 5) (bits w 16 5) (bits w 11 5))
  | 0x2 => some (.mul (bits w 21 5) (bits w 16 5) (bits w 11 5))
  | 0x3 => some (.mulh (bits w 21 5) (bits w 16 5) (bits w 11 5))
  | 0x4 => some (.mulhn (bits w 21 5) (bits w 16 5) (bits w 11 5))
  | 0x5 => some (.div (bits w 21 5) (bits w 16 5) (bits w 11 5))
  | 0x6 => some (.divn (bits w 21 5) (bits w 16 5) (bits w 11 5))
  | 0x7 => some (.rem (bits w 21 5) (bits w 16 5) (bits w 11 5))
  | 0x8 => some (.remn (bits w 21 5) (bits w 16 5) (bits w 11 5))
  | 0x9 => some (.and (bits w 21 5) (bits w 16 5) (bits w 11 5))
  | 0xA => some (.or (bits w 21 5) (bits w 16 5) (bits w 11 5))
  | 0xB => some (.xor (bits w 21 5) (bits w 16 5) (bits w 11 5))
  | 0xC => some (.shl (bits w 21 5) (bits w 16 5) (bits w 11 5))
  | 0xD => some (.shr (bits w 21 5) (bits w 16 5) (bits w 11 5))
  | 0xE => some (.sha (bits w 21 5) (bits w 16 5) (bits w 11 5))
  | 0xF => some (.min (bits w 21 5) (bits w 16 5) (bits w 11 5))
  | 0x10 => some (.max (bits w 21 5) (bits w 16 5) (bits w 11 5))
  | 0x11 => some (.minn (bits w 21 5) (bits w 16 5) (bits w 11 5))
  | 0x12 => some (.maxn (bits w 21 5) (bits w 16 5) (bits w 11 5))
  | 0x13 => whenZero ((bits w 11 5).toNat) (.clz (bits w 21 5) (bits w 16 5))
  | 0x14 => whenZero ((bits w 11 5).toNat) (.popc (bits w 21 5) (bits w 16 5))
  | 0x18 | 0x19 | 0x1A | 0x1B | 0x1C | 0x1D | 0x1E | 0x1F => some (.sel (bits w 21 5) (bits w 16 5) (bits w 11 5) (bits w 0 3))
  | _ => none

/-- Major 0x13 (R93, R105). -/
def decodePredicate (w : Insn) : Option Instr :=
  match (bits w 0 11).toNat with
  | 0x0 => whenZero ((bits w 14 2).toNat + (bits w 19 2).toNat + (bits w 24 2).toNat) (.pand (bits w 21 3) (bits w 16 3) (bits w 11 3))
  | 0x1 => whenZero ((bits w 14 2).toNat + (bits w 19 2).toNat + (bits w 24 2).toNat) (.por (bits w 21 3) (bits w 16 3) (bits w 11 3))
  | 0x2 => whenZero ((bits w 11 5).toNat + (bits w 19 2).toNat + (bits w 24 2).toNat) (.pnot (bits w 21 3) (bits w 16 3))
  | _ => none

/-- Major 0x14 (R94, R106). -/
def decodeLoad (w : Insn) : Option Instr :=
  match (bits w 15 1).toNat with
  | 0x0 => some (.ld (bits w 21 5) (bits w 16 5) (bits w 13 2) (bits w 0 13))
  | 0x1 => if (bits w 13 2).toNat < 3 then some (.ldn (bits w 21 5) (bits w 16 5) (bits w 13 2) (bits w 0 13)) else none
  | _ => none

/-- Major 0x15 (R94). -/
def decodeStore (w : Insn) : Option Instr :=
  match (bits w 15 1).toNat with
  | 0x0 => some (.st (bits w 21 5) (bits w 16 5) (bits w 13 2) (bits w 0 13))
  | _ => none

/-- Major 0x16 (R94, R109). -/
def decodeScratch (w : Insn) : Option Instr :=
  match (bits w 15 1).toNat with
  | 0x0 => some (.ldl (bits w 21 5) (bits w 16 5) (bits w 13 2) (bits w 0 13))
  | 0x1 => some (.stl (bits w 21 5) (bits w 16 5) (bits w 13 2) (bits w 0 13))
  | _ => none

/-- Major 0x17 (R94, R110). -/
def decodeAmo (w : Insn) : Option Instr :=
  match (bits w 7 4).toNat with
  | 0x0 => whenZero ((bits w 0 6).toNat) (.amoAdd (bits w 21 5) (bits w 16 5) (bits w 11 5) (bits w 6 1))
  | 0x1 => whenZero ((bits w 0 7).toNat) (.amoFadd (bits w 21 5) (bits w 16 5) (bits w 11 5))
  | 0x2 => whenZero ((bits w 0 7).toNat) (.amoBadd (bits w 21 5) (bits w 16 5) (bits w 11 5))
  | 0x3 => whenZero ((bits w 0 6).toNat) (.amoMin (bits w 21 5) (bits w 16 5) (bits w 11 5) (bits w 6 1))
  | 0x4 => whenZero ((bits w 0 6).toNat) (.amoMax (bits w 21 5) (bits w 16 5) (bits w 11 5) (bits w 6 1))
  | 0x5 => whenZero ((bits w 0 6).toNat) (.amoMinn (bits w 21 5) (bits w 16 5) (bits w 11 5) (bits w 6 1))
  | 0x6 => whenZero ((bits w 0 6).toNat) (.amoMaxn (bits w 21 5) (bits w 16 5) (bits w 11 5) (bits w 6 1))
  | 0x7 => whenZero ((bits w 0 6).toNat) (.amoAnd (bits w 21 5) (bits w 16 5) (bits w 11 5) (bits w 6 1))
  | 0x8 => whenZero ((bits w 0 6).toNat) (.amoOr (bits w 21 5) (bits w 16 5) (bits w 11 5) (bits w 6 1))
  | 0x9 => whenZero ((bits w 0 6).toNat) (.amoXor (bits w 21 5) (bits w 16 5) (bits w 11 5) (bits w 6 1))
  | 0xA => whenZero ((bits w 0 6).toNat) (.amoSwap (bits w 21 5) (bits w 16 5) (bits w 11 5) (bits w 6 1))
  | 0xB => whenZero ((bits w 0 6).toNat) (.amoCas (bits w 21 5) (bits w 16 5) (bits w 11 5) (bits w 6 1))
  | 0xC => whenZero ((bits w 0 6).toNat) (.amoIncw (bits w 21 5) (bits w 16 5) (bits w 11 5) (bits w 6 1))
  | _ => none

/-- Major 0x1A (R95, R112). -/
def decodeJump (w : Insn) : Option Instr :=
  match (bits w 0 11).toNat with
  | 0x0 => whenZero ((bits w 11 5).toNat + (bits w 21 5).toNat) (.br (bits w 16 5))
  | 0x1 => whenZero ((bits w 11 5).toNat) (.jr (bits w 21 5) (bits w 16 5))
  | _ => none

/-- Major 0x1B (R88, R95, R113). -/
def decodeLoop (w : Insn) : Option Instr :=
  match (bits w 23 1).toNat with
  | 0x0 => some (.loopImm (bits w 24 2) (bits w 12 11) (bits w 0 12))
  | 0x1 => whenZero ((bits w 17 6).toNat) (.loopReg (bits w 24 2) (bits w 12 5) (bits w 0 12))
  | _ => none

/-- Major 0x1C (R88, R95, R113). -/
def decodeLoops (w : Insn) : Option Instr :=
  match (bits w 23 1).toNat with
  | 0x0 => some (.loopsImm (bits w 24 2) (bits w 12 11) (bits w 0 12))
  | 0x1 => whenZero ((bits w 17 6).toNat) (.loopsReg (bits w 24 2) (bits w 12 5) (bits w 0 12))
  | _ => none

/-- Major 0x39 (R97, R132). -/
def decodeCsr (w : Insn) : Option Instr :=
  match (bits w 12 4).toNat with
  | 0x0 => whenZero ((bits w 16 5).toNat) (.csrr (bits w 21 5) (bits w 0 12))
  | 0x1 => whenZero ((bits w 21 5).toNat) (.csrw (bits w 16 5) (bits w 0 12))
  | 0x2 => whenZero ((bits w 21 5).toNat) (.csrs (bits w 16 5) (bits w 0 12))
  | _ => none

/-- Major 0x3A (R97, R133–R136). -/
def decodeSystem (w : Insn) : Option Instr :=
  match (bits w 0 11).toNat with
  | 0x4 => whenZero ((bits w 11 5).toNat + (bits w 21 5).toNat) (.evt (bits w 16 5))
  | 0x5 => whenZero ((bits w 11 10).toNat) (.seedGet (bits w 21 5))
  | 0x10 | 0x11 | 0x12 | 0x13 => whenZero ((bits w 11 15).toNat) (.fenceAcq (bits w 0 2))
  | 0x14 | 0x15 | 0x16 | 0x17 => whenZero ((bits w 11 15).toNat) (.fenceRel (bits w 0 2))
  | 0x0 => whenZero ((bits w 11 15).toNat) (.eret)
  | 0x1 => whenZero ((bits w 11 15).toNat) (.wfe)
  | 0x2 => whenZero ((bits w 11 15).toNat) (.halt)
  | 0x3 => whenZero ((bits w 11 15).toNat) (.nop)
  | _ => none

/-- Major 0x20 (R96, R116). -/
def decodeBarrier (w : Insn) : Option Instr :=
  match (bits w 0 3).toNat with
  | 0x0 => whenZero ((bits w 6 10).toNat) (.barArv (bits w 21 5) (bits w 16 5) (bits w 3 3))
  | 0x1 => whenZero ((bits w 6 5).toNat) (.barWt (bits w 21 5) (bits w 16 5) (bits w 11 5) (bits w 3 3))
  | 0x2 => whenZero ((bits w 6 10).toNat) (.barSyn (bits w 21 5) (bits w 16 5) (bits w 3 3))
  | 0x3 => whenZero ((bits w 6 10).toNat) (.barPhs (bits w 21 5) (bits w 16 5) (bits w 3 3))
  | 0x4 => whenZero ((bits w 6 5).toNat) (.barMap (bits w 21 5) (bits w 16 5) (bits w 11 5) (bits w 3 3))
  | _ => none

/-- Major 0x24 (R96, R120). -/
def decodeConfig (w : Insn) : Option Instr :=
  match (bits w 0 3).toNat with
  | 0x0 => some (.cfgLd (bits w 21 5) (bits w 16 5) (bits w 11 5) (bits w 6 5) (bits w 3 3))
  | 0x1 => whenZero ((bits w 6 15).toNat) (.cfgSwp (bits w 21 5) (bits w 3 3))
  | 0x2 => whenZero ((bits w 6 15).toNat) (.cfgDrn (bits w 21 5) (bits w 3 3))
  | 0x3 => whenZero ((bits w 6 15).toNat) (.cfgWt (bits w 21 5) (bits w 3 3))
  | 0x4 => some (.cfgSel (bits w 21 5) (bits w 16 5) (bits w 11 5) (bits w 6 5) (bits w 3 3))
  | 0x5 => whenZero ((bits w 6 10).toNat) (.cfgQry (bits w 21 5) (bits w 16 5) (bits w 3 3))
  | _ => none

/-- Major 0x25 (R96, R128). -/
def decodeToken (w : Insn) : Option Instr :=
  match (bits w 0 3).toNat with
  | 0x0 => some (.tokInj (bits w 21 5) (bits w 16 5) (bits w 11 5) (bits w 6 5) (bits w 3 3))
  | 0x1 => whenZero ((bits w 6 10).toNat) (.tokTake (bits w 21 5) (bits w 16 5) (bits w 3 3))
  | 0x2 => whenZero ((bits w 6 5).toNat) (.tokMark (bits w 21 5) (bits w 16 5) (bits w 11 5) (bits w 3 3))
  | _ => none

/-- Major 0x28 (R96, R143–R156). -/
def decodeStreamIssue (w : Insn) : Option Instr :=
  match (bits w 0 3).toNat with
  | 0x0 => whenZero ((bits w 6 5).toNat) (.shpMk (bits w 21 5) (bits w 16 5) (bits w 11 5) (bits w 3 3))
  | 0x1 => some (.strmLd (bits w 21 5) (bits w 16 5) (bits w 11 5) (bits w 6 5) (bits w 3 3))
  | 0x2 => some (.strmSv (bits w 21 5) (bits w 16 5) (bits w 11 5) (bits w 6 5) (bits w 3 3))
  | 0x3 => some (.strmCp (bits w 21 5) (bits w 16 5) (bits w 11 5) (bits w 6 5) (bits w 3 3))
  | 0x4 => some (.strmGa (bits w 21 5) (bits w 16 5) (bits w 11 5) (bits w 6 5) (bits w 3 3))
  | 0x5 => some (.strmSc (bits w 21 5) (bits w 16 5) (bits w 11 5) (bits w 6 5) (bits w 3 3))
  | 0x6 => some (.strmUpd (bits w 21 5) (bits w 16 5) (bits w 11 5) (bits w 6 5) (bits w 3 3))
  | 0x7 => whenZero ((bits w 6 5).toNat) (.strmOrg (bits w 21 5) (bits w 16 5) (bits w 11 5) (bits w 3 3))
  | _ => none

/-- Major 0x29 (R96, R159–R161). -/
def decodeStreamControl (w : Insn) : Option Instr :=
  match (bits w 0 3).toNat with
  | 0x0 => whenZero ((bits w 6 10).toNat) (.strmWt (bits w 21 5) (bits w 16 5) (bits w 3 3))
  | 0x1 => whenZero ((bits w 6 10).toNat) (.strmQry (bits w 21 5) (bits w 16 5) (bits w 3 3))
  | 0x2 => whenZero ((bits w 6 10).toNat) (.strmRsm (bits w 21 5) (bits w 16 5) (bits w 3 3))
  | 0x3 => whenZero ((bits w 6 10).toNat) (.strmKil (bits w 21 5) (bits w 16 5) (bits w 3 3))
  | _ => none

/-- Major 0x30 (R96, R275–R282). -/
def decodePool (w : Insn) : Option Instr :=
  match (bits w 0 3).toNat with
  | 0x0 => whenZero ((bits w 6 10).toNat) (.poolAl (bits w 21 5) (bits w 16 5) (bits w 3 3))
  | 0x1 => whenZero ((bits w 6 10).toNat) (.poolTal (bits w 21 5) (bits w 16 5) (bits w 3 3))
  | 0x2 => whenZero ((bits w 6 5).toNat) (.poolPb (bits w 21 5) (bits w 16 5) (bits w 11 5) (bits w 3 3))
  | 0x3 => some (.poolRd (bits w 21 5) (bits w 16 5) (bits w 11 5) (bits w 6 5) (bits w 3 3))
  | 0x4 => whenZero ((bits w 6 5).toNat) (.poolAb (bits w 21 5) (bits w 16 5) (bits w 11 5) (bits w 3 3))
  | 0x5 => whenZero ((bits w 6 5).toNat) (.poolQry (bits w 21 5) (bits w 16 5) (bits w 11 5) (bits w 3 3))
  | 0x6 => whenZero ((bits w 6 5).toNat) (.poolFnc (bits w 21 5) (bits w 16 5) (bits w 11 5) (bits w 3 3))
  | 0x7 => whenZero ((bits w 6 5).toNat) (.poolRsv (bits w 21 5) (bits w 16 5) (bits w 11 5) (bits w 3 3))
  | _ => none

/-- Major 0x34 (R96, R305–R309). -/
def decodeRouter (w : Insn) : Option Instr :=
  match (bits w 0 3).toNat with
  | 0x0 => whenZero ((bits w 6 5).toNat) (.rtCfg (bits w 21 5) (bits w 16 5) (bits w 11 5) (bits w 3 3))
  | 0x1 => whenZero ((bits w 6 5).toNat) (.rtMode (bits w 21 5) (bits w 16 5) (bits w 11 5) (bits w 3 3))
  | 0x2 => whenZero ((bits w 6 10).toNat) (.rtQry (bits w 21 5) (bits w 16 5) (bits w 3 3))
  | 0x3 => some (.rtLog (bits w 21 5) (bits w 16 5) (bits w 11 5) (bits w 6 5) (bits w 3 3))
  | _ => none

/-- Major 0x35 (R96, R364–R369). -/
def decodeJournalA (w : Insn) : Option Instr :=
  match (bits w 0 3).toNat with
  | 0x0 => whenZero ((bits w 6 10).toNat) (.jrnProp (bits w 21 5) (bits w 16 5) (bits w 3 3))
  | 0x1 => whenZero ((bits w 6 10).toNat) (.jrnSub (bits w 21 5) (bits w 16 5) (bits w 3 3))
  | 0x2 => whenZero ((bits w 6 10).toNat) (.jrnUsub (bits w 21 5) (bits w 16 5) (bits w 3 3))
  | 0x3 => whenZero ((bits w 6 5).toNat) (.jrnPin (bits w 21 5) (bits w 16 5) (bits w 11 5) (bits w 3 3))
  | 0x4 => whenZero ((bits w 6 10).toNat) (.jrnUpin (bits w 21 5) (bits w 16 5) (bits w 3 3))
  | 0x5 => whenZero ((bits w 6 10).toNat) (.jrnVer (bits w 21 5) (bits w 16 5) (bits w 3 3))
  | 0x6 => whenZero ((bits w 6 5).toNat) (.jrnRd (bits w 21 5) (bits w 16 5) (bits w 11 5) (bits w 3 3))
  | 0x7 => whenZero ((bits w 6 10).toNat) (.jrnRvt (bits w 21 5) (bits w 16 5) (bits w 3 3))
  | _ => none

/-- Major 0x36 (R96, R370, R371). -/
def decodeJournalB (w : Insn) : Option Instr :=
  match (bits w 0 3).toNat with
  | 0x0 => whenZero ((bits w 6 10).toNat) (.jrnExp (bits w 21 5) (bits w 16 5) (bits w 3 3))
  | 0x1 => whenZero ((bits w 6 10).toNat) (.jrnLoad (bits w 21 5) (bits w 16 5) (bits w 3 3))
  | _ => none

/-- Major 0x3B (R96, R137). -/
def decodeCkptLaunch (w : Insn) : Option Instr :=
  match (bits w 0 3).toNat with
  | 0x0 => whenZero ((bits w 6 5).toNat) (.ckpt (bits w 21 5) (bits w 16 5) (bits w 11 5) (bits w 3 3))
  | 0x1 => whenZero ((bits w 6 10).toNat) (.launch (bits w 21 5) (bits w 16 5) (bits w 3 3))
  | _ => none

/-- A single instruction word by its major opcode (R87, R91); a word that no map assigns has no reading (R90). -/
def decodeWord (w : Insn) : Option Instr :=
  match (bits w 26 6).toNat with
  | 0x00 => decodeInteger w
  | 0x01 => some (.addi (bits w 21 5) (bits w 16 5) (bits w 0 16))
  | 0x02 => some (.andi (bits w 21 5) (bits w 16 5) (bits w 0 16))
  | 0x03 => some (.ori (bits w 21 5) (bits w 16 5) (bits w 0 16))
  | 0x04 => some (.xori (bits w 21 5) (bits w 16 5) (bits w 0 16))
  | 0x05 => whenZero ((bits w 6 10).toNat) (.shli (bits w 21 5) (bits w 16 5) (bits w 0 6))
  | 0x06 => whenZero ((bits w 6 10).toNat) (.shri (bits w 21 5) (bits w 16 5) (bits w 0 6))
  | 0x07 => whenZero ((bits w 6 10).toNat) (.shai (bits w 21 5) (bits w 16 5) (bits w 0 6))
  | 0x08 => whenZero ((bits w 16 5).toNat) (.lih (bits w 21 5) (bits w 0 16))
  | 0x10 => if (bits w 0 3).toNat < 6 then whenZero ((bits w 3 8).toNat + (bits w 24 2).toNat) (.cmp (bits w 21 3) (bits w 16 5) (bits w 11 5) (bits w 0 3)) else none
  | 0x11 => some (.cmpi (bits w 24 2) (bits w 21 3) (bits w 16 5) (bits w 0 16))
  | 0x12 => whenZero ((bits w 25 1).toNat) (.cmpiNatural (bits w 24 1) (bits w 21 3) (bits w 16 5) (bits w 0 16))
  | 0x13 => decodePredicate w
  | 0x14 => decodeLoad w
  | 0x15 => decodeStore w
  | 0x16 => decodeScratch w
  | 0x17 => decodeAmo w
  | 0x18 => some (.b (bits w 23 3) (bits w 22 1) (bits w 0 22))
  | 0x19 => whenZero ((bits w 16 5).toNat) (.jal (bits w 21 5) (bits w 0 16))
  | 0x1A => decodeJump w
  | 0x1B => decodeLoop w
  | 0x1C => decodeLoops w
  | 0x1D => whenZero ((bits w 0 24).toNat) (.lbrk (bits w 24 2))
  | 0x20 => decodeBarrier w
  | 0x24 => decodeConfig w
  | 0x25 => decodeToken w
  | 0x28 => decodeStreamIssue w
  | 0x29 => decodeStreamControl w
  | 0x30 => decodePool w
  | 0x34 => decodeRouter w
  | 0x35 => decodeJournalA w
  | 0x36 => decodeJournalB w
  | 0x38 => whenZero ((bits w 16 10).toNat) (.trap (bits w 0 16))
  | 0x39 => decodeCsr w
  | 0x3A => decodeSystem w
  | 0x3B => decodeCkptLaunch w
  | _ => none

/-- The 42-bit immediate of a long pair: high26 of the leading word, then imm16 of the second (R89). -/
def longImm (pfx w : Insn) : BitVec 42 := bits pfx 0 26 ++ bits w 0 16

/-- The 39-bit displacement of a memory pair (R89). -/
def longDisp (pfx w : Insn) : BitVec 39 := bits pfx 0 26 ++ bits w 0 13

/-- Whether a word is a long leading word, major 0x3F (R88). -/
def isLong (w : Insn) : Bool := (bits w 26 6).toNat = 0x3F

/-- A long pair: only the majors of R89 accept a leading word, and the reserved fields of the second word are those of the
plain form. -/
def decodePair (pfx w : Insn) : Option Instr :=
  match (bits w 26 6).toNat with
  | 0x01 => some (.addiLong (bits w 21 5) (bits w 16 5) (longImm pfx w))
  | 0x02 => some (.andiLong (bits w 21 5) (bits w 16 5) (longImm pfx w))
  | 0x03 => some (.oriLong (bits w 21 5) (bits w 16 5) (longImm pfx w))
  | 0x04 => some (.xoriLong (bits w 21 5) (bits w 16 5) (longImm pfx w))
  | 0x11 => some (.cmpiLong (bits w 24 2) (bits w 21 3) (bits w 16 5) (longImm pfx w))
  | 0x12 => whenZero (bits w 25 1).toNat (.cmpiNaturalLong (bits w 24 1) (bits w 21 3) (bits w 16 5) (longImm pfx w))
  | 0x14 => if (bits w 13 3).toNat < 7 then
      some (.ldLong (bits w 21 5) (bits w 16 5) (bits w 15 1) (bits w 13 2) (longDisp pfx w)) else none
  | 0x15 => whenZero (bits w 15 1).toNat (.stLong (bits w 21 5) (bits w 16 5) (bits w 13 2) (longDisp pfx w))
  | 0x16 => some (.ldlStlLong (bits w 21 5) (bits w 16 5) (bits w 15 1) (bits w 13 2) (longDisp pfx w))
  | 0x19 => whenZero (bits w 16 5).toNat (.jalLong (bits w 21 5) (longImm pfx w))
  | _ => none

/-- What the bytes at an instruction address read as: an instruction of 4 or 8 bytes, or an encoding that traps ILLEGAL_OP
with the TVAL it gives (R89, R90). -/
inductive Reading where
  /-- An instruction and its length in bytes. -/
  | instr (i : Instr) (len : Nat)
  /-- An encoding that no map assigns, with the TVAL of R90. -/
  | illegal (tval : Word)
  /-- Fewer bytes than the encoding needs. -/
  | short
  deriving DecidableEq, Repr

/-- A reading of a single word (R90: TVAL holds the word zero-extended). -/
def readSingle (w : Insn) : Reading :=
  match decodeWord w with
  | some i => .instr i 4
  | none => .illegal (w.setWidth 64)

/-- A reading of a pair (R90: the leading word in TVAL bits 63:32, the second in bits 31:0). -/
def readPair (pfx w : Insn) : Reading :=
  match decodePair pfx w with
  | some i => .instr i 8
  | none => .illegal (pfx ++ w)

/-- A little-endian 32-bit word of four bytes, the lowest address first (R5, R87). -/
def wordOfBytes (b0 b1 b2 b3 : Byte) : Insn := b3 ++ (b2 ++ (b1 ++ b0))

/-- The instruction that a list of bytes starts with, lowest address first. -/
def decodeBytes : List Byte → Reading
  | b0 :: b1 :: b2 :: b3 :: rest =>
    let w := wordOfBytes b0 b1 b2 b3
    if isLong w then
      match rest with
      | c0 :: c1 :: c2 :: c3 :: _ => readPair w (wordOfBytes c0 c1 c2 c3)
      | _ => .short
    else readSingle w
  | _ => .short

/-- The bytes of a number as memory holds them, lowest address first (R5). -/
def bytesOf : Nat → Nat → List Byte
  | 0, _ => []
  | n + 1, v => BitVec.ofNat 8 v :: bytesOf n (v / 256)

/-- The instruction that the decoder reads from a word of the opcode table: `nbits` bits of `w`, the first word lowest, zeros
above them. -/
def decodeTableWord (nbits w : Nat) : Option Instr :=
  match decodeBytes (bytesOf 8 (w % 2 ^ nbits)) with
  | .instr i _ => some i
  | _ => none

/-- The fields of an element operation word (R189). -/
def eowOf (v : BitVec 64) : Eow :=
  ⟨v.extractLsb' 52 4, v.extractLsb' 48 4, v.extractLsb' 45 3, v.extractLsb' 42 3, v.extractLsb' 39 3, v.extractLsb' 37 2,
    v.extractLsb' 33 4, v.extractLsb' 29 4, v.extractLsb' 24 5, v.extractLsb' 16 8, v.extractLsb' 0 16⟩

/-- The operation of an element by the OP field of its operation word (R190); a value that the table does not list has no
reading and fails at seal with CFG_BAD_OP. -/
def decodeOp (op : BitVec 8) (w : Eow) : Option Instr :=
  match op.toNat with
  | 0x00 => some (.fadd w)
  | 0x01 => some (.fsub w)
  | 0x02 => some (.fmul w)
  | 0x03 => some (.fma w)
  | 0x04 => some (.fms w)
  | 0x05 => some (.fnma w)
  | 0x06 => some (.fmin w)
  | 0x07 => some (.fmax w)
  | 0x08 => some (.fabs w)
  | 0x09 => some (.fneg w)
  | 0x0A => some (.fcps w)
  | 0x0B => some (.frcp w)
  | 0x0C => some (.frsq w)
  | 0x0D => some (.fsqrt w)
  | 0x0E => some (.fex2 w)
  | 0x0F => some (.flg2 w)
  | 0x10 => some (.fcmp w)
  | 0x11 => some (.fcls w)
  | 0x20 => some (.iadd w)
  | 0x21 => some (.isub w)
  | 0x22 => some (.iadds w)
  | 0x23 => some (.isubs w)
  | 0x24 => some (.imul w)
  | 0x25 => some (.imulh w)
  | 0x26 => some (.imad w)
  | 0x27 => some (.imulq w)
  | 0x28 => some (.imin w)
  | 0x29 => some (.imax w)
  | 0x2A => some (.iabs w)
  | 0x2B => some (.iand w)
  | 0x2C => some (.ior w)
  | 0x2D => some (.ixor w)
  | 0x2E => some (.inot w)
  | 0x2F => some (.ishl w)
  | 0x30 => some (.ishr w)
  | 0x31 => some (.isha w)
  | 0x32 => some (.icmp w)
  | 0x33 => some (.iclz w)
  | 0x40 => some (.cvt w)
  | 0x41 => some (.deq w)
  | 0x42 => some (.qnt w)
  | 0x43 => some (.clmp w)
  | 0x44 => some (.selLanes w)
  | 0x45 => some (.shuf w)
  | 0x46 => some (.bcst w)
  | 0x47 => some (.rotl w)
  | 0x48 => some (.slid w)
  | 0x49 => some (.iota w)
  | 0x50 => some (.rsum w)
  | 0x51 => some (.rmax w)
  | 0x52 => some (.rmin w)
  | 0x53 => some (.acc w)
  | 0x54 => some (.amax w)
  | 0x55 => some (.dot w)
  | 0x60 => some (.steer w)
  | 0x61 => some (.merge w)
  | 0x62 => some (.carry w)
  | 0x63 => some (.gate w)
  | 0x64 => some (.invar w)
  | 0x65 => some (.drop w)
  | 0x66 => some (.pass w)
  | 0x67 => some (.prmi w)
  | 0x68 => some (.prmo w)
  | 0x69 => some (.mkgn w)
  | 0x6A => some (.cntr w)
  | 0x6B => some (.dly w)
  | 0x70 => some (.rmk w)
  | 0x71 => some (.rfld w)
  | 0x72 => some (.rins w)
  | 0x73 => some (.sent w)
  | 0x74 => some (.sret w)
  | 0x80 => some (.aloc w)
  | 0x81 => some (.pwr w)
  | 0x82 => some (.ppub w)
  | 0x83 => some (.prq w)
  | 0x84 => some (.lut w)
  | 0x90 => some (.wld w)
  | 0x91 => some (.mrow w)
  | 0x92 => some (.mdrn w)
  | 0x93 => some (.macc w)
  | _ => none

/-- The element operation of a 64-bit operation word (R189, R190). -/
def decodeEow (v : BitVec 64) : Option Instr := decodeOp (v.extractLsb' 56 8) (eowOf v)

/-- The words of a sequencer instruction (R88, R89), the first word first; no words for an element operation or an event. -/
def encode : Instr → List Insn
  | .add d a b => [0#6 ++ (d ++ (a ++ (b ++ 0#11)))]
  | .sub d a b => [0#6 ++ (d ++ (a ++ (b ++ 1#11)))]
  | .mul d a b => [0#6 ++ (d ++ (a ++ (b ++ 2#11)))]
  | .mulh d a b => [0#6 ++ (d ++ (a ++ (b ++ 3#11)))]
  | .mulhn d a b => [0#6 ++ (d ++ (a ++ (b ++ 4#11)))]
  | .div d a b => [0#6 ++ (d ++ (a ++ (b ++ 5#11)))]
  | .divn d a b => [0#6 ++ (d ++ (a ++ (b ++ 6#11)))]
  | .rem d a b => [0#6 ++ (d ++ (a ++ (b ++ 7#11)))]
  | .remn d a b => [0#6 ++ (d ++ (a ++ (b ++ 8#11)))]
  | .and d a b => [0#6 ++ (d ++ (a ++ (b ++ 9#11)))]
  | .or d a b => [0#6 ++ (d ++ (a ++ (b ++ 10#11)))]
  | .xor d a b => [0#6 ++ (d ++ (a ++ (b ++ 11#11)))]
  | .shl d a b => [0#6 ++ (d ++ (a ++ (b ++ 12#11)))]
  | .shr d a b => [0#6 ++ (d ++ (a ++ (b ++ 13#11)))]
  | .sha d a b => [0#6 ++ (d ++ (a ++ (b ++ 14#11)))]
  | .min d a b => [0#6 ++ (d ++ (a ++ (b ++ 15#11)))]
  | .max d a b => [0#6 ++ (d ++ (a ++ (b ++ 16#11)))]
  | .minn d a b => [0#6 ++ (d ++ (a ++ (b ++ 17#11)))]
  | .maxn d a b => [0#6 ++ (d ++ (a ++ (b ++ 18#11)))]
  | .clz d a => [0#6 ++ (d ++ (a ++ 19#16))]
  | .popc d a => [0#6 ++ (d ++ (a ++ 20#16))]
  | .sel d a b n => [0#6 ++ (d ++ (a ++ (b ++ (3#8 ++ n))))]
  | .addi d a i => [1#6 ++ (d ++ (a ++ i))]
  | .andi d a i => [2#6 ++ (d ++ (a ++ i))]
  | .ori d a i => [3#6 ++ (d ++ (a ++ i))]
  | .xori d a i => [4#6 ++ (d ++ (a ++ i))]
  | .shli d a n => [5#6 ++ (d ++ (a ++ (0#10 ++ n)))]
  | .shri d a n => [6#6 ++ (d ++ (a ++ (0#10 ++ n)))]
  | .shai d a n => [7#6 ++ (d ++ (a ++ (0#10 ++ n)))]
  | .lih d i => [8#6 ++ (d ++ (0#5 ++ i))]
  | .addiLong d a i => [63#6 ++ i.extractLsb' 16 26, 1#6 ++ (d ++ (a ++ i.extractLsb' 0 16))]
  | .andiLong d a i => [63#6 ++ i.extractLsb' 16 26, 2#6 ++ (d ++ (a ++ i.extractLsb' 0 16))]
  | .oriLong d a i => [63#6 ++ i.extractLsb' 16 26, 3#6 ++ (d ++ (a ++ i.extractLsb' 0 16))]
  | .xoriLong d a i => [63#6 ++ i.extractLsb' 16 26, 4#6 ++ (d ++ (a ++ i.extractLsb' 0 16))]
  | .cmpiLong c q a i => [63#6 ++ i.extractLsb' 16 26, 17#6 ++ (c ++ (q ++ (a ++ i.extractLsb' 0 16)))]
  | .cmpiNaturalLong c q a i => [63#6 ++ i.extractLsb' 16 26, 18#6 ++ (0#1 ++ (c ++ (q ++ (a ++ i.extractLsb' 0 16))))]
  | .ldLong d a n w i => [63#6 ++ i.extractLsb' 13 26, 20#6 ++ (d ++ (a ++ (n ++ (w ++ i.extractLsb' 0 13))))]
  | .stLong d a w i => [63#6 ++ i.extractLsb' 13 26, 21#6 ++ (d ++ (a ++ (0#1 ++ (w ++ i.extractLsb' 0 13))))]
  | .ldlStlLong d a n w i => [63#6 ++ i.extractLsb' 13 26, 22#6 ++ (d ++ (a ++ (n ++ (w ++ i.extractLsb' 0 13))))]
  | .jalLong d i => [63#6 ++ i.extractLsb' 16 26, 25#6 ++ (d ++ (0#5 ++ i.extractLsb' 0 16))]
  | .cmp q a b c => [16#6 ++ (0#2 ++ (q ++ (a ++ (b ++ (0#8 ++ c)))))]
  | .cmpi c q a i => [17#6 ++ (c ++ (q ++ (a ++ i)))]
  | .cmpiNatural c q a i => [18#6 ++ (0#1 ++ (c ++ (q ++ (a ++ i))))]
  | .pand d a b => [19#6 ++ (0#2 ++ (d ++ (0#2 ++ (a ++ (0#2 ++ (b ++ 0#11))))))]
  | .por d a b => [19#6 ++ (0#2 ++ (d ++ (0#2 ++ (a ++ (0#2 ++ (b ++ 1#11))))))]
  | .pnot d a => [19#6 ++ (0#2 ++ (d ++ (0#2 ++ (a ++ 2#16))))]
  | .ld d a w i => [20#6 ++ (d ++ (a ++ (0#1 ++ (w ++ i))))]
  | .ldn d a w i => [20#6 ++ (d ++ (a ++ (1#1 ++ (w ++ i))))]
  | .st d a w i => [21#6 ++ (d ++ (a ++ (0#1 ++ (w ++ i))))]
  | .ldl d a w i => [22#6 ++ (d ++ (a ++ (0#1 ++ (w ++ i))))]
  | .stl d a w i => [22#6 ++ (d ++ (a ++ (1#1 ++ (w ++ i))))]
  | .amoAdd d a b w => [23#6 ++ (d ++ (a ++ (b ++ (0#4 ++ (w ++ 0#6)))))]
  | .amoFadd d a b => [23#6 ++ (d ++ (a ++ (b ++ 128#11)))]
  | .amoBadd d a b => [23#6 ++ (d ++ (a ++ (b ++ 256#11)))]
  | .amoMin d a b w => [23#6 ++ (d ++ (a ++ (b ++ (3#4 ++ (w ++ 0#6)))))]
  | .amoMax d a b w => [23#6 ++ (d ++ (a ++ (b ++ (4#4 ++ (w ++ 0#6)))))]
  | .amoMinn d a b w => [23#6 ++ (d ++ (a ++ (b ++ (5#4 ++ (w ++ 0#6)))))]
  | .amoMaxn d a b w => [23#6 ++ (d ++ (a ++ (b ++ (6#4 ++ (w ++ 0#6)))))]
  | .amoAnd d a b w => [23#6 ++ (d ++ (a ++ (b ++ (7#4 ++ (w ++ 0#6)))))]
  | .amoOr d a b w => [23#6 ++ (d ++ (a ++ (b ++ (8#4 ++ (w ++ 0#6)))))]
  | .amoXor d a b w => [23#6 ++ (d ++ (a ++ (b ++ (9#4 ++ (w ++ 0#6)))))]
  | .amoSwap d a b w => [23#6 ++ (d ++ (a ++ (b ++ (10#4 ++ (w ++ 0#6)))))]
  | .amoCas d a b w => [23#6 ++ (d ++ (a ++ (b ++ (11#4 ++ (w ++ 0#6)))))]
  | .amoIncw d a b w => [23#6 ++ (d ++ (a ++ (b ++ (12#4 ++ (w ++ 0#6)))))]
  | .b p n i => [24#6 ++ (p ++ (n ++ i))]
  | .jal d i => [25#6 ++ (d ++ (0#5 ++ i))]
  | .br a => [26#6 ++ (0#5 ++ (a ++ 0#16))]
  | .jr d a => [26#6 ++ (d ++ (a ++ 1#16))]
  | .loopImm l c o => [27#6 ++ (l ++ (0#1 ++ (c ++ o)))]
  | .loopReg l x o => [27#6 ++ (l ++ (64#7 ++ (x ++ o)))]
  | .loopsImm l c o => [28#6 ++ (l ++ (0#1 ++ (c ++ o)))]
  | .loopsReg l x o => [28#6 ++ (l ++ (64#7 ++ (x ++ o)))]
  | .lbrk l => [29#6 ++ (l ++ 0#24)]
  | .barArv d a p => [32#6 ++ (d ++ (a ++ (0#10 ++ (p ++ 0#3))))]
  | .barWt d a b p => [32#6 ++ (d ++ (a ++ (b ++ (0#5 ++ (p ++ 1#3)))))]
  | .barSyn d a p => [32#6 ++ (d ++ (a ++ (0#10 ++ (p ++ 2#3))))]
  | .barPhs d a p => [32#6 ++ (d ++ (a ++ (0#10 ++ (p ++ 3#3))))]
  | .barMap d a b p => [32#6 ++ (d ++ (a ++ (b ++ (0#5 ++ (p ++ 4#3)))))]
  | .cfgLd d a b c p => [36#6 ++ (d ++ (a ++ (b ++ (c ++ (p ++ 0#3)))))]
  | .cfgSwp d p => [36#6 ++ (d ++ (0#15 ++ (p ++ 1#3)))]
  | .cfgDrn d p => [36#6 ++ (d ++ (0#15 ++ (p ++ 2#3)))]
  | .cfgWt d p => [36#6 ++ (d ++ (0#15 ++ (p ++ 3#3)))]
  | .cfgSel d a b c p => [36#6 ++ (d ++ (a ++ (b ++ (c ++ (p ++ 4#3)))))]
  | .cfgQry d a p => [36#6 ++ (d ++ (a ++ (0#10 ++ (p ++ 5#3))))]
  | .tokInj d a b c p => [37#6 ++ (d ++ (a ++ (b ++ (c ++ (p ++ 0#3)))))]
  | .tokTake d a p => [37#6 ++ (d ++ (a ++ (0#10 ++ (p ++ 1#3))))]
  | .tokMark d a b p => [37#6 ++ (d ++ (a ++ (b ++ (0#5 ++ (p ++ 2#3)))))]
  | .trap i => [56#6 ++ (0#10 ++ i)]
  | .csrr d n => [57#6 ++ (d ++ (0#9 ++ n))]
  | .csrw a n => [57#6 ++ (0#5 ++ (a ++ (1#4 ++ n)))]
  | .csrs a n => [57#6 ++ (0#5 ++ (a ++ (2#4 ++ n)))]
  | .loopRegisterWrite _ _ => []
  | .cntSelWrite _ => []
  | .tstatWrite _ => []
  | .evt a => [58#6 ++ (0#5 ++ (a ++ 4#16))]
  | .seedGet d => [58#6 ++ (d ++ 5#21)]
  | .fenceAcq s => [58#6 ++ (4#24 ++ s)]
  | .fenceRel s => [58#6 ++ (5#24 ++ s)]
  | .ckpt d a b p => [59#6 ++ (d ++ (a ++ (b ++ (0#5 ++ (p ++ 0#3)))))]
  | .launch d a p => [59#6 ++ (d ++ (a ++ (0#10 ++ (p ++ 1#3))))]
  | .shpMk d a b p => [40#6 ++ (d ++ (a ++ (b ++ (0#5 ++ (p ++ 0#3)))))]
  | .strmLd d a b c p => [40#6 ++ (d ++ (a ++ (b ++ (c ++ (p ++ 1#3)))))]
  | .strmSv d a b c p => [40#6 ++ (d ++ (a ++ (b ++ (c ++ (p ++ 2#3)))))]
  | .strmCp d a b c p => [40#6 ++ (d ++ (a ++ (b ++ (c ++ (p ++ 3#3)))))]
  | .strmGa d a b c p => [40#6 ++ (d ++ (a ++ (b ++ (c ++ (p ++ 4#3)))))]
  | .strmSc d a b c p => [40#6 ++ (d ++ (a ++ (b ++ (c ++ (p ++ 5#3)))))]
  | .strmUpd d a b c p => [40#6 ++ (d ++ (a ++ (b ++ (c ++ (p ++ 6#3)))))]
  | .strmOrg d a b p => [40#6 ++ (d ++ (a ++ (b ++ (0#5 ++ (p ++ 7#3)))))]
  | .strmWt d a p => [41#6 ++ (d ++ (a ++ (0#10 ++ (p ++ 0#3))))]
  | .strmQry d a p => [41#6 ++ (d ++ (a ++ (0#10 ++ (p ++ 1#3))))]
  | .strmRsm d a p => [41#6 ++ (d ++ (a ++ (0#10 ++ (p ++ 2#3))))]
  | .strmKil d a p => [41#6 ++ (d ++ (a ++ (0#10 ++ (p ++ 3#3))))]
  | .poolAl d a p => [48#6 ++ (d ++ (a ++ (0#10 ++ (p ++ 0#3))))]
  | .poolTal d a p => [48#6 ++ (d ++ (a ++ (0#10 ++ (p ++ 1#3))))]
  | .poolPb d a b p => [48#6 ++ (d ++ (a ++ (b ++ (0#5 ++ (p ++ 2#3)))))]
  | .poolRd d a b c p => [48#6 ++ (d ++ (a ++ (b ++ (c ++ (p ++ 3#3)))))]
  | .poolAb d a b p => [48#6 ++ (d ++ (a ++ (b ++ (0#5 ++ (p ++ 4#3)))))]
  | .poolQry d a b p => [48#6 ++ (d ++ (a ++ (b ++ (0#5 ++ (p ++ 5#3)))))]
  | .poolFnc d a b p => [48#6 ++ (d ++ (a ++ (b ++ (0#5 ++ (p ++ 6#3)))))]
  | .poolRsv d a b p => [48#6 ++ (d ++ (a ++ (b ++ (0#5 ++ (p ++ 7#3)))))]
  | .fadd _ => []
  | .fsub _ => []
  | .fmul _ => []
  | .fma _ => []
  | .fms _ => []
  | .fnma _ => []
  | .fmin _ => []
  | .fmax _ => []
  | .fabs _ => []
  | .fneg _ => []
  | .fcps _ => []
  | .frcp _ => []
  | .frsq _ => []
  | .fsqrt _ => []
  | .fex2 _ => []
  | .flg2 _ => []
  | .fcmp _ => []
  | .fcls _ => []
  | .iadd _ => []
  | .isub _ => []
  | .iadds _ => []
  | .isubs _ => []
  | .imul _ => []
  | .imulh _ => []
  | .imad _ => []
  | .imulq _ => []
  | .imin _ => []
  | .imax _ => []
  | .iabs _ => []
  | .iand _ => []
  | .ior _ => []
  | .ixor _ => []
  | .inot _ => []
  | .ishl _ => []
  | .ishr _ => []
  | .isha _ => []
  | .icmp _ => []
  | .iclz _ => []
  | .cvt _ => []
  | .deq _ => []
  | .qnt _ => []
  | .clmp _ => []
  | .selLanes _ => []
  | .shuf _ => []
  | .bcst _ => []
  | .rotl _ => []
  | .slid _ => []
  | .iota _ => []
  | .rsum _ => []
  | .rmax _ => []
  | .rmin _ => []
  | .acc _ => []
  | .amax _ => []
  | .dot _ => []
  | .steer _ => []
  | .merge _ => []
  | .carry _ => []
  | .gate _ => []
  | .invar _ => []
  | .drop _ => []
  | .pass _ => []
  | .prmi _ => []
  | .prmo _ => []
  | .mkgn _ => []
  | .cntr _ => []
  | .dly _ => []
  | .rmk _ => []
  | .rfld _ => []
  | .rins _ => []
  | .sent _ => []
  | .sret _ => []
  | .aloc _ => []
  | .pwr _ => []
  | .ppub _ => []
  | .prq _ => []
  | .lut _ => []
  | .wld _ => []
  | .mrow _ => []
  | .mdrn _ => []
  | .macc _ => []
  | .rtCfg d a b p => [52#6 ++ (d ++ (a ++ (b ++ (0#5 ++ (p ++ 0#3)))))]
  | .rtMode d a b p => [52#6 ++ (d ++ (a ++ (b ++ (0#5 ++ (p ++ 1#3)))))]
  | .rtQry d a p => [52#6 ++ (d ++ (a ++ (0#10 ++ (p ++ 2#3))))]
  | .rtLog d a b c p => [52#6 ++ (d ++ (a ++ (b ++ (c ++ (p ++ 3#3)))))]
  | .jrnProp d a p => [53#6 ++ (d ++ (a ++ (0#10 ++ (p ++ 0#3))))]
  | .jrnSub d a p => [53#6 ++ (d ++ (a ++ (0#10 ++ (p ++ 1#3))))]
  | .jrnUsub d a p => [53#6 ++ (d ++ (a ++ (0#10 ++ (p ++ 2#3))))]
  | .jrnPin d a b p => [53#6 ++ (d ++ (a ++ (b ++ (0#5 ++ (p ++ 3#3)))))]
  | .jrnUpin d a p => [53#6 ++ (d ++ (a ++ (0#10 ++ (p ++ 4#3))))]
  | .jrnVer d a p => [53#6 ++ (d ++ (a ++ (0#10 ++ (p ++ 5#3))))]
  | .jrnRd d a b p => [53#6 ++ (d ++ (a ++ (b ++ (0#5 ++ (p ++ 6#3)))))]
  | .jrnRvt d a p => [53#6 ++ (d ++ (a ++ (0#10 ++ (p ++ 7#3))))]
  | .jrnExp d a p => [54#6 ++ (d ++ (a ++ (0#10 ++ (p ++ 0#3))))]
  | .jrnLoad d a p => [54#6 ++ (d ++ (a ++ (0#10 ++ (p ++ 1#3))))]
  | .illegalOp _ => []
  | .loadReply => []
  | .amoReply => []
  | .barrierArrival => []
  | .barrierWaitRelease => []
  | .cfgWtReturn => []
  | .configStreamLoad => []
  | .sealChecksComplete => []
  | .tokTakeReturn => []
  | .takePortDrain => []
  | .eret => [58#6 ++ 0#26]
  | .wfe => [58#6 ++ 1#26]
  | .halt => [58#6 ++ 2#26]
  | .nop => [58#6 ++ 3#26]
  | .eventFlagDelivery => []
  | .wfeReturn => []
  | .asyncTrapTake => []
  | .strmWtReturn => []
  | .streamLinkAllocation => []
  | .streamSourceReply => []
  | .streamInputToken => []
  | .streamDrainInput => []
  | .streamWritePerformed => []
  | .streamComplete => []
  | .streamTranslationStop => []
  | .streamDrainSend => []
  | .translationWalk => []
  | .tlbShootdown => []
  | .poolRemoteReply => []
  | .poolAllocGrant => []
  | .poolRemoteRequest => []
  | .bankAccess => []
  | .drainCollectorAbandon => []
  | .allocWaitProbeTimer => []
  | .parkedReadProbeTimer => []
  | .probeArrival => []
  | .bankMove => []
  | .bankZeroiseComplete => []
  | .bankBusyExpiry => []
  | .tokenArrival => []
  | .freeCountReturn => []
  | .permitDenyDrop => []
  | .routeBroken => []
  | .roundClose => []
  | .elementDrainPass => []
  | .haltedDiscard => []
  | .coreDrainReport => []
  | .drainBeginNotice => []
  | .drainResolution => []
  | .resolutionApply => []
  | .mkgnMarkInsert => []
  | .poolReadReply => []
  | .weightLoaderRow => []
  | .bankAccumulateWrite => []
  | .matrixDrain => []
  | .routerAdmission => []
  | .routerDraw => []
  | .routerReturn => []
  | .routerExit => []
  | .sideStore => []
  | .routerDrain => []
  | .supdWindowGrant => []
  | .supdApply => []
  | .journalExportComplete => []
  | .journalLoadStep => []
  | .progressWindowExpiry => []
  | .trialEnd => []
  | .controllerProposal => []
  | .kick => []
  | .queueMap => []
  | .queueUnmap => []
  | .queueRegister => []
  | .queueArbitration => []
  | .nopPacket => []
  | .launchPacket => []
  | .signalPacket => []
  | .waitPacket => []
  | .waitReread => []
  | .seedPush => []
  | .seedPop => []
  | .seedFork => []
  | .jrnPacketProp => []
  | .jrnPacketRvt => []
  | .jrnPacketExp => []
  | .jrnPacketLoad => []
  | .launchPlacement => []
  | .launchCompletion => []
  | .contextTeardown => []
  | .preemptRequest => []
  | .checkpointSave => []
  | .ckptOverdue => []
  | .contextRestore => []
  | .handoverPhase1 => []
  | .handoverPhase2 => []
  | .create => []
  | .registerObject => []
  | .sealContext => []
  | .getVersion => []
  | .getCapabilities => []
  | .negotiateAlgorithms => []
  | .getDigests => []
  | .getCertificate => []
  | .challenge => []
  | .getMeasurements => []
  | .keyExchange => []
  | .finish => []
  | .heartbeat => []
  | .keyUpdate => []
  | .endSession => []
  | .measurementExtend => []
  | .tagCheckPass => []
  | .integrity => []
  | .rdmaWrite => []
  | .rdmaReadRequest => []
  | .readReply => []
  | .acknowledgment => []
  | .managementMessage => []
  | .softErrorCorrected => []
  | .uncorrectable => []
  | .healthWindowExpiry => []
  | .coreRetire => []
  | .thermal => []
  | .supply => []
  | .shutdown => []
  | .debugUnlock => []
  | .duskEntry => []
  | .duskExit => []
  | .midnightEntry => []
  | .wake => []
  | .deviceReset => []
  | .storeCompletion => []
  | .barrierCommandReply => []
  | .journalReply => []
  | .connectionRequest => []

/-- The bytes of a list of words in memory order (R87). -/
def bytesOfWords : List Insn → List Byte
  | [] => []
  | w :: ws => bytesOf 4 w.toNat ++ bytesOfWords ws

/-- The element operation word of its fields and OP (R189). -/
def eowBits (op : BitVec 8) (w : Eow) : BitVec 64 :=
  op ++ (w.ty ++ (w.md ++ (w.sa ++ (w.sb ++ (w.sc ++ (w.oe ++ (w.rin ++ (w.rout ++ (w.vco ++ (w.aux ++ w.imm))))))))))

/-- The element operation word of an element operation (R190); none for any other instruction. -/
def encodeEow : Instr → Option (BitVec 64)
  | .add _ _ _ => none
  | .sub _ _ _ => none
  | .mul _ _ _ => none
  | .mulh _ _ _ => none
  | .mulhn _ _ _ => none
  | .div _ _ _ => none
  | .divn _ _ _ => none
  | .rem _ _ _ => none
  | .remn _ _ _ => none
  | .and _ _ _ => none
  | .or _ _ _ => none
  | .xor _ _ _ => none
  | .shl _ _ _ => none
  | .shr _ _ _ => none
  | .sha _ _ _ => none
  | .min _ _ _ => none
  | .max _ _ _ => none
  | .minn _ _ _ => none
  | .maxn _ _ _ => none
  | .clz _ _ => none
  | .popc _ _ => none
  | .sel _ _ _ _ => none
  | .addi _ _ _ => none
  | .andi _ _ _ => none
  | .ori _ _ _ => none
  | .xori _ _ _ => none
  | .shli _ _ _ => none
  | .shri _ _ _ => none
  | .shai _ _ _ => none
  | .lih _ _ => none
  | .addiLong _ _ _ => none
  | .andiLong _ _ _ => none
  | .oriLong _ _ _ => none
  | .xoriLong _ _ _ => none
  | .cmpiLong _ _ _ _ => none
  | .cmpiNaturalLong _ _ _ _ => none
  | .ldLong _ _ _ _ _ => none
  | .stLong _ _ _ _ => none
  | .ldlStlLong _ _ _ _ _ => none
  | .jalLong _ _ => none
  | .cmp _ _ _ _ => none
  | .cmpi _ _ _ _ => none
  | .cmpiNatural _ _ _ _ => none
  | .pand _ _ _ => none
  | .por _ _ _ => none
  | .pnot _ _ => none
  | .ld _ _ _ _ => none
  | .ldn _ _ _ _ => none
  | .st _ _ _ _ => none
  | .ldl _ _ _ _ => none
  | .stl _ _ _ _ => none
  | .amoAdd _ _ _ _ => none
  | .amoFadd _ _ _ => none
  | .amoBadd _ _ _ => none
  | .amoMin _ _ _ _ => none
  | .amoMax _ _ _ _ => none
  | .amoMinn _ _ _ _ => none
  | .amoMaxn _ _ _ _ => none
  | .amoAnd _ _ _ _ => none
  | .amoOr _ _ _ _ => none
  | .amoXor _ _ _ _ => none
  | .amoSwap _ _ _ _ => none
  | .amoCas _ _ _ _ => none
  | .amoIncw _ _ _ _ => none
  | .b _ _ _ => none
  | .jal _ _ => none
  | .br _ => none
  | .jr _ _ => none
  | .loopImm _ _ _ => none
  | .loopReg _ _ _ => none
  | .loopsImm _ _ _ => none
  | .loopsReg _ _ _ => none
  | .lbrk _ => none
  | .barArv _ _ _ => none
  | .barWt _ _ _ _ => none
  | .barSyn _ _ _ => none
  | .barPhs _ _ _ => none
  | .barMap _ _ _ _ => none
  | .cfgLd _ _ _ _ _ => none
  | .cfgSwp _ _ => none
  | .cfgDrn _ _ => none
  | .cfgWt _ _ => none
  | .cfgSel _ _ _ _ _ => none
  | .cfgQry _ _ _ => none
  | .tokInj _ _ _ _ _ => none
  | .tokTake _ _ _ => none
  | .tokMark _ _ _ _ => none
  | .trap _ => none
  | .csrr _ _ => none
  | .csrw _ _ => none
  | .csrs _ _ => none
  | .loopRegisterWrite _ _ => none
  | .cntSelWrite _ => none
  | .tstatWrite _ => none
  | .evt _ => none
  | .seedGet _ => none
  | .fenceAcq _ => none
  | .fenceRel _ => none
  | .ckpt _ _ _ _ => none
  | .launch _ _ _ => none
  | .shpMk _ _ _ _ => none
  | .strmLd _ _ _ _ _ => none
  | .strmSv _ _ _ _ _ => none
  | .strmCp _ _ _ _ _ => none
  | .strmGa _ _ _ _ _ => none
  | .strmSc _ _ _ _ _ => none
  | .strmUpd _ _ _ _ _ => none
  | .strmOrg _ _ _ _ => none
  | .strmWt _ _ _ => none
  | .strmQry _ _ _ => none
  | .strmRsm _ _ _ => none
  | .strmKil _ _ _ => none
  | .poolAl _ _ _ => none
  | .poolTal _ _ _ => none
  | .poolPb _ _ _ _ => none
  | .poolRd _ _ _ _ _ => none
  | .poolAb _ _ _ _ => none
  | .poolQry _ _ _ _ => none
  | .poolFnc _ _ _ _ => none
  | .poolRsv _ _ _ _ => none
  | .fadd w => some (eowBits 0#8 w)
  | .fsub w => some (eowBits 1#8 w)
  | .fmul w => some (eowBits 2#8 w)
  | .fma w => some (eowBits 3#8 w)
  | .fms w => some (eowBits 4#8 w)
  | .fnma w => some (eowBits 5#8 w)
  | .fmin w => some (eowBits 6#8 w)
  | .fmax w => some (eowBits 7#8 w)
  | .fabs w => some (eowBits 8#8 w)
  | .fneg w => some (eowBits 9#8 w)
  | .fcps w => some (eowBits 10#8 w)
  | .frcp w => some (eowBits 11#8 w)
  | .frsq w => some (eowBits 12#8 w)
  | .fsqrt w => some (eowBits 13#8 w)
  | .fex2 w => some (eowBits 14#8 w)
  | .flg2 w => some (eowBits 15#8 w)
  | .fcmp w => some (eowBits 16#8 w)
  | .fcls w => some (eowBits 17#8 w)
  | .iadd w => some (eowBits 32#8 w)
  | .isub w => some (eowBits 33#8 w)
  | .iadds w => some (eowBits 34#8 w)
  | .isubs w => some (eowBits 35#8 w)
  | .imul w => some (eowBits 36#8 w)
  | .imulh w => some (eowBits 37#8 w)
  | .imad w => some (eowBits 38#8 w)
  | .imulq w => some (eowBits 39#8 w)
  | .imin w => some (eowBits 40#8 w)
  | .imax w => some (eowBits 41#8 w)
  | .iabs w => some (eowBits 42#8 w)
  | .iand w => some (eowBits 43#8 w)
  | .ior w => some (eowBits 44#8 w)
  | .ixor w => some (eowBits 45#8 w)
  | .inot w => some (eowBits 46#8 w)
  | .ishl w => some (eowBits 47#8 w)
  | .ishr w => some (eowBits 48#8 w)
  | .isha w => some (eowBits 49#8 w)
  | .icmp w => some (eowBits 50#8 w)
  | .iclz w => some (eowBits 51#8 w)
  | .cvt w => some (eowBits 64#8 w)
  | .deq w => some (eowBits 65#8 w)
  | .qnt w => some (eowBits 66#8 w)
  | .clmp w => some (eowBits 67#8 w)
  | .selLanes w => some (eowBits 68#8 w)
  | .shuf w => some (eowBits 69#8 w)
  | .bcst w => some (eowBits 70#8 w)
  | .rotl w => some (eowBits 71#8 w)
  | .slid w => some (eowBits 72#8 w)
  | .iota w => some (eowBits 73#8 w)
  | .rsum w => some (eowBits 80#8 w)
  | .rmax w => some (eowBits 81#8 w)
  | .rmin w => some (eowBits 82#8 w)
  | .acc w => some (eowBits 83#8 w)
  | .amax w => some (eowBits 84#8 w)
  | .dot w => some (eowBits 85#8 w)
  | .steer w => some (eowBits 96#8 w)
  | .merge w => some (eowBits 97#8 w)
  | .carry w => some (eowBits 98#8 w)
  | .gate w => some (eowBits 99#8 w)
  | .invar w => some (eowBits 100#8 w)
  | .drop w => some (eowBits 101#8 w)
  | .pass w => some (eowBits 102#8 w)
  | .prmi w => some (eowBits 103#8 w)
  | .prmo w => some (eowBits 104#8 w)
  | .mkgn w => some (eowBits 105#8 w)
  | .cntr w => some (eowBits 106#8 w)
  | .dly w => some (eowBits 107#8 w)
  | .rmk w => some (eowBits 112#8 w)
  | .rfld w => some (eowBits 113#8 w)
  | .rins w => some (eowBits 114#8 w)
  | .sent w => some (eowBits 115#8 w)
  | .sret w => some (eowBits 116#8 w)
  | .aloc w => some (eowBits 128#8 w)
  | .pwr w => some (eowBits 129#8 w)
  | .ppub w => some (eowBits 130#8 w)
  | .prq w => some (eowBits 131#8 w)
  | .lut w => some (eowBits 132#8 w)
  | .wld w => some (eowBits 144#8 w)
  | .mrow w => some (eowBits 145#8 w)
  | .mdrn w => some (eowBits 146#8 w)
  | .macc w => some (eowBits 147#8 w)
  | .rtCfg _ _ _ _ => none
  | .rtMode _ _ _ _ => none
  | .rtQry _ _ _ => none
  | .rtLog _ _ _ _ _ => none
  | .jrnProp _ _ _ => none
  | .jrnSub _ _ _ => none
  | .jrnUsub _ _ _ => none
  | .jrnPin _ _ _ _ => none
  | .jrnUpin _ _ _ => none
  | .jrnVer _ _ _ => none
  | .jrnRd _ _ _ _ => none
  | .jrnRvt _ _ _ => none
  | .jrnExp _ _ _ => none
  | .jrnLoad _ _ _ => none
  | .illegalOp _ => none
  | .loadReply => none
  | .amoReply => none
  | .barrierArrival => none
  | .barrierWaitRelease => none
  | .cfgWtReturn => none
  | .configStreamLoad => none
  | .sealChecksComplete => none
  | .tokTakeReturn => none
  | .takePortDrain => none
  | .eret => none
  | .wfe => none
  | .halt => none
  | .nop => none
  | .eventFlagDelivery => none
  | .wfeReturn => none
  | .asyncTrapTake => none
  | .strmWtReturn => none
  | .streamLinkAllocation => none
  | .streamSourceReply => none
  | .streamInputToken => none
  | .streamDrainInput => none
  | .streamWritePerformed => none
  | .streamComplete => none
  | .streamTranslationStop => none
  | .streamDrainSend => none
  | .translationWalk => none
  | .tlbShootdown => none
  | .poolRemoteReply => none
  | .poolAllocGrant => none
  | .poolRemoteRequest => none
  | .bankAccess => none
  | .drainCollectorAbandon => none
  | .allocWaitProbeTimer => none
  | .parkedReadProbeTimer => none
  | .probeArrival => none
  | .bankMove => none
  | .bankZeroiseComplete => none
  | .bankBusyExpiry => none
  | .tokenArrival => none
  | .freeCountReturn => none
  | .permitDenyDrop => none
  | .routeBroken => none
  | .roundClose => none
  | .elementDrainPass => none
  | .haltedDiscard => none
  | .coreDrainReport => none
  | .drainBeginNotice => none
  | .drainResolution => none
  | .resolutionApply => none
  | .mkgnMarkInsert => none
  | .poolReadReply => none
  | .weightLoaderRow => none
  | .bankAccumulateWrite => none
  | .matrixDrain => none
  | .routerAdmission => none
  | .routerDraw => none
  | .routerReturn => none
  | .routerExit => none
  | .sideStore => none
  | .routerDrain => none
  | .supdWindowGrant => none
  | .supdApply => none
  | .journalExportComplete => none
  | .journalLoadStep => none
  | .progressWindowExpiry => none
  | .trialEnd => none
  | .controllerProposal => none
  | .kick => none
  | .queueMap => none
  | .queueUnmap => none
  | .queueRegister => none
  | .queueArbitration => none
  | .nopPacket => none
  | .launchPacket => none
  | .signalPacket => none
  | .waitPacket => none
  | .waitReread => none
  | .seedPush => none
  | .seedPop => none
  | .seedFork => none
  | .jrnPacketProp => none
  | .jrnPacketRvt => none
  | .jrnPacketExp => none
  | .jrnPacketLoad => none
  | .launchPlacement => none
  | .launchCompletion => none
  | .contextTeardown => none
  | .preemptRequest => none
  | .checkpointSave => none
  | .ckptOverdue => none
  | .contextRestore => none
  | .handoverPhase1 => none
  | .handoverPhase2 => none
  | .create => none
  | .registerObject => none
  | .sealContext => none
  | .getVersion => none
  | .getCapabilities => none
  | .negotiateAlgorithms => none
  | .getDigests => none
  | .getCertificate => none
  | .challenge => none
  | .getMeasurements => none
  | .keyExchange => none
  | .finish => none
  | .heartbeat => none
  | .keyUpdate => none
  | .endSession => none
  | .measurementExtend => none
  | .tagCheckPass => none
  | .integrity => none
  | .rdmaWrite => none
  | .rdmaReadRequest => none
  | .readReply => none
  | .acknowledgment => none
  | .managementMessage => none
  | .softErrorCorrected => none
  | .uncorrectable => none
  | .healthWindowExpiry => none
  | .coreRetire => none
  | .thermal => none
  | .supply => none
  | .shutdown => none
  | .debugUnlock => none
  | .duskEntry => none
  | .duskExit => none
  | .midnightEntry => none
  | .wake => none
  | .deviceReset => none
  | .storeCompletion => none
  | .barrierCommandReply => none
  | .journalReply => none
  | .connectionRequest => none

end Sys2Proof
end

