-- ==== Sys2Proof/Machine/Ops.lean ====
section
/-! DEFINITION. The named operations over cores, registers, memory and translation: reading and writing registers, taking a trap and
returning from one (R76–R79), completing an instruction with its loop test (R80), the physical map (R315), page walks (R319),
TLBs (R322) and instruction fetch (R112). -/

namespace Sys2Proof.Machine

/-- What a step answers. -/
abbrev Out := Host.Outcome State Fault Refusal

/-! ### The part's figures (R1, R2, R11) -/

/-- Columns of cores. -/
def Variant.columns : Variant → Nat
  | .y7 => 32
  | .y7l => 16

/-- The number of cores, in twelve rows. -/
def Variant.coreCount (v : Variant) : Nat := v.columns * 12

/-- The number of HBM stacks. -/
def Variant.stacks : Variant → Nat
  | .y7 => 8
  | .y7l => 4

/-- The number of compute dies. -/
def Variant.dies : Variant → Nat
  | .y7 => 2
  | .y7l => 1

/-- Hardware queue slots and user queues (R1). -/
def Variant.queueSlots : Variant → Nat
  | .y7 => 64
  | .y7l => 32

/-- User queues (R374). -/
def Variant.userQueues : Variant → Nat
  | .y7 => 4096
  | .y7l => 2048

/-- DEV_CAP (R2). -/
def Variant.devCap : Variant → Word
  | .y7 => 0x188E0
  | .y7l => 0x14411

/-- DEV_CAP.SUPD and DEV_CAP.RTLOG (R2, R3). -/
def Variant.full : Variant → Bool
  | .y7 => true
  | .y7l => false

/-- The column of a core (R11). -/
def Variant.cx (v : Variant) (core : Nat) : Nat := core % v.columns

/-- The row of a core (R11). -/
def Variant.cy (v : Variant) (core : Nat) : Nat := core / v.columns

/-- The core at a column and row (R11). -/
def Variant.coreAt (v : Variant) (x y : Nat) : Nat := y * v.columns + x

/-- The compute die of a core (R10). -/
def Variant.dieOf (v : Variant) (core : Nat) : Nat := v.cx core / 16

/-! ### Cores and contexts -/

/-- A core of the part. -/
def State.core (s : State) (c : Nat) : Core := Sparse.get Core.reset s.cores c

/-- Puts a core in place. -/
def State.setCore (s : State) (c : Nat) (k : Core) : State := { s with cores := Sparse.put s.cores c k }

/-- Changes a core. -/
def State.onCore (s : State) (c : Nat) (f : Core → Core) : State := s.setCore c (f (s.core c))

/-- The core whose turn it is. -/
def State.here (s : State) : Core := s.core s.cur.core

/-- Changes the core whose turn it is. -/
def State.on (s : State) (f : Core → Core) : State := s.onCore s.cur.core f

/-- Takes the next of the model's numbers of a core: of an access, a command, a request at a bank, a wait or a tile. -/
def Core.nextNumber (c : Core) : Core := { c with nextId := c.nextId + 1 }

/-- Whether the key slot of a context is filled (R408). -/
def Context.keys (c : Context) : Bool := c.slot.isSome

/-- A key slot filled from the random source, by four draws from a number on; the values are free (R404, R408; log entry 5). -/
def KeySlot.drawn (n : Nat) : KeySlot :=
  { pool := (Config.drawn256 n).setWidth 128, memory1 := Config.drawn256 (n + 1), memory2 := Config.drawn256 (n + 2),
    tag := (Config.drawn256 (n + 3)).setWidth 128 }

/-- The context of an owner tag. -/
def State.ctx (s : State) (t : BitVec 6) : Context := Sparse.get Context.reset s.ctxs t.toNat

/-- Changes the context of an owner tag. -/
def State.onCtx (s : State) (t : BitVec 6) (f : Context → Context) : State :=
  { s with ctxs := Sparse.put s.ctxs t.toNat (f (s.ctx t)) }

/-- Whether a context lives: OPEN or SEALED (R401, R404). -/
def Context.live (c : Context) : Bool := c.state == .opened || c.state == .closed

/-- The partition that holds a core; one that no PART transaction has named lies in partition 0 (log entry 2). -/
def State.partOf (s : State) (core : Nat) : Option (BitVec 5) :=
  if core < s.variant.coreCount && !s.unowned.contains core then some (Sparse.get 0 s.corePart core) else none

/-- Whether a core lies in the partition of the context that core `c` runs (R27). -/
def State.inPartition (s : State) (c core : Nat) : Bool :=
  decide (core < s.variant.coreCount) && s.partOf core == some (s.core c).ctxPart

/-- The cores of a region given by its registers REGION_ORG and REGION_EXT, in ascending place (R71, R391). -/
def regionCores (v : Variant) (org ext : BitVec 16) : List Nat :=
  (List.range (ext.extractLsb' 8 8).toNat).flatMap fun ry =>
    (List.range (ext.extractLsb' 0 8).toNat).map fun rx =>
      v.coreAt ((org.extractLsb' 0 8).toNat + rx) ((org.extractLsb' 8 8).toNat + ry)

/-- The cores of the region that a core runs in. -/
def State.region (s : State) (c : Nat) : List Nat := regionCores s.variant (s.core c).regionOrg (s.core c).regionExt

/-- The lead core of the region that a core runs in: its origin (R180, R344). -/
def State.lead (s : State) (c : Nat) : Nat :=
  s.variant.coreAt ((s.core c).regionOrg.extractLsb' 0 8).toNat ((s.core c).regionOrg.extractLsb' 8 8).toNat

/-! ### Registers (R70, R71, R101) -/

/-- Reads a scalar; s0 reads zero. -/
def Core.reg (c : Core) (r : SReg) : Word := if r = 0 then 0 else c.regs[r.toNat]

/-- Writes a scalar; a write of s0 is discarded. -/
def Core.setReg (c : Core) (r : SReg) (v : Word) : Core :=
  if r = 0 then c else { c with regs := c.regs.set r.toNat v }

/-- Reads a predicate; p0 reads true. -/
def Core.pred (c : Core) (p : PReg) : Bool := if p = 0 then true else c.preds[p.toNat]

/-- Writes a predicate; a write of p0 is discarded. -/
def Core.setPred (c : Core) (p : PReg) (v : Bool) : Core :=
  if p = 0 then c else { c with preds := c.preds.set p.toNat v }

/-- Counts one occurrence of an event in every counter that is enabled on it (R85, R86). -/
def Core.count (c : Core) (ev : BitVec 8) : Core :=
  { c with cnt := Vector.ofFn fun i => if c.cntEn[i] && c.cntEvent[i] == ev then c.cnt[i] + 1 else c.cnt[i] }

/-- Adds a number of cycles to every counter that is enabled on an event of cycles. -/
def Core.countBy (c : Core) (ev : BitVec 8) (n : Nat) : Core :=
  { c with cnt := Vector.ofFn fun i => if c.cntEn[i] && c.cntEvent[i] == ev then c.cnt[i] + BitVec.ofNat 64 n else c.cnt[i] }

/-- A core's clock runs on by `n` cycles (R7, R71, R86 events 0x01 and 0x15). -/
def Core.tickBy (c : Core) (n : Nat) : Core :=
  let c := { c with cycle := c.cycle + BitVec.ofNat 64 n }.countBy 0x01 n
  if c.lvl then c.countBy 0x15 n else c

/-- A fault is queued at a sequencer; a full queue sets OVF and loses it (R79). -/
def Core.raise (c : Core) (f : AsyncFault) : Core :=
  if c.faults.length < 16 then { c with faults := c.faults ++ [f] } else { c with ovf := true }

/-- A fault takes its place among faults that arrive in the same cycle: ascending code, and ascending UNIT for equal codes (R79). -/
def insertFault (f : AsyncFault) : List AsyncFault → List AsyncFault
  | [] => [f]
  | g :: gs => if g.code.toNat * 256 + g.unit.toNat ≤ f.code.toNat * 256 + f.unit.toNat then g :: insertFault f gs else f :: g :: gs

/-- Faults that arrive at a sequencer in the same cycle are queued (R79). -/
def Core.raiseTogether (c : Core) (fs : List AsyncFault) : Core := (fs.foldl (fun l f => insertFault f l) []).foldl Core.raise c

/-- Changes of the state that belong to one cycle, in their order: the faults that they raise at a core are queued together; a core whose
launch they end keeps none (R79). -/
def State.oneCycle (s : State) (fs : List (State → State)) : State :=
  let quiet (s : State) : State := { s with cores := s.cores.map fun e => (e.1, { e.2 with faults := [] }) }
  let r : State × List (Nat × AsyncFault) := fs.foldl (fun a f =>
      let t := f a.1
      (quiet t, a.2 ++ t.cores.flatMap fun e => e.2.faults.map fun g => (e.1, g))) (quiet s, [])
  { r.1 with cores := r.1.cores.map fun e =>
      (e.1, if e.2.run = (s.core e.1).run then
          Core.raiseTogether { e.2 with faults := (s.core e.1).faults } ((r.2.filter fun g => g.1 == e.1).map (·.2))
        else e.2) }

/-- Queues an asynchronous fault at a core. -/
def State.raise (s : State) (core : Nat) (code : BitVec 8) (srck : BitVec 3) (unit : Nat) (tval : Word) : State :=
  s.onCore core fun c => c.raise ⟨code, srck, BitVec.ofNat 8 unit, tval⟩

/-! ### Device memory (R5, R315) -/

/-- What a byte of device memory holds; an unlisted byte holds 0x00 (log entry 4). -/
def readByte (m : List Host.Cell) (a : Nat) : Byte := Sparse.get 0#8 m a

/-- Writes a byte, keeping the canonical form. -/
def writeByte (m : List Host.Cell) (a : Nat) (b : Byte) : List Host.Cell := Sparse.set 0#8 m a b

/-- The canonical form of device memory. -/
def Memory.wf (m : List Host.Cell) : Bool := Sparse.wf 0#8 m

/-- The little-endian value of `n` bytes. -/
def readMem (m : List Host.Cell) (a : Nat) : Nat → Nat
  | 0 => 0
  | n + 1 => (readByte m a).toNat + 256 * readMem m (a + 1) n

/-- The bytes of memory in ascending addresses. -/
def readBytes (m : List Host.Cell) (a : Nat) : Nat → List Byte
  | 0 => []
  | n + 1 => readByte m a :: readBytes m (a + 1) n

/-- Writes bytes at ascending addresses. -/
def writeBytes (m : List Host.Cell) (a : Nat) : List Byte → List Host.Cell
  | [] => m
  | b :: bs => writeBytes (writeByte m a b) (a + 1) bs

/-- The stack-linear address of the byte that a physical address names, in either window; none outside the map (R315). -/
def canonical (v : Variant) (p : Nat) : Option Nat :=
  if p < 2 ^ 48 then
    if p / 2 ^ 36 < v.stacks && p % 2 ^ 36 < 0xAC0000000 then some p else none
  else
    let q := p - 2 ^ 48
    let d := q / 2 ^ 38
    let o := q % 2 ^ 38
    let g := o / 4096
    if d < v.dies && o < 0x2B00000000 then some ((4 * d + g % 4) * 2 ^ 36 + (g / 4) * 4096 + o % 4096) else none

/-- The stack of a stack-linear address. -/
def stackOf (a : Nat) : Nat := a / 2 ^ 36

/-- Whether an access of owner tag `t` is admitted by the page-owner table (R413, R416): the page's tag is `t` and it is not FAILED. -/
def State.owned (s : State) (t : BitVec 6) (a : Nat) : Bool :=
  Sparse.get 0#7 s.pot (a / 65536) == t.setWidth 7

/-! ### Events to the host (R415, R437, R438) -/

/-- The tag checks that hold what protected context `t` would send now (R415). -/
def State.checksOf (s : State) (t : BitVec 6) : List Nat :=
  if (s.ctx t).prot then (s.checks.filter (fun k => k.tag == t)).map (·.id) else []

/-- The eight bytes of a qword. -/
def qwordBytes (w : Word) : List Byte := bytesOf 8 w.toNat

/-- An event of 32 bytes to the host (R437). -/
def State.emit (s : State) (code : BitVec 8) (tag : BitVec 6) (stack : BitVec 3) (core : Nat) (kind : BitVec 8) (d0 d1 : Word) :
    State :=
  let q0 : Word := BitVec.ofNat 64
    (code.toNat + tag.toNat * 2 ^ 8 + stack.toNat * 2 ^ 16 + (core % 512) * 2 ^ 32 + kind.toNat * 2 ^ 56)
  { s with outbox := s.outbox ++
      [{ qword0 := 0x0000_0020_0000_0006, qword1 := 0,
         payload := qwordBytes q0 ++ qwordBytes d0 ++ qwordBytes d1 ++ qwordBytes s.mcycle,
         device := 0, tag := tag, waits := s.checksOf tag, gcm := 0, seq := none }] }

/-! ### Sealed messages (R413, R435) -/

/-- The little-endian number of some bytes. -/
def bytesNat : List Byte → Nat
  | [] => 0
  | b :: bs => b.toNat + 256 * bytesNat bs

/-- The key under which messages between a protected context and the host, or a remote device, are sealed, as bytes that tell it apart, with the count of
messages under it: the session key of the tenant (R435), or the peer key (R413; log entry 33). -/
def State.sealing (s : State) (tag : BitVec 6) (dev : Option (BitVec 16)) : Option (List Byte × BitVec 64) :=
  match dev with
  | some d => (Sparse.find (s.ctx tag).peerKeys d.toNat).map fun n => (bytesOf 8 (2 ^ 63 + 64 * d.toNat + tag.toNat), n)
  | none =>
    match (s.ctx tag).session with
    | none => none
    | some k =>
      match Sparse.find s.spdm.sessions k with
      | none => none
      | some x => if x.finished && !x.wrapped then some (bytesOf 8 k ++ bytesOf 8 x.keyGen, x.count) else none

/-- Changes a session. -/
def State.putSession (s : State) (k : Nat) (x : Session) : State :=
  { s with spdm := { s.spdm with sessions := Sparse.put s.spdm.sessions k x } }

/-- A message has been sealed or opened: the count under its key moves on. -/
def State.countSealed (s : State) (tag : BitVec 6) (dev : Option (BitVec 16)) : State :=
  match dev with
  | some d => s.onCtx tag fun c => { c with peerKeys := Sparse.put c.peerKeys d.toNat (((Sparse.find c.peerKeys d.toNat).getD 0) + 1) }
  | none =>
    match (s.ctx tag).session with
    | none => s
    | some k =>
      match Sparse.find s.spdm.sessions k with
      | none => s
      | some x => s.putSession k { x with count := x.count + 1 }

/-- The GCM tag of a message sealed under a key: the header is the additional data, the count the nonce (R435). Its value is free (log entry 5). -/
def sealTag (key : List Byte) (count : BitVec 64) (q0 q1 : Word) (payload : List Byte) : BitVec 128 :=
  (Config.cryptoResult 2048 (bytesNat (key ++ bytesOf 8 count.toNat ++ qwordBytes q0 ++ qwordBytes q1 ++ payload))).extractLsb' 0 128

/-- Sends a message to the host or to a remote device; one that is SEALED takes its GCM tag, and none goes out without a key (R435). -/
def State.post (s : State) (dev : Option (BitVec 16)) (o : Outgoing) : State :=
  if !o.qword0.getLsbD 8 then { s with outbox := s.outbox ++ [o] }
  else
    match s.sealing o.tag dev with
    | none => s
    | some (k, n) => { s.countSealed o.tag dev with outbox := s.outbox ++ [{ o with gcm := sealTag k n o.qword0 o.qword1 o.payload }] }

/-! ### The memory network: its links, paths and attachments (R17, R18, R403) -/

/-- The core to which the link of a core in a direction (0 north, 1 east, 2 south, 3 west) leads, if there is one; the links across the die
seam join columns 15 and 16 (R17). -/
def Variant.beside (v : Variant) (c dir : Nat) : Option Nat :=
  let x := v.cx c
  let y := v.cy c
  match dir with
  | 0 => if y = 0 then none else some (v.coreAt x (y - 1))
  | 1 => if x + 1 < v.columns then some (v.coreAt (x + 1) y) else none
  | 2 => if y + 1 < 12 then some (v.coreAt x (y + 1)) else none
  | _ => if x = 0 then none else some (v.coreAt (x - 1) y)

/-- The opposite direction. -/
def opposite (dir : Nat) : Nat := (dir + 2) % 4

/-- Whether the memory network may cross from a core in a direction to its neighbour (R403). -/
def State.networkPermit (s : State) (a dir b : Nat) : Bool :=
  (Sparse.get 0#8 s.permit a).getLsbD (4 + dir) && (Sparse.get 0#8 s.permit b).getLsbD (4 + opposite dir)

/-- The direction in which the node of a core passes on a packet for another: X first and then Y, until a ROUTE transaction changes its
path table (R18). -/
def State.pathStep (s : State) (c dst : Nat) : Nat :=
  let w := Sparse.get 0 s.paths c
  if w ≠ 0 then Config.pathDirection w dst % 4
  else if s.variant.cx c < s.variant.cx dst then 1
  else if s.variant.cx dst < s.variant.cx c then 3
  else if s.variant.cy c < s.variant.cy dst then 2
  else 0

/-- What becomes of a packet on its path. -/
inductive PacketFate where
  | arrives
  /-- It would cross the link of a core in a direction that has no permit. -/
  | denied (core dir : Nat)
  /-- The path tables lead it round, or off the grid. -/
  | astray
  deriving DecidableEq, Repr

/-- Follows the path tables to a core; the first argument bounds the hops. -/
def State.fateFrom (s : State) (dst : Nat) : Nat → Nat → PacketFate
  | 0, c => if c = dst then .arrives else .astray
  | fuel + 1, c =>
    if c = dst then .arrives
    else
      let d := s.pathStep c dst
      match s.variant.beside c d with
      | none => .astray
      | some b => if s.networkPermit c d b then s.fateFrom dst fuel b else .denied c d

/-- What becomes of a packet between two cores. -/
def State.fate (s : State) (src dst : Nat) : PacketFate := s.fateFrom dst s.variant.coreCount src

/-- The core at whose node the traffic of a core and a stack joins the stack's base die: stacks 0–1 and 4–5 on the north edge of their compute
die, 2–3 and 6–7 on the south edge, each along eight columns of it, of which the nearest to the core is taken (R17; log entry 59). -/
def Variant.stackGate (v : Variant) (core k : Nat) : Nat :=
  let x0 := k / 4 * 16 + k % 2 * 8
  v.coreAt (max x0 (min (v.cx core) (x0 + 7))) (if k % 4 < 2 then 0 else 11)

/-- The core at whose node port die 0, with the management complex, or port die 1 joins the network, in a row (R17). -/
def Variant.portGate (v : Variant) (die row : Nat) : Nat := v.coreAt (if die = 0 then 0 else v.columns - 1) row

/-- The port die that serves the remote traffic of a core: that of its compute die (R10; log entry 59). -/
def Variant.portDie (v : Variant) (core : Nat) : Nat := v.dieOf core % 2

/-- What becomes of a request between two nodes and of its answer on the way back. -/
def State.roundTrip (s : State) (a b : Nat) : PacketFate :=
  match s.fate a b with
  | .arrives => s.fate b a
  | f => f

/-- What becomes of a core's request to a physical address and of its answer (R17, R18). -/
def State.memoryFate (s : State) (core a : Nat) : PacketFate := s.roundTrip core (s.variant.stackGate core (stackOf a))

/-- What becomes of a request of the management complex, or of a port of port die 0, to a physical address, which enters the mesh in the row of the
stack's edge (R17, R18). -/
def State.portFate (s : State) (a : Nat) : PacketFate :=
  let src := s.variant.portGate 0 (if stackOf a % 4 < 2 then 0 else 11)
  s.roundTrip src (s.variant.stackGate src (stackOf a))

/-- What becomes of a core's request to its port die (R17, R18). -/
def State.remoteFate (s : State) (core : Nat) : PacketFate :=
  s.roundTrip core (s.variant.portGate (s.variant.portDie core) (s.variant.cy core))

/-- A packet that was dropped at a link without a permit leaves a record of PERMIT_DENY with the host, by its tag (R18, R403, R437, R438). -/
def State.recordDeny (s : State) (f : PacketFate) (tag : BitVec 6) : State :=
  match f with
  | .denied _ _ => s.emit 0x26 tag 0 0 0 0 0
  | _ => s

/-- Goes on where a packet arrives. One that is dropped is recorded and one that is led astray is lost; its unit sends it again at another turn
(R18; log entry 59). -/
def State.ifArrives (s : State) (f : PacketFate) (tag : BitVec 6) (body : Out) : Out :=
  if f = .arrives then body else .next (s.recordDeny f tag)

/-- Whether a sparse-update unit's window holds an entry for some of the bytes (R330). -/
def State.inWindow (s : State) (a n : Nat) : Bool :=
  s.supd.any fun u => u.window.any fun e => decide (a < e.phys + e.size) && decide (e.phys < a + n)

/-- The code of a read that has no answer yet; no trap has it. -/
abbrev noAnswer : BitVec 8 := 0

/-- A read of `n` bytes that a core makes within a step: it has no answer where it waits for entries of a window that arrived before it, or where
its packet is dropped (R18, R330). -/
def State.readNow (s : State) (core a n : Nat) : State × Except (BitVec 8) Nat :=
  if s.inWindow a n then (s, .error noAnswer)
  else
    let f := s.memoryFate core a
    if f = .arrives then (s, .ok (readMem s.mem a n)) else (s.recordDeny f (s.core core).ctxTag, .error noAnswer)

/-! ### Translation (R317–R322) -/

/-- What an access needs (R320). -/
inductive Need where
  | read
  | write
  | fetch
  deriving DecidableEq, Repr

/-- Translation fault codes (R320). -/
abbrev xlateNp : BitVec 8 := 0x10
abbrev xlatePerm : BitVec 8 := 0x11
abbrev xlateExec : BitVec 8 := 0x12

/-- Whether an entry is malformed at a level (R319). -/
def malformed (v : Variant) (e : BitVec 64) (lvl : Nat) : Bool :=
  let leaf := e.getLsbD 1
  let w := e.getLsbD 2
  let x := e.getLsbD 3
  let ch := e.getLsbD 4
  let pa := (e.extractLsb' 16 36).toNat
  e.extractLsb' 52 12 != 0 || e.extractLsb' 5 11 != 0 || (leaf && lvl == 1) || (!leaf && lvl == 3) || (w && x) ||
    (ch && lvl != 3) || (!leaf && (w || x || ch)) || (leaf && lvl == 2 && pa % 2 ^ 13 != 0) ||
    (canonical v (pa * 65536)).isNone

/-- The entry of a table at a physical address, read with tag 0 (R319, R413); none where no such read is possible. -/
def State.tableEntry (s : State) (t i : Nat) : Option (BitVec 64) :=
  match canonical s.variant (t + 8 * i) with
  | none => none
  | some a => if s.owned 0 a then some (BitVec.ofNat 64 (readMem s.mem a 8)) else none

/-- The walk from level `4 − fuel` on (R319). -/
def State.walkFrom (s : State) (va : Nat) : Nat → Nat → Option TlbEntry
  | 0, _ => none
  | fuel + 1, t =>
    let lvl := 3 - fuel
    match s.tableEntry t (va / 2 ^ (16 + 13 * fuel) % 8192) with
    | none => none
    | some e =>
      let pa := (e.extractLsb' 16 36).toNat * 65536
      if !e.getLsbD 0 || malformed s.variant e lvl then none
      else if e.getLsbD 1 then
        let size := if lvl = 2 then 2 ^ 29 else 65536
        some { tag := 0, base := va / size * size, size := size, phys := pa, w := e.getLsbD 2, x := e.getLsbD 3,
               ch := e.getLsbD 4 }
      else s.walkFrom va fuel pa

/-- A page-table walk for a context; none is XLATE_NP (R319). -/
def State.walk (s : State) (t : BitVec 6) (va : Nat) : Option TlbEntry :=
  (s.walkFrom va 3 (s.ctx t).root.toNat).map fun e => { e with tag := t }

/-- Whether a TLB entry translates an address of a context. -/
def TlbEntry.covers (e : TlbEntry) (t : BitVec 6) (va : Nat) : Bool :=
  e.tag == t && decide (e.base ≤ va) && decide (va < e.base + e.size)

/-- Holds an entry in the first-level TLB of a core and the second-level TLB of its die, the latest in place of the oldest (R322;
log entry 7). -/
def State.cacheTranslation (s : State) (core : Nat) (e : TlbEntry) : State :=
  let d := s.variant.dieOf core % 2
  { s.onCore core fun c => { c with tlb := (e :: c.tlb).take 1024 } with
      tlb2 := if h : d < 2 then s.tlb2.set d ((e :: s.tlb2[d]).take 32768) else s.tlb2 }

/-- The tables that a walk reads from level `4 − fuel` on, by the address of the entry (R319). -/
def State.walkReads (s : State) (va : Nat) : Nat → Nat → List Nat
  | 0, _ => []
  | fuel + 1, t =>
    let i := va / 2 ^ (16 + 13 * fuel) % 8192
    match canonical s.variant (t + 8 * i) with
    | none => []
    | some a => a :: match s.tableEntry t i with
      | none => []
      | some e => if !e.getLsbD 0 || malformed s.variant e (3 - fuel) || e.getLsbD 1 then []
        else s.walkReads va fuel ((e.extractLsb' 16 36).toNat * 65536)

/-- What becomes of the reads of a core's walk: the first that does not arrive (R17, R18). -/
def State.walkFate (s : State) (core : Nat) (t : BitVec 6) (va : Nat) : PacketFate :=
  (((s.walkReads va 3 (s.ctx t).root.toNat).map (s.memoryFate core)).find? (· != .arrives)).getD .arrives

/-- The translation that an access of a core finds: in the first level, in the second, or by a walk (R322). -/
def State.findTranslation (s : State) (core : Nat) (t : BitVec 6) (va : Nat) : State × Option TlbEntry :=
  match (s.core core).tlb.find? (·.covers t va) with
  | some e => (s, some e)
  | none =>
    let d := s.variant.dieOf core % 2
    let second := if h : d < 2 then s.tlb2[d].find? (·.covers t va) else none
    match second with
    | some e => (s.onCore core fun c => { c with tlb := (e :: c.tlb).take 1024 }, some e)
    | none =>
      match s.walk t va with
      | some e => (s.cacheTranslation core e, some e)
      | none => (s, none)

/-- Whether an access of a core needs a walk: no TLB holds its translation (R322). -/
def State.needsWalk (s : State) (core : Nat) (t : BitVec 6) (va : Nat) : Bool :=
  let d := s.variant.dieOf core % 2
  !((s.core core).tlb.any (·.covers t va) || (if h : d < 2 then s.tlb2[d].any (·.covers t va) else false))

/-- What an access to a translated page reaches: the stack-linear address, or the fault of R320 and R413. -/
def State.reach (s : State) (t : BitVec 6) (need : Need) (va : Nat) (e : TlbEntry) : Except (BitVec 8) Nat :=
  match need, e.w, e.x with
  | .write, false, _ => .error xlatePerm
  | .fetch, _, false => .error xlateExec
  | _, _, _ =>
    match canonical s.variant (e.phys + (va - e.base)) with
    | none => .error xlateNp
    | some a => if s.owned t a then .ok a else .error xlateNp

/-- Translates an address for an access by owner tag `t` through the translation unit of a core (R319, R320, R413); a walk whose reads are
dropped on their way has no answer (R18). -/
def State.translate (s : State) (core : Nat) (t : BitVec 6) (need : Need) (va : Word) : State × Except (BitVec 8) Nat :=
  if va.extractLsb' 55 9 != 0#9 then (s, .error xlateNp)
  else if s.needsWalk core t va.toNat && s.walkFate core t va.toNat != .arrives then
    (s.recordDeny (s.walkFate core t va.toNat) t, .error noAnswer)
  else
    match s.findTranslation core t va.toNat with
    | (s, none) => (s, .error xlateNp)
    | (s, some e) => (s, s.reach t need va.toNat e)

/-! ### Launches that hold a core, and their end (R386, R439) -/

/-- The cores of a launch's region. -/
def Launch.cores (v : Variant) (l : Launch) : List Nat :=
  (List.range l.rows).flatMap fun ry => (List.range l.cols).map fun rx => v.coreAt (l.ox + rx) (l.oy + ry)

/-- The launch that holds a core. -/
def State.launchOf (s : State) (core : Nat) : Option Launch :=
  s.launches.find? fun l => l.placed && (l.cores s.variant).contains core

/-- Whether a launch runs on a core: one that stands saved for a hand-over runs no more (R397, R441). -/
def State.runsOn (s : State) (core : Nat) : Bool := s.launches.any fun l => l.placed && !l.saved && (l.cores s.variant).contains core

/-- The place of a core in the region of a launch (R391). -/
def Launch.place (v : Variant) (l : Launch) (core : Nat) : Nat := (v.cy core - l.oy) * 32 + (v.cx core - l.ox)

/-- The launches that stand saved. -/
def State.savedLaunches (s : State) : List Launch := s.saves.flatMap fun a => a.saved.map (·.launch)

/-- The lead core of a launch. -/
def State.launchLead (s : State) (l : Launch) : Nat := s.variant.coreAt l.ox l.oy

/-- Whether the bound of a PENDING region that stands at no checkpoint point has passed, by its lead core's clock (R393). -/
def State.overdue (s : State) (l : Launch) : Bool :=
  l.pending && l.point.isNone && decide (2 ^ l.bound ≤ ((s.core (s.launchLead l)).cycle - l.asked).toNat)

/-- Whether the region of a core is stopped: it stands at its checkpoint point, its checkpoint bound has passed, or it is saved for a
handover (R390, R393, R397). -/
def State.isStopped (s : State) (core : Nat) : Bool :=
  s.launches.any fun l => l.placed && (l.stopped || l.saved || l.point.isSome || s.overdue l) && (l.cores s.variant).contains core

/-- Whether the launch on a core runs in deterministic mode (R425). -/
def State.isDet (s : State) (core : Nat) : Bool := (s.launchOf core).any (·.det)

/-! ### Sequence numbers of deterministic mode (R428) -/

/-- 0xF_FFFF, which OWN never is. -/
abbrev noSeq : BitVec 20 := 0xFFFFF

/-- OWN of a sender's operation number n to an interface. -/
def seqOwn (n : Nat) : BitVec 20 := BitVec.ofNat 20 (n % 0xFFFFF)

/-- The numbers of operation n of a stream or drain epoch of a unit to one interface; none outside deterministic mode. -/
def State.seqNums (s : State) (core unit n : Nat) (last : Bool) : Option SeqNums :=
  match s.launchOf core with
  | none => none
  | some l =>
    if l.det then
      some { launch := l.id, place := l.place s.variant core, unit := unit, own := seqOwn n, pred := if n = 0 then noSeq else seqOwn (n - 1),
             succ := if last then noSeq else seqOwn (n + 1) }
    else none

/-- The numbers of a sequencer's ST or AMO: PRED = SUCC = 0xF_FFFF and OWN = 0. -/
def State.seqPlain (s : State) (core : Nat) : Option SeqNums := s.seqNums core 8 0 true

/-- Whether two operations have one sender key. -/
def SeqNums.sameSender (a b : SeqNums) : Bool := a.launch == b.launch && a.place == b.place && a.unit == b.unit

/-- An interface applies an operation: it is held until its predecessor has been applied, and the last of its chain frees it (R329, R428). -/
def chainStep (cs : List Chain) (die : Nat) (q : SeqNums) : Option (List Chain) :=
  let mine (c : Chain) : Bool := c.die == die && c.last.sameSender q
  let ready := if q.pred = noSeq then true else (cs.find? mine).any fun c => c.last.own == q.pred
  if !ready then none
  else
    let rest := cs.filter fun c => !mine c
    some (if q.succ = noSeq then rest else rest ++ [⟨die, q⟩])

/-- An operation without numbers waits for no chain. -/
def chainStepOf (cs : List Chain) (die : Nat) : Option SeqNums → Option (List Chain)
  | none => some cs
  | some q => chainStep cs die q

/-- The chains of a unit of a core end with its stream or drain epoch. -/
def State.endChains (s : State) (core unit : Nat) : State :=
  match s.launchOf core with
  | none => s
  | some l =>
    let p := l.place s.variant core
    { s with chains := s.chains.filter fun c => !(c.last.launch == l.id && c.last.place == p && c.last.unit == unit) }

/-- A sequencer and its engines stop for good: the launch on the core has ended. -/
def Core.endPart (c : Core) (r : Run) : Core :=
  { c with run := r, wait := .none, accesses := [], awaited := [], faults := [], engines := Vector.replicate 8 Engine.reset,
           endAsked := false, router := { c.router with stores := [] },
           banks := c.banks.map fun b => { b with queue := [], parked := [] },
           pools := c.pools.map fun p => { p with queue := [], rsv := [] } }

/-- The core of a requester. -/
def Requester.core : Requester → Nat
  | .seq c => c
  | .elem c _ => c
  | .stream c _ _ => c

/-- A bank without the requests of some cores. -/
def Bank.without (b : Bank) (cores : List Nat) : Bank :=
  { b with queue := b.queue.filter fun r => !cores.contains r.who.core, parked := b.parked.filter fun r => !cores.contains r.who.core }

/-- A pool without the requests and reservations of some cores. -/
def Pool.without (p : Pool) (cores : List Nat) : Pool :=
  { p with queue := p.queue.filter fun q => !cores.contains q.who.core, rsv := p.rsv.filter fun r => !cores.contains r.1 }

/-- What the cores of an ended region have asked of the pools of any core is withdrawn, with their reservations (R282). -/
def State.dropPoolClaims (s : State) (cores : List Nat) : State :=
  { s with cores := s.cores.map fun e => (e.1, { e.2 with
             banks := e.2.banks.map fun b => b.without cores, pools := e.2.pools.map fun p => p.without cores }) }

/-- What travels to or from an ended region is lost with it. -/
def State.dropTraffic (s : State) (cores : List Nat) : State :=
  { s.dropPoolClaims cores with
           flights := s.flights.filter (fun f => match f.dst with
              | .port c _ _ => !cores.contains c
              | .data c _ _ => !cores.contains c
              | .take c => !cores.contains c),
           net := s.net.filter (fun p => !(cores.contains p.src && cores.contains p.dst)),
           supd := s.supd.map fun u => { u with waiting := u.waiting.filter (fun q => !cores.contains q.part.core),
                                                coming := u.coming.filter fun q => !cores.contains q.part.core },
           credits := s.credits.filter (fun k => match k.dst with
              | .port c _ _ => !cores.contains c
              | .data c _ _ => !cores.contains c
              | .take c => !cores.contains c),
           regions := s.regions.filter (fun r => !cores.contains r.lead) }

/-- Ends a running launch without a completion signal (R386, R439); the journal looks again at what its cores held up (R351). -/
def State.endLaunch (s : State) (l : Launch) : State :=
  let cs := l.cores s.variant
  let s := cs.foldl (fun s c => s.onCore c fun k => k.endPart (if k.run = .doubleTrap then .doubleTrap else .idle)) s
  let s := s.dropTraffic cs
  { s with launches := s.launches.filter (fun m => m.id != l.id), chains := s.chains.filter (fun c => c.last.launch != l.id), journal := { s.journal with unsettled := true } }

/-- The address of a qword that the management complex reaches through a context's tables, if it may (R319, R320, R413). -/
def State.reachWord (s : State) (tag : BitVec 6) (need : Need) (va : Word) : Option Nat :=
  if va.extractLsb' 55 9 != 0#9 then none
  else (s.walk tag va.toNat).bind fun e => (s.reach tag need va.toNat e).toOption


/-- The slot that a queue id is mapped on. -/
def State.slotOfQueue (s : State) (qid : Nat) : Option Nat := (s.slots.find? fun e => e.2.qid == qid).map (·.1)

/-- RIDX of a queue: its slot's, or that of its control block. -/
def State.queueRidx (s : State) (qid : Nat) : Word :=
  match (s.slotOfQueue qid).bind (Sparse.find s.slots), Sparse.find s.queues qid with
  | some q, _ => q.q.ridx
  | none, some u => ((s.reachWord u.tag .read (u.qcb + 0x18)).map fun a => BitVec.ofNat 64 (readMem s.mem a 8)).getD 0
  | none, none => 0

/-- Writes the bits of a mask in a qword of a queue control block, where it can be reached, and tells the host the error that it follows (R375,
R376). -/
def State.doQcb (s : State) (w : QcbWrite) : State :=
  let s := match s.reachWord w.queue.tag .write (w.queue.qcb + BitVec.ofNat 64 w.off) with
    | none => s
    | some a =>
      if s.portFate a != .arrives then s.recordDeny (s.portFate a) w.queue.tag
      else { s with mem := writeBytes s.mem a (bytesOf 8 ((BitVec.ofNat 64 (readMem s.mem a 8) &&& ~~~w.mask) ||| w.bits).toNat) }
  match w.report with
  | none => s
  | some (qid, err) => s.emit err w.queue.tag 0 0 1 (BitVec.ofNat 64 (qid + err.toNat * 2 ^ 16)) (s.queueRidx qid)

/-- Whether a change of a control block waits for updates of its words (R330). -/
def State.qcbHeld (s : State) (w : QcbWrite) : Bool := ((s.reachWord w.queue.tag .read w.queue.qcb).map fun a => s.inWindow a 128).getD false

/-- The changes of control blocks that wait for nothing are made, in order. -/
def State.flushQcb : List QcbWrite → State → State
  | [], s => { s with qcbWrites := [] }
  | w :: ws, s => if s.qcbHeld w then { s with qcbWrites := w :: ws } else State.flushQcb ws (s.doQcb w)

/-- Changes a qword of a queue control block, after those that wait and once no update of its words is in the way (R330, R376). -/
def State.onQcb (s : State) (w : QcbWrite) : State := State.flushQcb (s.qcbWrites ++ [w]) s

/-- A change of STATE and ERR in the qword at 0x08 of a queue control block. -/
def UserQueue.stateWrite (u : UserQueue) (st : BitVec 2) (err : BitVec 8) (report : Option (Nat × BitVec 8)) : QcbWrite :=
  ⟨u, 8, 0xFF300000, BitVec.ofNat 64 (st.toNat * 2 ^ 20 + err.toNat * 2 ^ 24), report⟩

/-- A change of RIDX in a queue control block. -/
def UserQueue.ridxWrite (u : UserQueue) (r : Word) : QcbWrite := ⟨u, 0x18, BitVec.allOnes 64, r, none⟩

/-- A change of AGE in a queue control block. -/
def UserQueue.ageWrite (u : UserQueue) (n : Nat) : QcbWrite := ⟨u, 0x20, 0xFFFF, BitVec.ofNat 64 (n % 65536), none⟩

/-- A queue leaves ACTIVE with an error: STATE and ERR are set in its slot and its control block, and then the host is told (R374, R375). -/
def State.queueError (s : State) (qid : Nat) (st : BitVec 2) (err : BitVec 8) : State :=
  match Sparse.find s.queues qid with
  | none => s
  | some u =>
    let s := match s.slotOfQueue qid with
      | none => s
      | some k =>
        match Sparse.find s.slots k with
        | none => s
        | some q =>
          { s with slots := Sparse.put s.slots k { q with q := { q.q with state := st, err := err }, granted := false, head := none } }
    s.onQcb (u.stateWrite st err (some (qid, err)))

/-- DOUBLE_TRAP: the sequencer stops, its launch ends without a signal, its queue goes to ERROR with 0x0F and the host is told
(R79, R438, R439). -/
def State.doubleTrap (s : State) (core : Nat) (cause epc : Word) : State :=
  let s := s.onCore core fun c => { c with run := .doubleTrap, wait := .none }
  let s := s.emit 0x0F (s.core core).ctxTag 0 core 0 cause epc
  match s.launchOf core with
  | none => s
  | some l =>
    let s := s.endLaunch l
    match l.qid with
    | some q => s.queueError q 1 0x0F
    | none => s

/-! ### Traps (R76–R79) -/

/-- TCAUSE of a trap (R78). -/
def trapCause (code : BitVec 8) (srck : BitVec 3) (unit : BitVec 8) (async : Bool) : Word :=
  BitVec.ofNat 64 (unit.toNat * 2 ^ 16 + srck.toNat * 2 ^ 9 + async.toNat * 2 ^ 8 + code.toNat)

/-- Entry into the handler (R79): EPC, TCAUSE, TVAL and TSTAT as given, the pc at TVEC. -/
def Core.enterTrap (c : Core) (epc cause val : Word) : Core :=
  { c.count 0x10 with
      epc := epc, tcause := cause, tval := val, plvl := c.lvl, lvl := true, tin := true, wait := .none, pc := c.tvec }

/-- A precise fault of the instruction in issue, with its SRCK and UNIT: the trap is taken with EPC at the instruction; in a handler
it is DOUBLE_TRAP instead (R76, R79). -/
def State.preciseFrom (s : State) (core : Nat) (code : BitVec 8) (srck : BitVec 3) (unit : Nat) (val : Word) : State :=
  let c := s.core core
  let cause := trapCause code srck (BitVec.ofNat 8 unit) false
  if c.tin then s.doubleTrap core cause c.pc else s.setCore core (c.enterTrap c.pc cause val)

/-- A precise fault of the sequencer itself (SRCK 0) at the core whose turn it is. -/
def State.precise (s : State) (code : BitVec 8) (val : Word) : State := s.preciseFrom s.cur.core code 0 0 val

/-- ERET (R79, R133): the pc takes EPC without its bits 1:0, LVL takes PLVL, TIN clears. -/
def Core.returnTrap (c : Core) : Core :=
  { c with pc := c.epc &&& ~~~3#64, lvl := c.plvl, tin := false }

/-! ### Completing an instruction (R80) -/

/-- The count of a level. -/
def Loops.count (l : Loops) (n : BitVec 2) : BitVec 32 := l.lc[n.toNat]

/-- The back-edge test over the active levels, the most recent first, for an instruction at `a`: the pc becomes the loop's start, or
`next` when no level turns back. -/
def Core.scanLoops (a next : Word) : List (BitVec 2) → Core → Core
  | [], c => { c with pc := next }
  | n :: ns, c =>
    if c.loops.le[n.toNat] = a then
      if 1 < (c.loops.lc[n.toNat]).toNat then
        { c.count 0x11 with
            loops := { c.loops with lc := c.loops.lc.set n.toNat (c.loops.lc[n.toNat] - 1) }, pc := c.loops.ls[n.toNat] }
      else
        Core.scanLoops a next ns
          { c with loops := { c.loops with lc := c.loops.lc.set n.toNat 0, active := c.loops.active.filter (· != n) } }
    else Core.scanLoops a next ns c

/-- An instruction at the pc, `len` bytes long, completes without transferring control (R80, R86 event 0x02). -/
def Core.finish (c : Core) (len : Nat) : Core :=
  let c := c.count 0x02
  let next := c.pc + BitVec.ofNat 64 len
  if c.tin then { c with pc := next } else Core.scanLoops c.pc next c.loops.active c

/-- A code address with bits 1:0 non-zero (R87). -/
def misaligned (a : Word) : Bool := a &&& 3#64 != 0#64

/-- The instruction completes in state `post`, having been issued in `pre`; a back-edge to a misaligned start traps at it with no
effect (R76, R80, R87). -/
def State.retire (pre post : State) (len : Nat) : State :=
  let c := (post.core pre.cur.core).finish len
  if misaligned c.pc then pre.precise 0x02 c.pc else post.setCore pre.cur.core c

/-- An instruction whose effect begins before it completes: a back-edge of it to a misaligned start traps first, with no effect (R76,
R80, R87). -/
def State.begun (s : State) (body : Out) : Out :=
  if misaligned (s.here.finish 4).pc then .next (s.precise 0x02 (s.here.finish 4).pc) else body

/-- A register instruction: its effect on the core, then completion. -/
def State.issue (s : State) (len : Nat) (f : Core → Core) : Out := .next (s.retire (s.on f) len)

/-- A command under a predicate: a false one completes and changes nothing (R75, R98). -/
def State.guarded (s : State) (p : PReg) (body : Out) : Out :=
  if s.here.pred p then body else s.issue 4 id

/-- A command that writes a status or value to d and completes. -/
def State.answer (pre post : State) (d : SReg) (v : Word) : Out :=
  .next (pre.retire (post.onCore pre.cur.core fun c => c.setReg d v) 4)

/-- A transfer of control of the instruction at the pc, with what it writes besides: the target's bits 1:0 must be zero, or it traps
MISALIGN with no effect; no loop test runs (R80, R87, R112). -/
def State.transfer (s : State) (target : Word) (f : Core → Core) : Out :=
  if misaligned target then .next (s.precise 0x02 target)
  else .next (s.on fun c => { ((f c).count 0x02).count 0x04 with pc := target })

/-! ### Instruction fetch (R112, R325) -/

/-- Fetches the word at a virtual address through the instruction cache of a core. A cached word is taken where it is still held; with the
turn's flag set its line has been replaced, and the word is read again (log entry 7). -/
def State.fetchWord (s : State) (core : Nat) (va : Word) : State × Except (BitVec 8) Insn :=
  match if s.cur.flag then none else Sparse.find (s.core core).icache va.toNat with
  | some w => (s, .ok w)
  | none =>
    match s.translate core (s.core core).ctxTag .fetch va with
    | (s, .error e) => (s, .error e)
    | (s, .ok a) =>
      match s.readNow core a 4 with
      | (s, .error e) => (s, .error e)
      | (s, .ok x) =>
        let w : Insn := BitVec.ofNat 32 x
        (s.onCore core fun c => { c.count 0x0C with icache := Sparse.put c.icache va.toNat w }, .ok w)

/-- What stands at the pc of a core: a reading of its words, or the fault and address of a fetch (R89, R90, R112); the second word of a pair is read a
cycle after a miss of the first, for an event counts once a cycle (R86). -/
def State.fetch (s : State) (core : Nat) : State × Except (BitVec 8 × Word) Reading :=
  let pc := (s.core core).pc
  let miss := if s.cur.flag || (Sparse.find (s.core core).icache pc.toNat).isNone then 1 else 0
  match s.fetchWord core pc with
  | (s, .error e) => (s, .error (e, pc))
  | (s, .ok w) =>
    if isLong w then
      match (s.onCore core fun c => c.tickBy miss).fetchWord core (pc + 4) with
      | (s, .error e) => (s, .error (e, pc + 4))
      | (s, .ok w2) => (s, .ok (readPair w w2))
    else (s, .ok (readSingle w))

/-! ### Packets of the memory network (R17, R18, R402, R403, R410) -/

/-- Sends a packet, which carries the tag of its sender's context (R402). -/
def State.send (s : State) (src dst : Nat) (k : NetKind) : State := { s with net := s.net ++ [⟨src, dst, k, (s.core src).ctxTag⟩] }

/-- The core is in service: neither retired nor in Midnight (R403). -/
def State.inService (s : State) (core : Nat) : Bool :=
  decide (core < s.variant.coreCount) && !s.retired.contains core && s.power == .on

/-- Whether the receiver of a packet that has come over the network accepts it: its core's tag is the packet's, and the key of the tag is
loaded (R402, R410). -/
def State.accepts (s : State) (p : Packet) : Bool := p.src == p.dst || (p.tag == Sparse.get 0#6 s.ctag p.dst && (s.ctx p.tag).keys)

/-- Packet n, where it arrives and is accepted; it waits for a core in Dusk to wake (R444). -/
def State.arriving (s : State) (n : Nat) : Option Packet :=
  match s.net[n]? with
  | none => none
  | some p => if s.fate p.src p.dst = .arrives && s.accepts p && !s.dusk.contains p.dst then some p else none

/-! ### Scratch (R72) -/

/-- The little-endian value of `n` bytes of scratch. -/
def readScratch (c : Core) (a : Nat) : Nat → Nat
  | 0 => 0
  | n + 1 => (Sparse.get 0#8 c.scratch a).toNat + 256 * readScratch c (a + 1) n

/-- Writes the low `n` bytes of a value to scratch. -/
def writeScratch (c : Core) (a v : Nat) : Nat → Core
  | 0 => c
  | n + 1 => writeScratch { c with scratch := Sparse.set 0#8 c.scratch a (BitVec.ofNat 8 v) } (a + 1) (v / 256) n

/-- The precise fault of a scratch block of `n` bytes that must lie at a multiple of `al`, if it has one: MISALIGN first (R109,
R129, R143). -/
def scratchFault (a : Word) (al n : Nat) : Option (BitVec 8) :=
  if a.toNat % al ≠ 0 then some 0x02 else if 0x10000 < a.toNat + n then some 0x09 else none

end Sys2Proof.Machine
end

