-- ==== Sys2Proof/Machine/Memory.lean ====
section
/-! DEFINITION. Scalar memory: LD, LDN and ST on device memory, LDL and STL on scratch, and the later performance of device accesses
(R106–R109). -/

namespace Sys2Proof.Machine

/-- The bytes of a width code (R94). -/
def widthBytes (w : BitVec 2) : Nat := 2 ^ w.toNat

/-- Extends the low `size` bytes of a value to 64 bits (R107). -/
def extend (signed : Bool) (size v : Nat) : Word :=
  if signed then (BitVec.ofNat (8 * size) v).signExtend 64 else (BitVec.ofNat (8 * size) v).setWidth 64

/-- Whether two byte ranges share a byte. -/
def overlaps (a n b m : Nat) : Bool := decide (a < b + m) && decide (b < a + n)

/-- The outstanding access that an instruction leaves, counted under its event (R86, R108). -/
def Core.addAccess (c : Core) (ev : BitVec 8) (a : Access) : Core :=
  ({ c with accesses := c.accesses ++ [{ a with id := c.nextId }] }.nextNumber).count ev

/-- A device access of the sequencer up to its translation (R107, R111): the fault it takes, or the address it reaches. The limit of
R108 holds issue, and so does a walk that has no answer. -/
def State.deviceAccess (s : State) (addr : Word) (size : Nat) (need : Need) (k : State → Nat → Out) : Out :=
  if 16 ≤ s.here.accesses.length then .next s
  else if addr.toNat % size ≠ 0 then .next (s.precise 0x02 addr)
  else
    match s.translate s.cur.core s.here.ctxTag need addr with
    | (t, .error e) => .next (if e = noAnswer then t else t.precise e addr)
    | (t, .ok a) => k t a

/-- LD and LDN: the load is issued; LOAD_REPLY writes s[d] (R107, R108). -/
def State.load (s : State) (len : Nat) (signed : Bool) (d a : SReg) (w : BitVec 2) (disp : Word) : Out :=
  s.deviceAccess (s.here.reg a + disp) (widthBytes w) .read fun t p =>
    t.issue len fun c => c.addAccess 0x0D
      { id := 0, kind := .load signed, d := d, phys := p, size := widthBytes w, value := 0, cmp := 0, reply := none }

/-- ST: the store is issued with the value of s[d]; STORE_COMPLETION performs it (R107, R108). -/
def State.store (s : State) (len : Nat) (d a : SReg) (w : BitVec 2) (disp : Word) : Out :=
  s.deviceAccess (s.here.reg a + disp) (widthBytes w) .write fun t p =>
    t.issue len fun c => c.addAccess 0x0E
      { id := 0, kind := .store, d := 0, phys := p, size := widthBytes w, value := c.reg d, cmp := 0, reply := none }

/-- The fault of a scratch access, MISALIGN before SCRATCH_RANGE (R109). -/
def State.scratchAccess (s : State) (addr : Word) (size : Nat) (body : Out) : Out :=
  match scratchFault addr size size with
  | some code => .next (s.precise code addr)
  | none => body

/-- LDL: s[d] := sext(scratch[addr, size]) (R109). -/
def State.loadScratch (s : State) (len : Nat) (d a : SReg) (w : BitVec 2) (disp : Word) : Out :=
  let addr := s.here.reg a + disp
  s.scratchAccess addr (widthBytes w)
    (s.issue len fun c => c.setReg d (extend true (widthBytes w) (readScratch c addr.toNat (widthBytes w))))

/-- STL: scratch[addr, size] := the low bytes of s[d] (R109). -/
def State.storeScratch (s : State) (len : Nat) (d a : SReg) (w : BitVec 2) (disp : Word) : Out :=
  let addr := s.here.reg a + disp
  s.scratchAccess addr (widthBytes w)
    (s.issue len fun c => writeScratch c addr.toNat (c.reg d).toNat (widthBytes w))

/-- LD. -/
def execLd (d a : SReg) (w : BitVec 2) (i : BitVec 13) (s : State) : Out := s.load 4 true d a w (i.signExtend 64)
/-- LDN. -/
def execLdn (d a : SReg) (w : BitVec 2) (i : BitVec 13) (s : State) : Out := s.load 4 false d a w (i.signExtend 64)
/-- ST. -/
def execSt (d a : SReg) (w : BitVec 2) (i : BitVec 13) (s : State) : Out := s.store 4 d a w (i.signExtend 64)
/-- LDL. -/
def execLdl (d a : SReg) (w : BitVec 2) (i : BitVec 13) (s : State) : Out := s.loadScratch 4 d a w (i.signExtend 64)
/-- STL. -/
def execStl (d a : SReg) (w : BitVec 2) (i : BitVec 13) (s : State) : Out := s.storeScratch 4 d a w (i.signExtend 64)
/-- LD or LDN with a leading word and a 39-bit displacement (R89). -/
def execLdLong (d a : SReg) (n : BitVec 1) (w : BitVec 2) (i : BitVec 39) (s : State) : Out :=
  s.load 8 (n == 0#1) d a w (i.signExtend 64)
/-- ST with a leading word (R89). -/
def execStLong (d a : SReg) (w : BitVec 2) (i : BitVec 39) (s : State) : Out := s.store 8 d a w (i.signExtend 64)
/-- LDL or STL with a leading word (R89). -/
def execLdlStlLong (d a : SReg) (n : BitVec 1) (w : BitVec 2) (i : BitVec 39) (s : State) : Out :=
  if n == 0#1 then s.loadScratch 8 d a w (i.signExtend 64) else s.storeScratch 8 d a w (i.signExtend 64)

/-! ### Performance of outstanding accesses (R107, R108, R330, R335) -/

/-- Whether an earlier access of the sequencer to some of the same bytes has still to be performed (same-address program order,
R107). -/
def blockedByEarlier (as : List Access) (n : Nat) (a : Access) : Bool :=
  (as.take n).any fun b => overlaps a.phys a.size b.phys b.size && b.reply.isNone

/-- The access that a reply names, if it may be performed now. -/
def State.performable (s : State) (n : Nat) : Option Access :=
  match s.here.accesses[n]? with
  | none => none
  | some a => if blockedByEarlier s.here.accesses n a || s.inWindow a.phys a.size then none else some a

/-- A write with its sequence numbers reaches a base die, which holds it until its predecessor has been applied (R428). -/
def State.sequenced (s : State) (die : Nat) (q : Option SeqNums) (body : State → Out) : Out :=
  match chainStepOf s.chains die q with
  | none => .next s
  | some cs => body { s with chains := cs }

/-- An access of the turn's core to a physical address goes over the memory network and back (R17, R18). -/
def State.overNetwork (s : State) (phys : Nat) (body : Out) : Out := s.ifArrives (s.memoryFate s.cur.core phys) s.here.ctxTag body

/-- LOAD_REPLY: the value returns and is written to d (R107, R108). -/
def execLoadReply (s : State) : Out :=
  match s.performable s.cur.n with
  | some { kind := .load signed, d, phys, size, .. } =>
    s.overNetwork phys <| .next (s.on fun c =>
      { c with accesses := c.accesses.eraseIdx s.cur.n }.setReg d (extend signed size (readMem s.mem phys size)))
  | _ => .next s

/-- STORE_COMPLETION: the store is performed and no longer counts toward the limit (R107, R108). -/
def execStoreCompletion (s : State) : Out :=
  match s.performable s.cur.n with
  | some { kind := .store, phys, size, value, .. } =>
    s.overNetwork phys <| s.sequenced (stackOf phys) (s.seqPlain s.cur.core) fun s =>
      .next ({ s with mem := writeBytes s.mem phys (bytesOf size value.toNat) }.on fun c =>
        { c with accesses := c.accesses.eraseIdx s.cur.n })
  | _ => .next s

end Sys2Proof.Machine
end

