-- ==== Sys2Proof/Machine/Flags.lean ====
section
/-! DEFINITION. Conditions and flags: the compare conditions of the sequencer (R93, R105) and the status bits of an element's FSTAT
(R57). -/

namespace Sys2Proof.Machine

/-- A compare condition by its code: eq, ne, lt, le on signed values, ltn, len on natural values (R93, R105). -/
def holds (cond : Nat) (x y : Word) : Bool :=
  match cond with
  | 0 => x == y
  | 1 => x != y
  | 2 => x.slt y
  | 3 => x.sle y
  | 4 => x.ult y
  | _ => x.ule y

/-- The status bits a lane can set (R57). -/
structure Status where
  sat : Bool
  nv : Bool
  dz : Bool
  of : Bool
  uf : Bool
  nx : Bool
  deriving DecidableEq, Repr

/-- No bit set. -/
def Status.none : Status := ⟨false, false, false, false, false, false⟩

/-- The bits of either. -/
def Status.or (a b : Status) : Status :=
  ⟨a.sat || b.sat, a.nv || b.nv, a.dz || b.dz, a.of || b.of, a.uf || b.uf, a.nx || b.nx⟩

/-- FSTAT's layout (R57): NX, UF, OF, DZ, NV, SAT from bit 0. -/
def Status.toBits (a : Status) : BitVec 8 :=
  BitVec.ofNat 8 (a.nx.toNat + 2 * a.uf.toNat + 4 * a.of.toNat + 8 * a.dz.toNat + 16 * a.nv.toNat + 32 * a.sat.toNat)

end Sys2Proof.Machine
end

