-- ==== Sys2Proof/Machine/Integer.lean ====
section
/-! DEFINITION. Integer operations of the sequencer (R102–R104). -/

namespace Sys2Proof.Machine

/-- Bits 127:64 of the signed product (R103). -/
def mulHigh (x y : Word) : Word := ((x.signExtend 128) * (y.signExtend 128)).extractLsb' 64 64

/-- Bits 127:64 of the natural product (R103). -/
def mulHighN (x y : Word) : Word := ((x.setWidth 128) * (y.setWidth 128)).extractLsb' 64 64

/-- Signed quotient rounded toward zero; all ones for a zero divisor (R103, R104). -/
def divSigned (x y : Word) : Word := if y = 0 then BitVec.allOnes 64 else BitVec.ofInt 64 (Int.tdiv x.toInt y.toInt)

/-- Natural quotient; all ones for a zero divisor (R104). -/
def divNatural (x y : Word) : Word := if y = 0 then BitVec.allOnes 64 else BitVec.ofNat 64 (x.toNat / y.toNat)

/-- x − DIV(x, y) × y; x for a zero divisor (R103, R104). -/
def remSigned (x y : Word) : Word := if y = 0 then x else x - divSigned x y * y

/-- x − DIVN(x, y) × y; x for a zero divisor (R103, R104). -/
def remNatural (x y : Word) : Word := if y = 0 then x else x - divNatural x y * y

/-- The shift amount y[5:0] (R103). -/
def shiftAmount (y : Word) : Nat := y.toNat % 64

/-- Signed minimum (R103). -/
def minSigned (x y : Word) : Word := if x.slt y then x else y

/-- Signed maximum (R103). -/
def maxSigned (x y : Word) : Word := if x.slt y then y else x

/-- Natural minimum (R103). -/
def minNatural (x y : Word) : Word := if x.ult y then x else y

/-- Natural maximum (R103). -/
def maxNatural (x y : Word) : Word := if x.ult y then y else x

/-- The number of significant bits: 0 for zero, else the place of the top one bit plus 1. -/
def bitLength (n : Nat) : Nat := if n = 0 then 0 else Nat.log2 n + 1

/-- Leading zero bits, 0–64 (R103). -/
def leadingZeros (x : Word) : Word := BitVec.ofNat 64 (64 - bitLength x.toNat)

/-- One bits, 0–64 (R103). -/
def onesCount (x : Word) : Word := BitVec.ofNat 64 ((List.range 64).countP fun i => x.getLsbD i)

/-- sext(imm16, 64) << 16 (R92). -/
def loadHigh (i : BitVec 16) : Word := i.signExtend 64 <<< 16

/-- A register form: s[d] := f(s[a], s[b]) (R102, R103). -/
def State.binary (s : State) (f : Word → Word → Word) (d a b : SReg) : Out :=
  s.issue 4 fun c => c.setReg d (f (c.reg a) (c.reg b))

/-- A form with one source: s[d] := f(s[a]). -/
def State.unary (s : State) (len : Nat) (f : Word → Word) (d a : SReg) : Out :=
  s.issue len fun c => c.setReg d (f (c.reg a))

/-- ADD. -/
def execAdd (d a b : SReg) (s : State) : Out := s.binary (· + ·) d a b
/-- SUB. -/
def execSub (d a b : SReg) (s : State) : Out := s.binary (· - ·) d a b
/-- MUL. -/
def execMul (d a b : SReg) (s : State) : Out := s.binary (· * ·) d a b
/-- MULH. -/
def execMulh (d a b : SReg) (s : State) : Out := s.binary mulHigh d a b
/-- MULHN. -/
def execMulhn (d a b : SReg) (s : State) : Out := s.binary mulHighN d a b
/-- The cycles of a division whose dividend has the given magnitude (R75, R104). -/
def divisionCycles (m : Nat) : Nat := 18 + bitLength m / 4

/-- A division: s[d] := f(s[a], s[b]). It takes its division cycles, of which the step itself is one, and they are counted (R75, R86, R104). -/
def State.divide (s : State) (f : Word → Word → Word) (mag : Word → Nat) (d a b : SReg) : Out :=
  s.issue 4 fun c =>
    let n := divisionCycles (mag (c.reg a))
    ((c.tickBy (n - 1)).countBy 0x16 n).setReg d (f (c.reg a) (c.reg b))

/-- DIV. -/
def execDiv (d a b : SReg) (s : State) : Out := s.divide divSigned (fun x => x.toInt.natAbs) d a b
/-- DIVN. -/
def execDivn (d a b : SReg) (s : State) : Out := s.divide divNatural BitVec.toNat d a b
/-- REM. -/
def execRem (d a b : SReg) (s : State) : Out := s.divide remSigned (fun x => x.toInt.natAbs) d a b
/-- REMN. -/
def execRemn (d a b : SReg) (s : State) : Out := s.divide remNatural BitVec.toNat d a b
/-- AND. -/
def execAnd (d a b : SReg) (s : State) : Out := s.binary (· &&& ·) d a b
/-- OR. -/
def execOr (d a b : SReg) (s : State) : Out := s.binary (· ||| ·) d a b
/-- XOR. -/
def execXor (d a b : SReg) (s : State) : Out := s.binary (· ^^^ ·) d a b
/-- SHL. -/
def execShl (d a b : SReg) (s : State) : Out := s.binary (fun x y => x <<< shiftAmount y) d a b
/-- SHR. -/
def execShr (d a b : SReg) (s : State) : Out := s.binary (fun x y => x >>> shiftAmount y) d a b
/-- SHA. -/
def execSha (d a b : SReg) (s : State) : Out := s.binary (fun x y => x.sshiftRight (shiftAmount y)) d a b
/-- MIN. -/
def execMin (d a b : SReg) (s : State) : Out := s.binary minSigned d a b
/-- MAX. -/
def execMax (d a b : SReg) (s : State) : Out := s.binary maxSigned d a b
/-- MINN. -/
def execMinn (d a b : SReg) (s : State) : Out := s.binary minNatural d a b
/-- MAXN. -/
def execMaxn (d a b : SReg) (s : State) : Out := s.binary maxNatural d a b
/-- CLZ. -/
def execClz (d a : SReg) (s : State) : Out := s.unary 4 leadingZeros d a
/-- POPC. -/
def execPopc (d a : SReg) (s : State) : Out := s.unary 4 onesCount d a

/-- SEL: a when pN is true, b otherwise (R92). -/
def execSel (d a b : SReg) (n : PReg) (s : State) : Out :=
  s.issue 4 fun c => c.setReg d (if c.pred n then c.reg a else c.reg b)

/-- ADDI: sign-extended immediate (R92). -/
def execAddi (d a : SReg) (i : BitVec 16) (s : State) : Out := s.unary 4 (· + i.signExtend 64) d a
/-- ANDI: zero-extended immediate. -/
def execAndi (d a : SReg) (i : BitVec 16) (s : State) : Out := s.unary 4 (· &&& i.setWidth 64) d a
/-- ORI. -/
def execOri (d a : SReg) (i : BitVec 16) (s : State) : Out := s.unary 4 (· ||| i.setWidth 64) d a
/-- XORI. -/
def execXori (d a : SReg) (i : BitVec 16) (s : State) : Out := s.unary 4 (· ^^^ i.setWidth 64) d a
/-- SHLI. -/
def execShli (d a : SReg) (n : BitVec 6) (s : State) : Out := s.unary 4 (· <<< n.toNat) d a
/-- SHRI. -/
def execShri (d a : SReg) (n : BitVec 6) (s : State) : Out := s.unary 4 (· >>> n.toNat) d a
/-- SHAI. -/
def execShai (d a : SReg) (n : BitVec 6) (s : State) : Out := s.unary 4 (·.sshiftRight n.toNat) d a
/-- LIH. -/
def execLih (d : SReg) (i : BitVec 16) (s : State) : Out := s.issue 4 fun c => c.setReg d (loadHigh i)

/-- ADDI with a leading word: sext(X, 64) (R89). -/
def execAddiLong (d a : SReg) (i : BitVec 42) (s : State) : Out := s.unary 8 (· + i.signExtend 64) d a
/-- ANDI with a leading word: zext(X, 64). -/
def execAndiLong (d a : SReg) (i : BitVec 42) (s : State) : Out := s.unary 8 (· &&& i.setWidth 64) d a
/-- ORI with a leading word. -/
def execOriLong (d a : SReg) (i : BitVec 42) (s : State) : Out := s.unary 8 (· ||| i.setWidth 64) d a
/-- XORI with a leading word. -/
def execXoriLong (d a : SReg) (i : BitVec 42) (s : State) : Out := s.unary 8 (· ^^^ i.setWidth 64) d a

end Sys2Proof.Machine
end

