-- ==== Sys2Proof/Machine/Numeric.lean ====
section
/-! DEFINITION. Number formats, exact values and rounding (R47–R59), the hash functions (R68, R69) and the correctly rounded
reciprocal, root, power and logarithm (R58, R203). -/

namespace Sys2Proof.Machine

/-! ### Formats (R47–R51) -/

/-- The lane width of a format code (R47). -/
def laneWidth (code : Nat) : Nat :=
  match code with
  | 0x0 | 0x3 | 0x6 | 0xF => 32
  | 0x1 | 0x2 | 0x4 | 0x7 => 16
  | 0xB | 0xC => 4
  | _ => 8

/-- The lanes of a token in a format. -/
def laneCount (code : Nat) : Nat := 256 / laneWidth code

/-- A floating-point format: widths of exponent and fraction, bias, the magnitude of the largest finite value, and what stands for
infinity and NaN (R48, R49). -/
structure FloatFmt where
  ew : Nat
  mw : Nat
  bias : Nat
  maxMag : Nat
  inf : Option Nat
  nan : Option Nat
  deriving DecidableEq, Repr

/-- FP32. -/
def fp32 : FloatFmt := ⟨8, 23, 127, 0x7F7FFFFF, some 0x7F800000, some 0x7FC00000⟩
/-- BF16. -/
def bf16 : FloatFmt := ⟨8, 7, 127, 0x7F7F, some 0x7F80, some 0x7FC0⟩
/-- FP16. -/
def fp16 : FloatFmt := ⟨5, 10, 15, 0x7BFF, some 0x7C00, some 0x7E00⟩
/-- E4M3. -/
def e4m3 : FloatFmt := ⟨4, 3, 7, 0x7E, none, some 0x7F⟩
/-- E5M2. -/
def e5m2 : FloatFmt := ⟨5, 2, 15, 0x7B, some 0x7C, some 0x7E⟩
/-- E2M1. -/
def e2m1 : FloatFmt := ⟨2, 1, 1, 0x7, none, none⟩

/-- The floating-point format of a code, if it is one. -/
def floatFmt (code : Nat) : Option FloatFmt :=
  match code with
  | 0x0 => some fp32
  | 0x1 => some bf16
  | 0x2 => some fp16
  | 0x9 => some e4m3
  | 0xA => some e5m2
  | 0xB => some e2m1
  | _ => none

/-- Whether an integer format is two's complement (R51). -/
def isSigned (code : Nat) : Bool := code == 0x3 || code == 0x4 || code == 0x5 || code == 0xC

/-- The width of a floating-point format. -/
def FloatFmt.width (f : FloatFmt) : Nat := 1 + f.ew + f.mw

/-! ### Exact values -/

/-- The exact real (−1)^neg × m × 2^e. -/
structure Dy where
  neg : Bool
  m : Nat
  e : Int
  deriving DecidableEq, Repr

/-- A floating-point value: a NaN, signalling or not, an infinity, or a real with its sign. -/
inductive FVal where
  | nan (signalling : Bool)
  | inf (neg : Bool)
  | fin (d : Dy)
  deriving DecidableEq, Repr

/-- Zero of a sign. -/
def Dy.zero (neg : Bool) : Dy := ⟨neg, 0, 0⟩

/-- Value of an encoding (R48, R49); the bit pattern is a natural number below 2^width. -/
def decodeFloat (f : FloatFmt) (b : Nat) : FVal :=
  let neg := b / 2 ^ (f.ew + f.mw) % 2 == 1
  let mag := b % 2 ^ (f.ew + f.mw)
  let e := mag / 2 ^ f.mw
  let m := mag % 2 ^ f.mw
  if mag ≤ f.maxMag then
    if e = 0 then .fin ⟨neg, m, 1 - (f.bias : Int) - f.mw⟩
    else .fin ⟨neg, 2 ^ f.mw + m, (e : Int) - f.bias - f.mw⟩
  else if f.inf == some mag then .inf neg
  else .nan (f.inf.isSome && m < 2 ^ (f.mw - 1))

/-- |x| on a common exponent, with the exponent. -/
def Dy.align (a b : Dy) : Int × Int × Int :=
  let e := min a.e b.e
  let x : Int := (a.m : Int) * 2 ^ (a.e - e).toNat
  let y : Int := (b.m : Int) * 2 ^ (b.e - e).toNat
  (if a.neg then -x else x, if b.neg then -y else y, e)

/-- Exact sum; an exact zero of opposite signs is +0, or −0 rounding down, and of one sign keeps it (R58). -/
def Dy.add (rdn : Bool) (a b : Dy) : Dy :=
  if a.m = 0 && b.m = 0 then .zero (if a.neg == b.neg then a.neg else rdn)
  else if a.m = 0 then b
  else if b.m = 0 then a
  else
    let (x, y, e) := a.align b
    let z := x + y
    if z = 0 then .zero rdn else ⟨z < 0, z.natAbs, e⟩

/-- Exact product. -/
def Dy.mul (a b : Dy) : Dy := ⟨a.neg != b.neg, a.m * b.m, a.e + b.e⟩

/-- Times a power of two. -/
def Dy.scale (a : Dy) (k : Int) : Dy := ⟨a.neg, a.m, a.e + k⟩

/-- a < b on the values, −0 equal to +0. -/
def Dy.lt (a b : Dy) : Bool := let (x, y, _) := a.align b; decide (x < y)

/-- a = b on the values. -/
def Dy.eq (a b : Dy) : Bool := let (x, y, _) := a.align b; decide (x = y)

/-- The sign inverted. -/
def FVal.negate : FVal → FVal
  | .nan s => .nan s
  | .inf n => .inf (!n)
  | .fin d => .fin ⟨!d.neg, d.m, d.e⟩

/-- Whether a value is a signalling NaN. -/
def FVal.signalling : FVal → Bool
  | .nan s => s
  | _ => false

/-- Whether a value is a NaN. -/
def FVal.isNan : FVal → Bool
  | .nan _ => true
  | _ => false

/-- Product with whether it is invalid (0 × ∞); a NaN operand gives a NaN (R201). -/
def FVal.mul : FVal → FVal → FVal × Bool
  | .nan _, _ => (.nan false, false)
  | _, .nan _ => (.nan false, false)
  | .inf a, .inf b => (.inf (a != b), false)
  | .inf a, .fin d => if d.m = 0 then (.nan false, true) else (.inf (a != d.neg), false)
  | .fin d, .inf a => if d.m = 0 then (.nan false, true) else (.inf (a != d.neg), false)
  | .fin a, .fin b => (.fin (a.mul b), false)

/-- Sum with whether it is invalid (∞ − ∞) (R201). -/
def FVal.add (rdn : Bool) : FVal → FVal → FVal × Bool
  | .nan _, _ => (.nan false, false)
  | _, .nan _ => (.nan false, false)
  | .inf a, .inf b => if a == b then (.inf a, false) else (.nan false, true)
  | .inf a, .fin _ => (.inf a, false)
  | .fin _, .inf a => (.inf a, false)
  | .fin a, .fin b => (.fin (a.add rdn b), false)

/-! ### Rounding (R53–R57) -/

/-- The table D of DITHER (R56). -/
def ditherTable : List Nat := [0, 8, 2, 10, 12, 4, 14, 6, 3, 11, 1, 9, 15, 7, 13, 5]

/-- How a lane is rounded: the mode MOD[2:0], SAT, and its place pos + phase in the DITHER table (R53, R56). -/
structure Rounding where
  mode : Nat
  sat : Bool
  place : Nat
  deriving DecidableEq, Repr

/-- Round to nearest even without saturation. -/
def Rounding.rne : Rounding := ⟨0, false, 0⟩

/-- Whether a magnitude with integer part `n` and fraction `rem / 2^sh` moves up (R54). -/
def roundsUp (r : Rounding) (neg : Bool) (n rem sh : Nat) : Bool :=
  match r.mode with
  | 0 => decide (2 ^ sh < 2 * rem) || (2 * rem == 2 ^ sh && n % 2 == 1)
  | 1 => false
  | 2 => decide (0 < rem) && !neg
  | 3 => decide (0 < rem) && neg
  | _ => decide ((ditherTable[r.place % 16]?).getD 0 < 16 * rem / 2 ^ sh)

/-- The integer part, the remainder and the shift of m × 2^(e − q); far below the grid the fraction is kept small and non-zero. -/
def splitAt (m : Nat) (e q : Int) : Nat × Nat × Nat :=
  if q ≤ e then (m * 2 ^ (e - q).toNat, 0, 0)
  else
    let sh := (q - e).toNat
    if bitLength m + 8 < sh then (0, if m = 0 then 0 else 1, 8) else (m / 2 ^ sh, m % 2 ^ sh, sh)

/-- The magnitude of an overflow (R55). -/
def overflowMag (f : FloatFmt) (r : Rounding) (neg : Bool) : Nat :=
  let toInf := !r.sat && (match r.mode with | 1 => false | 2 => !neg | 3 => neg | _ => true)
  if toInf then
    match f.inf, f.nan with
    | some i, _ => i
    | none, some n => n
    | none, none => f.maxMag
  else f.maxMag

/-- The sign bit above a magnitude. -/
def withSign (f : FloatFmt) (neg : Bool) (mag : Nat) : Nat := if neg then mag + 2 ^ (f.ew + f.mw) else mag

/-- Whether an exact value below 2^(top + 1), rounded with as many bits and an exponent without bound, lies below 2^emin: tiny after
rounding (R57; log entry 35). -/
def isTiny (f : FloatFmt) (r : Rounding) (x : Dy) (top emin : Int) : Bool :=
  let (n, rem, sh) := splitAt x.m x.e (top - f.mw)
  decide (top < emin) && !(decide (top + 1 = emin) && n + 1 == 2 ^ (f.mw + 1) && roundsUp r x.neg n rem sh)

/-- Rounds an exact value into a format (R54, R55); a NaN of E4M3 that stands for an infinity carries no sign. -/
def roundDy (f : FloatFmt) (r : Rounding) (x : Dy) : Nat × Status :=
  if x.m = 0 then (withSign f x.neg 0, Status.none)
  else
    let emin : Int := 1 - (f.bias : Int)
    let top : Int := x.e + bitLength x.m - 1
    let ex := max top emin
    let (n, rem, sh) := splitAt x.m x.e (ex - f.mw)
    let n' := if roundsUp r x.neg n rem sh then n + 1 else n
    let mag := (ex - emin).toNat * 2 ^ f.mw + n'
    let nx := rem != 0
    if f.maxMag < mag then
      let o := overflowMag f r x.neg
      (if f.inf.isNone && f.nan == some o then o else withSign f x.neg o, { Status.none with of := true, nx := true })
    else (withSign f x.neg mag, { Status.none with nx := nx, uf := nx && isTiny f r x top emin })

/-- A status with NV. -/
def invalid (b : Bool) : Status := { Status.none with nv := b }

/-- Rounds a value with its special cases: a NaN gives the canonical NaN, a signalling one with NV (R49, R57, R58). -/
def roundVal (f : FloatFmt) (r : Rounding) : FVal → Nat × Status
  | .nan sig => (f.nan.getD 0, invalid sig)
  | .inf neg =>
    match f.inf with
    | some i => (withSign f neg i, Status.none)
    | none => (overflowMag f r neg, Status.none)
  | .fin d => roundDy f r d

/-- Rounds a magnitude to an integer, with whether it was not integral (R54). -/
def roundInteger (r : Rounding) (x : Dy) : Int × Bool :=
  let (n, rem, sh) := splitAt x.m x.e 0
  let n' : Int := if roundsUp r x.neg n rem sh then n + 1 else n
  (if x.neg then -n' else n', rem != 0)

/-- The range of an integer format (R51). -/
def intRange (code : Nat) : Int × Int :=
  let w := laneWidth code
  if isSigned code then (-(2 ^ (w - 1)), 2 ^ (w - 1) - 1) else (0, 2 ^ w - 1)

/-- The low bits of an integer. -/
def wrapTo (w : Nat) (x : Int) : Nat := (x % (2 ^ w : Int)).toNat

/-- The value of an integer lane (R51). -/
def intValue (code b : Nat) : Int :=
  let w := laneWidth code
  if isSigned code && decide (2 ^ (w - 1) ≤ b) then (b : Int) - 2 ^ w else b

/-- Narrows an exact integer: clamped with SAT, or its low bits (R206). -/
def fit (code : Nat) (sat : Bool) (x : Int) : Nat × Status :=
  let (lo, hi) := intRange code
  if sat then
    if x < lo then (wrapTo (laneWidth code) lo, { Status.none with sat := true })
    else if hi < x then (wrapTo (laneWidth code) hi, { Status.none with sat := true })
    else (wrapTo (laneWidth code) x, Status.none)
  else (wrapTo (laneWidth code) x, Status.none)

/-! ### Fused arithmetic (R201) -/

/-- round(a + b) with NV of a signalling operand or ∞ − ∞. -/
def fadd (f : FloatFmt) (r : Rounding) (a b : FVal) : Nat × Status :=
  let (v, bad) := FVal.add (r.mode == 3) a b
  let (x, st) := roundVal f r v
  (x, st.or (invalid (bad || a.signalling || b.signalling)))

/-- round(a × b). -/
def fmul (f : FloatFmt) (r : Rounding) (a b : FVal) : Nat × Status :=
  let (v, bad) := FVal.mul a b
  let (x, st) := roundVal f r v
  (x, st.or (invalid (bad || a.signalling || b.signalling)))

/-- round(a × b + c), the product exact. -/
def ffma (f : FloatFmt) (r : Rounding) (a b c : FVal) : Nat × Status :=
  let (p, bad1) := FVal.mul a b
  let (v, bad2) := FVal.add (r.mode == 3) p c
  let (x, st) := roundVal f r v
  (x, st.or (invalid (bad1 || bad2 || a.signalling || b.signalling || c.signalling)))

/-- An exact sum of many terms, rounded once (R65): a NaN or an invalid term or opposite infinities give the NaN with NV. -/
def fsum (f : FloatFmt) (r : Rounding) (ts : List (FVal × Bool)) : Nat × Status :=
  let total := match ts with
    | [] => (FVal.fin (.zero false), false)
    | t :: us => us.foldl (fun (acc u : FVal × Bool) =>
        let w := FVal.add (r.mode == 3) acc.1 u.1
        (w.1, acc.2 || w.2 || u.2)) t
  let x := roundVal f r total.1
  (x.1, x.2.or (invalid total.2))

/-! ### Roots, powers and logarithms (R203) -/

/-- The integer square root, by Newton steps from above. -/
def isqrtFrom (n : Nat) : Nat → Nat → Nat
  | 0, x => x
  | fuel + 1, x =>
    let y := (x + n / x) / 2
    if y < x then isqrtFrom n fuel y else x

/-- floor of the square root. -/
def isqrt (n : Nat) : Nat := if n = 0 then 0 else isqrtFrom n 600 (2 ^ (bitLength n / 2 + 1))

/-- A magnitude known to be at least m and below m + 1 at exponent e: exact, or with a bit below that says it is not. -/
def stickyDy (neg : Bool) (m : Nat) (exact : Bool) (e : Int) : Dy := ⟨neg, 2 * m + (if exact then 0 else 1), e - 1⟩

/-- 1 / a of a non-zero value. -/
def recipDy (a : Dy) : Dy :=
  let k := bitLength a.m + 80
  stickyDy a.neg (2 ^ k / a.m) (2 ^ k % a.m == 0) (-a.e - k)

/-- √a of a positive value. -/
def sqrtDy (a : Dy) : Dy :=
  let sh : Nat := if (a.e - 160) % 2 = 0 then 160 else 161
  let m := a.m * 2 ^ sh
  let r := isqrt m
  stickyDy false r (r * r == m) ((a.e - (sh : Int)) / 2)

/-- 1 / √a of a positive value. -/
def rsqrtDy (a : Dy) : Dy :=
  let m := if a.e % 2 = 0 then a.m else 2 * a.m
  let e := if a.e % 2 = 0 then a.e else a.e - 1
  let k := bitLength m + 100
  let r := isqrt (2 ^ (2 * k) / m)
  stickyDy false r (r * r * m == 2 ^ (2 * k)) (-(e / 2) - k)

/-- The fraction bits of the fixed-point working of FEX2 and FLG2. -/
abbrev fixedBits : Nat := 320

/-- ln 2 × 2^320, rounded down. -/
def lnTwo : Nat :=
  0xb17217f7d1cf79abc9e3b39803f2f6af40f343267298b62d8a0d175b8baafa2be7b876206debac98

/-- Σ t^k / k! from a term on, in fixed point. -/
def expSeries (t : Nat) : Nat → Nat → Nat → Nat
  | 0, _, _ => 0
  | fuel + 1, k, term => term + expSeries t fuel (k + 1) (term * t / 2 ^ fixedBits / (k + 1))

/-- 2^a. -/
def exp2Dy (a : Dy) : Dy :=
  let sh : Nat := (-a.e).toNat
  let n : Nat := if 0 ≤ a.e then a.m * 2 ^ (min a.e.toNat 200 : Nat) else a.m / 2 ^ sh
  let rem : Nat := if 0 ≤ a.e then 0 else a.m % 2 ^ sh
  let whole : Int := if a.neg then (if rem = 0 then -(n : Int) else -(n : Int) - 1) else n
  let frac := if rem = 0 then 0 else if a.neg then 2 ^ sh - rem else rem
  if frac = 0 then ⟨false, 1, whole⟩
  else
    let t := frac * lnTwo / 2 ^ sh
    stickyDy false (expSeries t 120 0 (2 ^ fixedBits)) false (whole - fixedBits)

/-- Σ z^(2k+1) / (2k + 1) in fixed point. -/
def atanhSeries (z2 : Nat) : Nat → Nat → Nat → Nat
  | 0, _, _ => 0
  | fuel + 1, k, term => term / (2 * k + 1) + atanhSeries z2 fuel (k + 1) (term * z2 / 2 ^ fixedBits)

/-- log2 a of a positive value. -/
def log2Dy (a : Dy) : Dy :=
  let l := bitLength a.m
  let whole : Int := a.e + l - 1
  if a.m = 2 ^ (l - 1) then ⟨whole < 0, whole.natAbs, 0⟩
  else
    let one := 2 ^ (l - 1)
    let z := (a.m - one) * 2 ^ fixedBits / (a.m + one)
    let ln := 2 * atanhSeries (z * z / 2 ^ fixedBits) 120 0 z
    let v : Int := whole * 2 ^ fixedBits + ((ln * 2 ^ fixedBits / lnTwo : Nat) : Int)
    stickyDy (v < 0) v.natAbs false (-(fixedBits : Int))

/-! ### Hash functions (R68, R69) -/

/-- MIX32 (R68). -/
def mix32 (x : BitVec 32) : BitVec 32 :=
  let x := (x ^^^ (x >>> 16)) * 0x7FEB352D#32
  let x := (x ^^^ (x >>> 15)) * 0x846CA68B#32
  x ^^^ (x >>> 16)

/-- MIX64 (R69). -/
def mix64 (x : BitVec 64) : BitVec 64 :=
  let x := (x ^^^ (x >>> 30)) * 0xBF58476D1CE4E5B9#64
  let x := (x ^^^ (x >>> 27)) * 0x94D049BB133111EB#64
  x ^^^ (x >>> 31)

/-! ### Lanes (R5, R47) -/

/-- Lane i of width w of a payload, as a natural number. -/
def lane (p : Payload) (w i : Nat) : Nat := p.toNat / 2 ^ (w * i) % 2 ^ w

/-- The number whose digits of width w are a list, the first lowest. -/
def packNat (w : Nat) : List Nat → Nat
  | [] => 0
  | x :: xs => x % 2 ^ w + 2 ^ w * packNat w xs

/-- A payload of lanes. -/
def packLanes (w : Nat) (xs : List Nat) : Payload := BitVec.ofNat 256 (packNat w xs)

/-- The lanes of a payload. -/
def lanes (p : Payload) (w : Nat) : List Nat := (List.range (256 / w)).map (lane p w)

end Sys2Proof.Machine
end

