-- ==== Sys2Proof/Machine/StreamWalk.lean ====
section
/-! DEFINITION. A stream's shape, control word, destination block and walk, and the retirement of its beats (R141, R142, R144–R147,
R153). -/

namespace Sys2Proof.Machine

/-! ### The shape record (R142) -/

/-- `n` bits of a shape record from a bit of a byte offset on. -/
def Shape.bits (r : Shape) (off lo n : Nat) : Nat := r.toNat / 2 ^ (8 * off + lo) % 2 ^ n

/-- EXTk. -/
def Shape.ext (r : Shape) (k : Nat) : Nat := r.bits (4 * k) 0 32
/-- STRk of dimension k, 1–3, sign-extended. -/
def Shape.str (r : Shape) (k : Nat) : Word := (BitVec.ofNat 40 (r.bits (8 + 8 * k) 0 40)).signExtend 64
/-- FMT. -/
def Shape.fmt (r : Shape) : Nat := r.bits 0x28 0 4
/-- VC. -/
def Shape.vc (r : Shape) : BitVec 5 := BitVec.ofNat 5 (r.bits 0x28 4 5)
/-- The number of dimensions used. -/
def Shape.dims (r : Shape) : Nat := r.bits 0x28 9 2 + 1
/-- TDIM. -/
def Shape.tdim (r : Shape) : Nat := r.bits 0x28 11 2
/-- Whether dimension k, 1–3, is offset by ORGk. -/
def Shape.offsetBy (r : Shape) (k : Nat) : Bool := r.bits 0x28 (16 + k) 1 == 1
/-- TILE. -/
def Shape.tile (r : Shape) : Nat := r.bits 0x2C 0 5
/-- The beats of a tile, none where the shape has no tile. -/
def Shape.tileBeats (r : Shape) : Option Nat := if r.tile = 0 then none else some (2 ^ (r.tile - 5))
/-- PAD. -/
def Shape.pad (r : Shape) : Nat := r.bits 0x30 0 32
/-- POOL. -/
def Shape.pool (r : Shape) : Nat := r.bits 0x34 0 4
/-- PAD in every 32-bit lane. -/
def Shape.padding (r : Shape) : Payload := BitVec.ofNat 256 ((List.range 8).foldl (fun a k => a + r.pad * 2 ^ (32 * k)) 0)

/-- The extent of dimension k in the walk: 1 for a dimension not used. -/
def Shape.extent (r : Shape) (k : Nat) : Nat := if k < r.dims then r.ext k else 1

/-- The beats of the whole walk. -/
def Shape.beats (r : Shape) : Nat := r.extent 0 * r.extent 1 * r.extent 2 * r.extent 3

/-- Index ik of beat n, i0 innermost (R144). -/
def Shape.index (r : Shape) (n k : Nat) : Nat :=
  match k with
  | 0 => n % r.extent 0
  | 1 => n / r.extent 0 % r.extent 1
  | 2 => n / (r.extent 0 * r.extent 1) % r.extent 2
  | _ => n / (r.extent 0 * r.extent 1 * r.extent 2)

/-- Whether the indices of beat n are at their last values in dimensions 0–k. -/
def Shape.atEnd (r : Shape) (n k : Nat) : Bool := (List.range (k + 1)).all fun j => r.index n j + 1 == r.extent j

/-- E3–E0 of the token of beat n (R145). -/
def Shape.ends (r : Shape) (n : Nat) : BitVec 4 :=
  ((List.range r.dims).filter fun k => r.atEnd n k).foldl (fun e k => e ||| BitVec.ofNat 4 (2 ^ k)) 0

/-- The row of the token of beat n (R145). -/
def Shape.row (r : Shape) (n : Nat) : BitVec 7 :=
  BitVec.ofNat 7 ((match r.tileBeats with | some t => n % t | none => n) / r.extent 0)

/-! ### The control word and the destination block (R146, R147) -/

/-- SHAPE. -/
def ctlShape (w : Word) : Nat := (w.extractLsb' 0 5).toNat
/-- ENG. -/
def ctlEngine (w : Word) : Nat := (w.extractLsb' 5 3).toNat
/-- SRC: 0 MEM, 1 FABRIC, 2 POOL, 3 RMEM. -/
def ctlSource (w : Word) : Nat := (w.extractLsb' 8 2).toNat
/-- REL. -/
def ctlRel (w : Word) : Bool := w.getLsbD 10
/-- EVT. -/
def ctlEvt (w : Word) : Bool := w.getLsbD 11
/-- ORD. -/
def ctlOrd (w : Word) : Bool := w.getLsbD 12
/-- CONS. -/
def ctlCons (w : Word) : Bool := w.getLsbD 13
/-- DEVICE. -/
def ctlDevice (w : Word) : BitVec 16 := w.extractLsb' 16 16
/-- UOP. -/
def ctlUop (w : Word) : Nat := (w.extractLsb' 32 4).toNat

/-- KIND of a destination entry: 0 none, 1 FABRIC, 2 POOL, 3 MEM, 4 RMEM. -/
def destKind (e : BitVec 128) : Nat := (e.extractLsb' 61 3).toNat
/-- ADDR. -/
def destAddr (e : BitVec 128) : Word := (e.extractLsb' 0 55).setWidth 64
/-- DEVICE. -/
def destDevice (e : BitVec 128) : BitVec 16 := e.extractLsb' 112 16
/-- NRD. -/
def destReads (e : BitVec 128) : BitVec 8 := e.extractLsb' 104 8
/-- CORE. -/
def destCore (e : BitVec 128) : Nat := (e.extractLsb' 95 9).toNat
/-- PORT. -/
def destPort (e : BitVec 128) : Nat := (e.extractLsb' 76 2).toNat
/-- ELEM. -/
def destElem (e : BitVec 128) : Nat := (e.extractLsb' 64 6).toNat

/-- The used entries of a destination block, with their numbers. -/
def StreamJob.entries (j : StreamJob) : List (Nat × BitVec 128) :=
  (j.dests.toList.zipIdx.map fun p => (p.2, p.1)).filter fun p => destKind p.2 != 0

/-- The entries of a kind. -/
def StreamJob.entriesOf (j : StreamJob) (kind : Nat) : List (Nat × BitVec 128) := j.entries.filter fun p => destKind p.2 == kind

/-- Whether a stream takes offsets or indices from DI1 (R153, R154). -/
def StreamOp.usesOffsets : StreamOp → Bool
  | .ga => true
  | .sc => true
  | .upd => true
  | _ => false

/-- Whether a stream takes its data or handles from DI0. -/
def StreamJob.usesData (j : StreamJob) : Bool := j.op != .ga && (ctlSource j.ctl == 1 || ctlSource j.ctl == 2)

/-- The place of dimension k in a beat's address: its index and origin times its stride (R144). -/
def StreamJob.term (j : StreamJob) (n k : Nat) : Word :=
  if k < j.shape.dims then
    (BitVec.ofNat 64 (j.shape.index n k) + (if j.shape.offsetBy k then ((j.org[k]?).getD 0).setWidth 64 else 0)) * j.shape.str k
  else 0

/-- The null offset of a gather or scatter (R153). -/
abbrev nullOffset : BitVec 32 := 0x8000_0000

/-- The address of beat n from a base (R144), or with the offset in use in place of dimension 1 (R153). -/
def StreamJob.address (j : StreamJob) (base : Word) (n : Nat) : Word :=
  let first := base + BitVec.ofNat 64 (32 * j.shape.index n 0)
  match j.op with
  | .ga => first + ((j.offsets.head?).getD 0).signExtend 64 + j.term n 2 + j.term n 3
  | .sc => first + ((j.offsets.head?).getD 0).signExtend 64 + j.term n 2 + j.term n 3
  | _ => first + j.term n 1 + j.term n 2 + j.term n 3

/-- The sector of beat n in its tile. -/
def StreamJob.sector (j : StreamJob) (n : Nat) : Nat := n % (j.shape.tileBeats.getD 1)

/-- The tile of beat n. -/
def StreamJob.tileOf (j : StreamJob) (n : Nat) : Nat := n / (j.shape.tileBeats.getD 1)

/-- Whether beat n is the last of its tile. -/
def StreamJob.endsTile (j : StreamJob) (n : Nat) : Bool :=
  match j.shape.tileBeats with
  | some t => n % t + 1 == t
  | none => false

/-! ### Retirement (R141) -/

/-- Whether nothing of a beat remains to be done. -/
def Beat.finished (b : Beat) : Bool := b.delivered && b.mem.isEmpty && b.waits == 0

/-- The finished beats at the front of a list leave it, up to one at which the stream halts; how many did. -/
def retireBeats : List Beat → List Beat × Nat
  | [] => ([], 0)
  | b :: bs => if b.finished && !b.failed then let r := retireBeats bs; (r.1, r.2 + 1) else (b :: bs, 0)

/-- POS where beat n is the next not yet performed (R141); where the walk has no such beat the spec states no value (log entry 14). -/
def Shape.position (r : Shape) (n : Nat) : Vector (BitVec 32) 4 :=
  Vector.ofFn fun k => if n < r.beats then BitVec.ofNat 32 (r.index n k.val) else Config.pastWalk r k.val

/-- BEATS and POS after finished beats have left (R141). -/
def Engine.retire (e : Engine) : Engine :=
  match e.job with
  | none => e
  | some j =>
    let r := retireBeats j.beats
    { e with job := some { j with beats := r.1 }, beats := e.beats + BitVec.ofNat 48 r.2,
             pos := j.shape.position (min ((r.1.head?.map (·.n)).getD j.next) j.next) }

/-- Changes beat n of an engine's stream. -/
def Engine.onBeat (e : Engine) (n : Nat) (f : Beat → Beat) : Engine :=
  { e with job := e.job.map fun j => { j with beats := j.beats.map fun b => if b.n = n then f b else b } }

/-- One of the things that beat n waits for has been done. -/
def Engine.beatDone (e : Engine) (n : Nat) : Engine := (e.onBeat n fun b => { b with waits := b.waits - 1 }).retire

/-- An engine of a core. -/
def Core.engine (c : Core) (k : Nat) : Engine := if h : k < 8 then c.engines[k] else Engine.reset

/-- Changes an engine of a core. -/
def Core.onEngine (c : Core) (k : Nat) (f : Engine → Engine) : Core :=
  if h : k < 8 then { c with engines := c.engines.set k (f c.engines[k]) } else c

/-- The event flag of a core is set by a stream of its own whose EVT is 1 (R134, R146). -/
def State.streamEvent (s : State) (core : Nat) (j : StreamJob) : State :=
  if ctlEvt j.ctl then s.onCore core fun c => { c with event := true } else s

end Sys2Proof.Machine
end

