-- ==== Sys2Proof/Machine/Amo.lean ====
section
/-! DEFINITION. Atomic memory operations and the sparse-update units (R110, R111, R154, R326–R331, R428, R429). -/

namespace Sys2Proof.Machine

/-! ### The operations (R111) -/

/-- The sum of two lanes of a format, rounded by RNE. -/
def addLane (f : FloatFmt) (x y : Nat) : Nat := (fadd f .rne (decodeFloat f x) (decodeFloat f y)).1

/-- An n-bit value read as two's complement. -/
def signedOf (n x : Nat) : Int := if 2 ^ (n - 1) ≤ x then (x : Int) - 2 ^ n else x

/-- The new value of a word of n bits; `old`, operand `x` and compare value `c` lie below 2^n. -/
def amoResult (op : AmoOp) (n old x c : Nat) : Nat :=
  match op with
  | .add => (old + x) % 2 ^ n
  | .fadd => addLane fp32 old x
  | .badd => addLane bf16 (old % 65536) (x % 65536) + 65536 * addLane bf16 (old / 65536) (x / 65536)
  | .min => if signedOf n x < signedOf n old then x else old
  | .max => if signedOf n old < signedOf n x then x else old
  | .minn => if x < old then x else old
  | .maxn => if old < x then x else old
  | .and => old &&& x
  | .or => old ||| x
  | .xor => old ^^^ x
  | .swap => x
  | .cas => if old = c then x else old
  | .incw => if x ≤ old then 0 else old + 1

/-! ### Issue (R110, R111) -/

/-- Sends a request to the unit of its stack (R326). -/
def State.requestUpdate (s : State) (u : Update) : State :=
  let k := stackOf u.phys
  { s with supd := if h : k < 8 then s.supd.set k { s.supd[k] with coming := s.supd[k].coming ++ [u] } else s.supd }

/-- What a part without sparse-update units answers (R111). -/
abbrev noAtomics : Word := 0x8000_0000_0000_0000

/-- AMO: alignment, translation as a store, then the request to the unit; AMO_REPLY writes d (R111). -/
def State.amo (s : State) (op : AmoOp) (d a b : SReg) (w : BitVec 1) : Out :=
  let size := if w == 0#1 then 4 else 8
  s.deviceAccess (s.here.reg a) size .write fun t p =>
    if !t.variant.full then t.issue 4 fun c => c.setReg d noAtomics
    else
      let c := t.here
      let x := c.reg b &&& BitVec.ofNat 64 (2 ^ (8 * size) - 1)
      let y := c.reg d &&& BitVec.ofNat 64 (2 ^ (8 * size) - 1)
      let u : Update :=
        { phys := p, size := size, op := op, value := x, cmp := y, tag := c.ctxTag,
          part := { core := t.cur.core, unit := 8, id := c.nextId, ord := true, seq := t.seqPlain t.cur.core }, folded := [], amo := true }
      .next (t.retire ((t.requestUpdate u).on fun c => c.addAccess 0x0F
        { id := 0, kind := .amo op, d := d, phys := p, size := size, value := x, cmp := y, reply := none }) 4)

/-- AMO.add. -/
def execAmoAdd (d a b : SReg) (w : BitVec 1) (s : State) : Out := s.amo .add d a b w
/-- AMO.fadd, on a 32-bit word. -/
def execAmoFadd (d a b : SReg) (s : State) : Out := s.amo .fadd d a b 0
/-- AMO.badd, on a pair of BF16 lanes. -/
def execAmoBadd (d a b : SReg) (s : State) : Out := s.amo .badd d a b 0
/-- AMO.min. -/
def execAmoMin (d a b : SReg) (w : BitVec 1) (s : State) : Out := s.amo .min d a b w
/-- AMO.max. -/
def execAmoMax (d a b : SReg) (w : BitVec 1) (s : State) : Out := s.amo .max d a b w
/-- AMO.minn. -/
def execAmoMinn (d a b : SReg) (w : BitVec 1) (s : State) : Out := s.amo .minn d a b w
/-- AMO.maxn. -/
def execAmoMaxn (d a b : SReg) (w : BitVec 1) (s : State) : Out := s.amo .maxn d a b w
/-- AMO.and. -/
def execAmoAnd (d a b : SReg) (w : BitVec 1) (s : State) : Out := s.amo .and d a b w
/-- AMO.or. -/
def execAmoOr (d a b : SReg) (w : BitVec 1) (s : State) : Out := s.amo .or d a b w
/-- AMO.xor. -/
def execAmoXor (d a b : SReg) (w : BitVec 1) (s : State) : Out := s.amo .xor d a b w
/-- AMO.swap. -/
def execAmoSwap (d a b : SReg) (w : BitVec 1) (s : State) : Out := s.amo .swap d a b w
/-- AMO.cas. -/
def execAmoCas (d a b : SReg) (w : BitVec 1) (s : State) : Out := s.amo .cas d a b w
/-- AMO.incw. -/
def execAmoIncw (d a b : SReg) (w : BitVec 1) (s : State) : Out := s.amo .incw d a b w

/-! ### The units (R326–R330) -/

/-- Whether two requests name some of the same bytes. -/
def Update.meets (u v : Update) : Bool := overlaps u.phys u.size v.phys v.size

/-- Who sent a request, and the updates merged into it. -/
def Update.parts (u : Update) : List UpdatePart := u.part :: u.folded

/-- Whether two updates come from one sender. -/
def UpdatePart.sameSender (a b : UpdatePart) : Bool := a.core == b.core && a.unit == b.unit

/-- Whether `u`, which arrived earlier, must be applied before `v`: an AMO keeps its place among the requests for its word (R330); updates
of one stream with ORD 1 keep their order, merged or not (R328). -/
def Update.precedes (u v : Update) : Bool :=
  u.meets v && (u.amo || v.amo || u.parts.any fun a => v.parts.any fun b => a.sameSender b && (a.ord || b.ord))

/-- The chains of a unit's base die once it has applied some parts in order; none where one of them is held for its predecessor (R329, R428). -/
def chainParts (die : Nat) : List Chain → List UpdatePart → Option (List Chain)
  | cs, [] => some cs
  | cs, p :: ps => (chainStepOf cs die p.seq).bind fun cs => chainParts die cs ps

/-- Whether a request is next in sequence order. -/
def Update.inSequence (cs : List Chain) (die : Nat) (u : Update) : Bool := (chainParts die cs u.parts).isSome

/-- Whether request n of a list in order of arrival has to wait: for an earlier one, or for its predecessor. -/
def Update.waitsIn (cs : List Chain) (die : Nat) (l : List Update) (n : Nat) (u : Update) : Bool :=
  (l.take n).any (fun v => v.precedes u) || !u.inSequence cs die

/-- A unit's state, if the stack is one of the part's. -/
def State.unitOf (s : State) (k : Nat) : SupdUnit := if h : k < 8 then s.supd[k] else { window := [], waiting := [], coming := [] }

/-- Changes a unit. -/
def State.setUnit (s : State) (k : Nat) (u : SupdUnit) : State :=
  { s with supd := if h : k < 8 then s.supd.set k u else s.supd }

/-- Whether an update in a unit's care belongs to a deterministic launch. -/
def SupdUnit.isDet (w : SupdUnit) : Bool := (w.window ++ w.waiting ++ w.coming).any fun u => u.part.seq.isSome

/-- Whether a request of the queue may take a window entry: one is free, and in deterministic mode 16 are kept for updates that are next in
sequence order (R326). -/
def SupdUnit.hasRoom (w : SupdUnit) (cs : List Chain) (die : Nat) (u : Update) : Bool :=
  decide (w.window.length < if w.isDet && !(u.part.seq.isSome && u.inSequence cs die) then 240 else 256)

/-- The place in the queue of the request that takes the next entry: the first that may, in the order in which they reached the unit, past none that it
must follow (R326, R330). -/
def SupdUnit.granted (w : SupdUnit) (cs : List Chain) (die : Nat) : Option Nat :=
  (w.waiting.zipIdx.find? fun p => w.hasRoom cs die p.1 && !(w.waiting.take p.2).any fun v => v.precedes p.1).map (·.2)

/-- Whether an AMO has no earlier access of its sequencer to the same bytes to wait for (R107). -/
def State.ownClear (s : State) (u : Update) : Bool :=
  let own := (s.core u.part.core).accesses
  !(u.amo && match own.findIdx? (fun a => a.id == u.part.id) with
    | some k => (own.take k).any fun b => overlaps u.phys u.size b.phys b.size && b.reply.isNone
    | none => false)

/-- Whether request n of those on their way may reach its unit: an AMO has its sequencer's earlier accesses of its bytes performed, and updates of a
stream with ORD 1 to one word come in their order (R107, R328). -/
def State.mayReach (s : State) (w : SupdUnit) (n : Nat) (u : Update) : Bool :=
  s.ownClear u && !(w.coming.take n).any fun v => u.part.sameSender v.part && v.precedes u

/-- SUPD_WINDOW_GRANT: the turn's unit is the stack. The first request of the queue that may takes a window entry; with the turn's flag set request n
on its way over the network reaches the unit, or is dropped at a link without a permit (R18, R326). -/
def execSupdWindowGrant (s : State) : Out :=
  let k := s.cur.unit
  let w := s.unitOf k
  if s.cur.flag then
    match w.coming[s.cur.n]? with
    | none => .next s
    | some u =>
      if !s.mayReach w s.cur.n u then .next s
      else s.ifArrives (s.memoryFate u.part.core u.phys) u.tag <|
        .next (s.setUnit k { w with waiting := w.waiting ++ [u], coming := w.coming.eraseIdx s.cur.n })
  else
    match w.granted s.chains k with
    | none => .next s
    | some n =>
      match w.waiting[n]? with
      | none => .next s
      | some u => .next (s.setUnit k { w with window := w.window ++ [u], waiting := w.waiting.eraseIdx n })

/-- Tells the sender of an applied request: an AMO's old value, or a beat of a stream. -/
def Core.applied (c : Core) (unit id : Nat) (old : Word) : Core :=
  if unit = 8 then { c with accesses := c.accesses.map fun a => if a.id = id then { a with reply := some old } else a }
  else if h : unit < 8 then { c with engines := c.engines.set unit (c.engines[unit].beatDone id) }
  else c

/-- Applies a request to its word and tells its senders (R111, R330); the base die refuses it where the page is no longer its context's (R413). -/
def State.applyUpdate (s : State) (u : Update) : State :=
  if !s.owned u.tag u.phys then s
  else
    let old := readMem s.mem u.phys u.size
    let new := amoResult u.op (8 * u.size) old u.value.toNat u.cmp.toNat
    let reply := if u.size = 4 then extend true 4 old else BitVec.ofNat 64 old
    let s := { s with mem := writeBytes s.mem u.phys (bytesOf u.size new),
                      chains := (chainParts (stackOf u.phys) s.chains u.parts).getD s.chains }
    u.parts.foldl (fun s t => s.onCore t.core fun c => c.applied t.unit t.id reply) s

/-- The requests in a unit's care, those of its window first, then its queue, then the updates still on their way. -/
def SupdUnit.known (w : SupdUnit) : List Update := w.window ++ w.waiting ++ w.coming.filter fun u => !u.amo

/-- A request leaves a unit. -/
def SupdUnit.without (w : SupdUnit) (u : Update) : SupdUnit :=
  if w.window.contains u then { w with window := w.window.erase u }
  else if w.waiting.contains u then { w with waiting := w.waiting.erase u }
  else { w with coming := w.coming.erase u }

/-- Applies what stands in a unit for some bytes, in an order that its rules allow, until none of it is in the window; an update that one of them waits
for comes before it. The last argument bounds the applications. -/
def State.applyWindow (k lo hi : Nat) : Nat → State → State
  | 0, s => s
  | fuel + 1, s =>
    let w := s.unitOf k
    let hits (u : Update) : Bool := overlaps lo (hi - lo) u.phys u.size
    match if w.window.any hits then
        w.known.zipIdx.find? (fun p => (hits p.1 || p.1.part.seq.isSome) && !Update.waitsIn s.chains k w.known p.2 p.1) else none with
    | none => s
    | some (u, _) => State.applyWindow k lo hi fuel ((s.setUnit k (w.without u)).applyUpdate u)

/-- A plain access of `n` bytes at a physical address waits for the window entries for its words that arrived before it (R330): they are
applied, and the access follows in the same step. -/
def State.applyPending (s : State) (a n : Nat) : State :=
  State.applyWindow (stackOf a) (a / 8 * 8) ((a + n + 7) / 8 * 8) (s.unitOf (stackOf a)).known.length s

/-- The combined operand of two updates, if their operation merges (R327). -/
def merged (u v : Update) : Option Nat :=
  let x := u.value.toNat
  let y := v.value.toNat
  let free := (u.parts ++ v.parts).all fun a => !a.ord && a.seq.isNone
  match u.op with
  | .add => some ((x + y) % 2 ^ 32)
  | .fadd => if free then some (amoResult .fadd 32 x y 0) else none
  | .badd => if free then some (amoResult .badd 32 x y 0) else none
  | .min => some (amoResult .min 32 x y 0)
  | .max => some (amoResult .max 32 x y 0)
  | .minn => some (amoResult .minn 32 x y 0)
  | .maxn => some (amoResult .maxn 32 x y 0)
  | .and => some (x &&& y)
  | .or => some (x ||| y)
  | .xor => some (x ^^^ y)
  | .swap => some y
  | .cas => none
  | .incw => none

/-- Two updates merge into the place of the first (R327): one word, operation and context, nothing that the order of their word would put between
them, and in deterministic mode the two next in sequence order (R428; log entry 12). -/
def SupdUnit.merge (w : SupdUnit) (cs : List Chain) (die i j : Nat) : Option SupdUnit :=
  match w.window[i]?, w.window[j]? with
  | some u, some v =>
    if i < j && !u.amo && !v.amo && u.phys == v.phys && u.op == v.op && u.tag == v.tag &&
        !((w.window.take j).drop (i + 1)).any (fun e => u.precedes e || e.precedes v) &&
        (u.part.seq.isNone && v.part.seq.isNone || (chainParts die cs (u.parts ++ v.parts)).isSome) then
      (merged u v).map fun x =>
        { w with window := (w.window.set i { u with value := BitVec.ofNat 64 x, folded := u.folded ++ v.parts }).eraseIdx j }
    else none
  | _, _ => none

/-- SUPD_APPLY: the turn's unit is the stack, its n the window entry; with its flag set, entry m merges into entry n instead. -/
def execSupdApply (s : State) : Out :=
  let k := s.cur.unit
  let w := s.unitOf k
  if s.cur.flag then
    match w.merge s.chains k s.cur.n s.cur.m with
    | some w => .next (s.setUnit k w)
    | none => .next s
  else
    match w.window[s.cur.n]? with
    | none => .next s
    | some u =>
      if Update.waitsIn s.chains k w.window s.cur.n u then .next s
      else .next ((s.setUnit k { w with window := w.window.eraseIdx s.cur.n }).applyUpdate u)

/-- AMO_REPLY: the old value returns and is written to d (R111); the turn's n is the place among the outstanding accesses. -/
def execAmoReply (s : State) : Out :=
  match s.here.accesses[s.cur.n]? with
  | some { kind := .amo _, d, reply := some v, .. } =>
    .next (s.on fun c => { c with accesses := c.accesses.eraseIdx s.cur.n }.setReg d v)
  | _ => .next s

end Sys2Proof.Machine
end

