-- ==== Sys2Proof/Machine/Barrier.lean ====
section
/-! DEFINITION. Barriers: handles, arrivals, waits and their commands to other cores (R82–R84, R116–R119, R337 note 5). -/

namespace Sys2Proof.Machine

/-- Fault codes of barrier commands (R78). -/
abbrev barHandle : BitVec 8 := 0x07
abbrev barFuture : BitVec 8 := 0x08

/-- A barrier of a core. -/
def Core.bar (c : Core) (b : Nat) : Barrier := Sparse.get Barrier.reset c.bars b

/-- An entry of a context's handle table. -/
def Context.handle (c : Context) (h : Nat) : Handle := Sparse.get Handle.reset c.handles h

/-- arrive(b): the token, and the barrier after it (R83). -/
def Barrier.arrive (b : Barrier) : BitVec 16 × Barrier :=
  let tok := b.p + 1
  let a := b.a + 1
  if a = b.n then (tok, { b with p := tok, a := 0 }) else (tok, { b with a := a })

/-- Applies an arrival at a barrier of a core. -/
def State.arrive (s : State) (core bar : Nat) : BitVec 16 × State :=
  let r := ((s.core core).bar bar).arrive
  (r.1, s.onCore core fun c => { c with bars := Sparse.put c.bars bar r.2 })

/-- What a wait on a token finds (R84): a lag, a wait, or a token too far ahead. -/
inductive WaitOutcome where
  | lag (l : Word)
  | wait
  | future
  deriving DecidableEq, Repr

/-- The outcome of a wait on token t at phase p (R84). -/
def waitOutcome (t p : BitVec 16) : WaitOutcome :=
  let δ := (t - p).toNat
  if δ = 0 then .lag 0
  else if δ = 1 then .wait
  else if δ < 256 then .future
  else .lag (BitVec.ofNat 64 (65536 - δ))

/-- The barrier that a handle names, or none for BAR_HANDLE (R82, R116). -/
def State.handleOf (s : State) (h : Word) : Option (Nat × Nat) :=
  if h.toNat < 1024 then
    let e := (s.ctx s.here.ctxTag).handle h.toNat
    if e.valid && ((s.core e.core.toNat).bar e.bar.toNat).n != 0 then some (e.core.toNat, e.bar.toNat) else none
  else none

/-- A barrier command: the predicate, then the handle, precisely and before any effect (R116). -/
def State.barCommand (s : State) (a : SReg) (p : PReg) (body : Nat → Nat → Out) : Out :=
  s.guarded p <|
    match s.handleOf (s.here.reg a) with
    | none => .next (s.precise barHandle (s.here.reg a))
    | some (core, bar) => body core bar

/-- Whether an arrival of this core at a barrier is still on its way (R119, the A cells of BARV in R337). -/
def State.arrivalPending (s : State) (core bar : Nat) : Bool :=
  s.net.any fun k => k.src == s.cur.core && k.dst == core && (match k.kind with
    | .arrive b _ _ _ _ => b == bar
    | _ => false)

/-- The outstanding accesses that an arrival waits for: loads not returned, stores and AMOs not performed (R337 note 5). -/
def Core.outstanding (c : Core) : List Nat := (c.accesses.filter fun a => a.reply.isNone).map (·.id)

/-- Writes d and retires the waiting instruction. -/
def State.finishWait (s : State) (d : SReg) (v : Word) : State :=
  s.retire (s.on fun c => { c with wait := .none }.setReg d v) 4

/-- The result of a wait of a barrier command that is in issue: return, wait or BAR_FUTURE (R84, R117). -/
def State.barrierWait (s : State) (d : SReg) (core bar : Nat) (t : BitVec 16) (syn : Bool) : State :=
  match waitOutcome t ((s.core core).bar bar).p with
  | .lag l => s.finishWait d (if syn then 0 else l)
  | .wait => s.on fun c => { c with wait := .barrier core bar t d syn }
  | .future => (s.on fun c => { c with wait := .none }).precise barFuture (t.setWidth 64)

/-- Whether a command on a barrier of the core itself applies at once. -/
def State.arrivesNow (s : State) (core bar : Nat) : Bool :=
  core == s.cur.core && s.here.outstanding.isEmpty && !s.arrivalPending core bar

/-- BAR.ARV (R117): at once, or later as an arrival on its way, for which d waits (R119). -/
def execBarArv (d a : SReg) (p : PReg) (s : State) : Out :=
  s.barCommand a p fun core bar =>
    if s.arrivesNow core bar then
      let r := s.arrive core bar
      s.answer r.2 d (r.1.setWidth 64)
    else
      let c := s.here
      .next (s.retire ((s.send s.cur.core core (.arrive bar c.outstanding d false c.nextId)).on
        fun c => { c.nextNumber with awaited := d :: c.awaited }) 4)

/-- BAR.WT (R84, R117). -/
def execBarWt (d a b : SReg) (p : PReg) (s : State) : Out :=
  s.barCommand a p fun core bar =>
    let t : BitVec 16 := (s.here.reg b).setWidth 16
    if s.arrivalPending core bar then .next (s.on fun c => c.count 0x06)
    else if core = s.cur.core then .next (s.barrierWait d core bar t false)
    else
      let id := s.here.nextId
      .next ((s.send s.cur.core core (.barrierQuery bar (some t) d id)).on fun c =>
        { c.nextNumber with wait := .barrierCommand id })

/-- BAR.SYN: an arrival and then a wait on its token (R117). -/
def execBarSyn (d a : SReg) (p : PReg) (s : State) : Out :=
  s.barCommand a p fun core bar => s.begun <|
    if s.arrivesNow core bar then
      let r := s.arrive core bar
      .next (r.2.barrierWait d core bar r.1 true)
    else
      let c := s.here
      .next ((s.send s.cur.core core (.arrive bar c.outstanding d true c.nextId)).on fun c =>
        { c.nextNumber with wait := .barrierCommand c.nextId })

/-- BAR.PHS: it orders nothing, so it waits for no arrival of its own core (R117, R332). -/
def execBarPhs (d a : SReg) (p : PReg) (s : State) : Out :=
  s.barCommand a p fun core bar =>
    if core = s.cur.core then s.answer s d (((s.core core).bar bar).p.setWidth 64)
    else
      .next (s.retire ((s.send s.cur.core core (.barrierQuery bar none d s.here.nextId)).on fun c =>
        { c.nextNumber with awaited := d :: c.awaited }) 4)

/-- The entry of a handle (R118). -/
def handleEntry (v : Word) : Handle :=
  { valid := v.getLsbD 63, scope := v.extractLsb' 32 2, core := v.extractLsb' 23 9, bar := v.extractLsb' 16 7, n := v.extractLsb' 0 16 }

/-- BAR.MAP (R118). -/
def execBarMap (d a b : SReg) (p : PReg) (s : State) : Out :=
  s.guarded p <|
    if !s.here.lvl then .next (s.precise 0x03 (Config.unstated s.here.pc.toNat))
    else
      let h := (s.here.reg a).toNat
      let v := s.here.reg b
      let e := handleEntry v
      if 1024 ≤ h then s.answer s d 2
      else if v.extractLsb' 34 29 != 0 || e.scope == 3 || (e.valid && e.n == 0) then s.answer s d 3
      else if !s.inPartition s.cur.core e.core.toNat then s.answer s d 4
      else
        let t := s.onCtx s.here.ctxTag fun c => { c with handles := Sparse.put c.handles h e }
        if e.valid then
          s.answer (t.onCore e.core.toNat fun c =>
            { c with bars := Sparse.put c.bars e.bar.toNat { c.bar e.bar.toNat with n := e.n, a := 0 } }) d 0
        else s.answer t d 0

/-- Takes one register off the list of awaited ones and writes it. -/
def Core.deliver (c : Core) (d : SReg) (v : Word) : Core := { c with awaited := c.awaited.erase d }.setReg d v

/-- Whether an earlier arrival of the same sequencer at the same barrier is still on its way (R119). -/
def State.orderedBehind (s : State) (n : Nat) (src dst bar : Nat) : Bool :=
  (s.net.take n).any fun k => k.src == src && k.dst == dst && (match k.kind with
    | .arrive b _ _ _ _ => b == bar
    | _ => false)

/-- Takes packet n off the network. -/
def State.takePacket (s : State) (n : Nat) : State := { s with net := s.net.eraseIdx n }

/-- BARRIER_ARRIVAL: an arrival on its way (the turn's n) reaches its barrier and is applied once the accesses before it are performed
(R83, R119, R337); of several arrivals of one cycle any order is a choice of turns in ascending core index. -/
def execBarrierArrival (s : State) : Out :=
  match s.arriving s.cur.n with
  | some { src, dst, kind := .arrive bar after d syn id, .. } =>
    let sender := s.core src
    if after.any (fun i => sender.outstanding.contains i) || s.orderedBehind s.cur.n src dst bar then .next s
    else
      let r := (s.takePacket s.cur.n).arrive dst bar
      if syn then
        .next (r.2.onCore src fun c =>
          if c.wait == .barrierCommand id then { c with wait := .barrier dst bar r.1 d true } else c)
      else if src = dst then .next (r.2.onCore src fun c => c.deliver d (r.1.setWidth 64))
      else .next (r.2.send dst src (.barrierReply d (r.1.setWidth 64) id))
  | _ => .next s

/-- BARRIER_COMMAND_REPLY: the reply to a command on another core's barrier (the turn's n) returns (R119). -/
def execBarrierCommandReply (s : State) : Out :=
  match s.arriving s.cur.n with
  | some { dst, kind := .barrierReply d v _, .. } =>
    .next ((s.takePacket s.cur.n).onCore dst fun c => c.deliver d v)
  | some { src, dst, kind := .barrierQuery bar tok d id, .. } =>
    if tok.isSome && s.orderedBehind s.cur.n src dst bar then .next s
    else
      let t := s.takePacket s.cur.n
      match tok with
      | none => .next (t.onCore src fun c => c.deliver d (((s.core dst).bar bar).p.setWidth 64))
      | some tk =>
        if (s.core src).wait == .barrierCommand id && src = s.cur.core then .next (t.barrierWait d dst bar tk false)
        else .next s
  | _ => .next s

/-- BARRIER_WAIT_RELEASE: the waiting core (the turn's) sees its phase, or one after it: the wait returns OK with d = 0 (R84, R117). -/
def execBarrierWaitRelease (s : State) : Out :=
  match s.here.wait with
  | .barrier core bar t d _ =>
    match waitOutcome t ((s.core core).bar bar).p with
    | .lag _ => .next (s.finishWait d 0)
    | _ => .next s
  | _ => .next s

end Sys2Proof.Machine
end

