-- ==== Sys2Proof/Machine/Branch.lean ====
section
/-! DEFINITION. Branches, jumps and hardware loops (R112–R115). -/

namespace Sys2Proof.Machine

/-- B: to pc + 4 × sext(disp22) when p[N] xor neg (R112). -/
def execB (p : PReg) (n : BitVec 1) (i : BitVec 22) (s : State) : Out :=
  if s.here.pred p != (n == 1#1) then s.transfer (s.here.pc + (i.signExtend 64 <<< 2)) id
  else s.issue 4 id

/-- JAL: s[d] := pc + 4; pc := pc + 4 × sext(imm16) (R112). -/
def execJal (d : SReg) (i : BitVec 16) (s : State) : Out :=
  s.transfer (s.here.pc + (i.signExtend 64 <<< 2)) fun c => c.setReg d (c.pc + 4)

/-- JAL with a leading word: s[d] := pc + 8; pc := pc + 4 × sext(X) (R89, R112). -/
def execJalLong (d : SReg) (i : BitVec 42) (s : State) : Out :=
  s.transfer (s.here.pc + (i.signExtend 64 <<< 2)) fun c => c.setReg d (c.pc + 8)

/-- BR (R112). -/
def execBr (a : SReg) (s : State) : Out := s.transfer (s.here.reg a) id

/-- JR: the target is read before d is written (R112). -/
def execJr (d a : SReg) (s : State) : Out := s.transfer (s.here.reg a) fun c => c.setReg d (c.pc + 4)

/-- Installs the pending ls and le of a level (R81, R114). -/
def Loops.install (l : Loops) (n : BitVec 2) : Loops :=
  { l with ls := (match l.pls[n.toNat] with | some v => l.ls.set n.toNat v | none => l.ls),
           le := (match l.ple[n.toNat] with | some v => l.le.set n.toNat v | none => l.le),
           pls := l.pls.set n.toNat none, ple := l.ple.set n.toNat none }

/-- Installs the pending addresses and then the instruction's own (R95, R114). -/
def Loops.aim (l : Loops) (n : BitVec 2) (x : Word) (o : BitVec 12) : Loops :=
  let l := l.install n
  if o = 0 then l
  else { l with ls := l.ls.set n.toNat (x + 4), le := l.le.set n.toNat (x + (o.setWidth 64 <<< 2)) }

/-- The level becomes active and the most recently activated, with a count. -/
def Loops.activate (l : Loops) (n : BitVec 2) (c : BitVec 32) : Loops :=
  { l with lc := l.lc.set n.toNat c, active := n :: l.active.filter (· != n) }

/-- The level becomes inactive with a count of 0. -/
def Loops.deactivate (l : Loops) (n : BitVec 2) : Loops :=
  { l with lc := l.lc.set n.toNat 0, active := l.active.filter (· != n) }

/-- LOOP and LOOPS with a count (R114): a count of 0 transfers past the body, any other activates the level. -/
def State.loop (s : State) (n : BitVec 2) (o : BitVec 12) (c : BitVec 32) : Out :=
  let l := s.here.loops.aim n s.here.pc o
  if c = 0 then s.transfer (l.le[n.toNat] + 4) fun k => { k with loops := l.deactivate n }
  else s.issue 4 fun k => { k with loops := l.activate n c }

/-- ceil(c / 16), the strips of LOOPS (R95). -/
def strips (c : BitVec 32) : BitVec 32 := BitVec.ofNat 32 ((c.toNat + 15) / 16)

/-- LOOP with an immediate count. -/
def execLoopImm (l : BitVec 2) (c : BitVec 11) (o : BitVec 12) (s : State) : Out := s.loop l o (c.setWidth 32)
/-- LOOP with a scalar count. -/
def execLoopReg (l : BitVec 2) (x : SReg) (o : BitVec 12) (s : State) : Out := s.loop l o ((s.here.reg x).setWidth 32)
/-- LOOPS with an immediate count. -/
def execLoopsImm (l : BitVec 2) (c : BitVec 11) (o : BitVec 12) (s : State) : Out := s.loop l o (strips (c.setWidth 32))
/-- LOOPS with a scalar count. -/
def execLoopsReg (l : BitVec 2) (x : SReg) (o : BitVec 12) (s : State) : Out := s.loop l o (strips ((s.here.reg x).setWidth 32))

/-- The levels down to and with `n` in the order of activation, the most recent first. -/
def upTo (n : BitVec 2) : List (BitVec 2) → List (BitVec 2)
  | [] => []
  | m :: ms => if m = n then [m] else m :: upTo n ms

/-- Ends a level: inactive, its count 0, its pending writes discarded (R81, R115). -/
def Loops.kill (l : Loops) (n : BitVec 2) : Loops :=
  { l.deactivate n with pls := l.pls.set n.toNat none, ple := l.ple.set n.toNat none }

/-- LBRK: ends an active level and every level activated after it, and continues after the body (R115). On an inactive level it has no effect (R115):
a write that the level holds stays pending, though R81 says that LBRK discards those: DEDUCED (log entry 61). -/
def execLbrk (l : BitVec 2) (s : State) : Out :=
  let ls := s.here.loops
  if ls.active.contains l then
    s.transfer (ls.le[l.toNat] + 4) fun k => { k with loops := (upTo l ls.active).foldl Loops.kill k.loops }
  else s.issue 4 id

end Sys2Proof.Machine
end

