-- ==== Sys2Proof/Machine/Compare.lean ====
section
/-! DEFINITION. Compare and predicate operations (R105). -/

namespace Sys2Proof.Machine

/-- A compare of s[a] with a value: p[q] := cond. -/
def State.compare (s : State) (len : Nat) (cond : Nat) (q : PReg) (a : SReg) (y : Core → Word) : Out :=
  s.issue len fun c => c.setPred q (holds cond (c.reg a) (y c))

/-- CMP. -/
def execCmp (q : PReg) (a b : SReg) (c : BitVec 3) (s : State) : Out := s.compare 4 c.toNat q a fun k => k.reg b
/-- CMPI with a signed condition. -/
def execCmpi (c : BitVec 2) (q : PReg) (a : SReg) (i : BitVec 16) (s : State) : Out :=
  s.compare 4 c.toNat q a fun _ => i.signExtend 64
/-- CMPI with ltn or len. -/
def execCmpiNatural (c : BitVec 1) (q : PReg) (a : SReg) (i : BitVec 16) (s : State) : Out :=
  s.compare 4 (4 + c.toNat) q a fun _ => i.setWidth 64
/-- CMPI with a leading word and a signed condition (R89). -/
def execCmpiLong (c : BitVec 2) (q : PReg) (a : SReg) (i : BitVec 42) (s : State) : Out :=
  s.compare 8 c.toNat q a fun _ => i.signExtend 64
/-- CMPI with a leading word and a natural condition (R89). -/
def execCmpiNaturalLong (c : BitVec 1) (q : PReg) (a : SReg) (i : BitVec 42) (s : State) : Out :=
  s.compare 8 (4 + c.toNat) q a fun _ => i.setWidth 64

/-- PAND. -/
def execPand (d a b : PReg) (s : State) : Out := s.issue 4 fun c => c.setPred d (c.pred a && c.pred b)
/-- POR. -/
def execPor (d a b : PReg) (s : State) : Out := s.issue 4 fun c => c.setPred d (c.pred a || c.pred b)
/-- PNOT. -/
def execPnot (d a : PReg) (s : State) : Out := s.issue 4 fun c => c.setPred d (!c.pred a)

end Sys2Proof.Machine
end

