-- ==== Sys2Proof/Machine/Plane.lean ====
section
/-! DEFINITION. Configuration planes: fields of targets (R184, R185, R187, R188), bindings, VC entries, scale registers, the grid
(R11), routes traced box by box (R171, R182, R186) and the receivers of an output. -/

namespace Sys2Proof.Machine

/-! ### Fields -/

/-- A plane: the 16-bit field FN of target EA at key 256 × EA + FN. -/
abbrev Plane := Sparse (BitVec 16)

/-- The value of a field that no command has written: 0x7F for sc0–sc7 of an element (R51), else zero (R167; log entry 3). -/
def fieldDefault (ea fn : Nat) : BitVec 16 := if ea < 64 && 0x30 ≤ fn && fn ≤ 0x37 then 0x007F else 0

/-- A field of a plane. -/
def fieldOf (p : Plane) (ea fn : Nat) : BitVec 16 := Sparse.get (fieldDefault ea fn) p (256 * ea + fn)

/-- A field of the active plane of a core. -/
def Core.field (c : Core) (ea fn : Nat) : BitVec 16 := fieldOf c.cfg.active ea fn

/-- The element operation word of a plane (R185, R189). -/
def eowField (p : Plane) (ea : Nat) : BitVec 64 :=
  fieldOf p ea 3 ++ (fieldOf p ea 2 ++ (fieldOf p ea 1 ++ fieldOf p ea 0))

/-- K0 (n = 0) or K1 (n = 1) of a plane (R185). -/
def constantOf (p : Plane) (ea n : Nat) : BitVec 32 := fieldOf p ea (5 + 2 * n) ++ fieldOf p ea (4 + 2 * n)

/-- EN of an element (R185). -/
def enabled (p : Plane) (ea : Nat) : Bool := (fieldOf p ea 0x3F).getLsbD 0

/-- SLOTS, KIND and ENG of input Ii (R185). -/
def bindSlots (p : Plane) (ea i : Nat) : Nat := ((fieldOf p ea (8 + i)).extractLsb' 0 4).toNat
/-- KIND of a binding. -/
def bindKind (p : Plane) (ea i : Nat) : Nat := ((fieldOf p ea (8 + i)).extractLsb' 4 3).toNat
/-- ENG of a binding. -/
def bindEngine (p : Plane) (ea i : Nat) : Nat := ((fieldOf p ea (8 + i)).extractLsb' 7 3).toNat

/-- Whether an element of a plane binds an input; one with EN = 0 binds none (R168). -/
def binds (p : Plane) (ea i : Nat) : Bool := enabled p ea && bindKind p ea i != 0

/-- The format of a VC entry, if the entry is enabled (R185). -/
def vcFormat (p : Plane) (ea vc : Nat) : Option Nat :=
  let f := fieldOf p ea (0x10 + vc)
  if f.getLsbD 7 then some (f.extractLsb' 0 4).toNat else none

/-- The scale register that a VC entry names, as its exponent (R64, R185). -/
def vcScale (p : Plane) (ea vc : Nat) : Nat :=
  ((fieldOf p ea (0x30 + ((fieldOf p ea (0x10 + vc)).extractLsb' 4 3).toNat)).extractLsb' 0 8).toNat

/-- Whether a pool descriptor is used, its slot count, SSZ, IL, bank mask and base (R263). -/
def poolSlots (p : Plane) (n : Nat) : Nat := ((fieldOf p (0x40 + n) 0).extractLsb' 0 12).toNat
/-- log2 of the slot bytes. -/
def poolSsz (p : Plane) (n : Nat) : Nat := ((fieldOf p (0x40 + n) 1).extractLsb' 0 5).toNat
/-- Sectors of a slot. -/
def poolSectors (p : Plane) (n : Nat) : Nat := 2 ^ poolSsz p n / 32

/-! ### The grid (R11) -/

/-- The box that lies one step north (0), east (1), south (2) or west (3) of an element's, if the grid has one. -/
def neighbour (v : Variant) (core ea dir : Nat) : Option (Nat × Nat) :=
  let gx := v.cx core * 8 + ea % 8
  let gy := v.cy core * 8 + ea / 8
  let at_ (x y : Nat) : Option (Nat × Nat) := some (v.coreAt (x / 8) (y / 8), (y % 8) * 8 + x % 8)
  match dir with
  | 0 => if gy = 0 then none else at_ gx (gy - 1)
  | 1 => if gx + 1 < v.columns * 8 then at_ (gx + 1) gy else none
  | 2 => if gy + 1 < 96 then at_ gx (gy + 1) else none
  | _ => if gx = 0 then none else at_ (gx - 1) gy

/-- Whether the token fabric may cross from a core in a direction to a neighbour (R403). -/
def State.fabricPermit (s : State) (a dir b : Nat) : Bool :=
  (Sparse.get 0#8 s.permit a).getLsbD dir && (Sparse.get 0#8 s.permit b).getLsbD (opposite dir)

/-! ### Routes (R171, R182, R186, R455) -/

/-- What tracing a route finds: the boxes it enters with the entry used in each, the crossings between cores it makes, and the port it
ends at or the box where it breaks. -/
structure Trace where
  boxes : List (Nat × Nat × Nat)
  crossings : List (Nat × Nat × Nat)
  port : Option (Nat × Nat × Nat)
  broken : Nat × Nat
  deriving DecidableEq, Repr

/-- Traces a route from a box on: the entry to use and the side (or output) it must come in from. -/
def traceFrom (v : Variant) (pl : Nat → Plane) : Nat → Nat → Nat → Nat → Nat → Trace → Trace
  | 0, _, _, _, _, t => t
  | fuel + 1, core, ea, entry, side, t =>
    let e := fieldOf (pl core) ea (0x40 + entry)
    let t := { t with boxes := t.boxes ++ [(core, ea, entry)], broken := (core, ea) }
    if !e.getLsbD 15 || (e.extractLsb' 12 3).toNat != side then t
    else
      let out := (e.extractLsb' 9 3).toNat
      if 4 ≤ out then { t with port := some (core, ea, out - 4) }
      else
        match neighbour v core ea out with
        | none => t
        | some (core', ea') =>
          let t := if core' = core then t else { t with crossings := t.crossings ++ [(core, out, core')] }
          traceFrom v pl fuel core' ea' (e.extractLsb' 6 3).toNat (opposite out) t

/-- Traces the route that begins at an entry of an element's box for output `out`; a route that reaches a port enters no entry of
a box twice, so the number of entries of the grid bounds it; one that circulates ends there at no port, and check 1 reports it with CFG_BAD_OP
at the producer's OUT field, as one that ends at a disabled entry (log entry 46). -/
def trace (v : Variant) (pl : Nat → Plane) (core ea out entry : Nat) : Trace :=
  traceFrom v pl 196608 core ea entry (4 + out) { boxes := [], crossings := [], port := none, broken := (core, ea) }

/-- The active planes of the device. -/
def State.activePlane (s : State) (core : Nat) : Plane := (s.core core).cfg.active

/-- The shadow planes of the device. -/
def State.shadowPlane (s : State) (core : Nat) : Plane := (s.core core).cfg.shadow

/-- The route entries of the enabled receivers of an OUT field. -/
def receiverEntries (p : Plane) (ea out : Nat) : List Nat :=
  let f := fieldOf p ea (0x0C + out)
  ((List.range 4).filter fun k => f.getLsbD (12 + k)).map fun k => (f.extractLsb' (3 * k) 3).toNat

/-- The fixed endpoints of a core that name an output (R187). -/
def boundEndpoints (p : Plane) (core ea out : Nat) : List Dest :=
  ((List.range 17).filter fun fn =>
      let f := fieldOf p 0xF0 fn
      f.getLsbD 15 && (f.extractLsb' 0 6).toNat == ea && (f.extractLsb' 6 1).toNat == out).map fun fn =>
    if fn < 8 then .data core fn 0 else if fn < 16 then .data core (fn - 8) 1 else .take core

/-- The receivers of an element's output under planes `pl`: those of its routes, then the bound endpoints. -/
def receiversUnder (v : Variant) (pl : Nat → Plane) (core ea out : Nat) : List (Nat × Dest) :=
  ((receiverEntries (pl core) ea out).filterMap fun e =>
      (trace v pl core ea out e).port.map fun p => (e, Dest.port p.1 p.2.1 p.2.2)) ++
    (boundEndpoints (pl core) core ea out).map fun d => (8, d)

/-- The ports that name an engine's output (R140, R185). -/
def engineReceivers (p : Plane) (core k : Nat) : List (Nat × Dest) :=
  (List.range 64).flatMap fun ea =>
    ((List.range 4).filter fun i => enabled p ea && bindKind p ea i == 3 && bindEngine p ea i == k).map fun i =>
      (8, Dest.port core ea i)

/-- The receivers of every output and engine of a core, as traced at a seal. -/
def allReceivers (v : Variant) (pl : Nat → Plane) (core : Nat) : Sparse (List (Nat × Dest)) :=
  ((List.range 128).map fun k => (k, receiversUnder v pl core (k / 2) (k % 2))) ++
    (List.range 8).map fun k => (128 + k, engineReceivers (pl core) core k)

/-- The receivers of an output of an element in the configuration that is active. -/
def Core.receivers (c : Core) (ea out : Nat) : List (Nat × Dest) := Sparse.get [] c.cfg.dests (2 * ea + out)

/-- The receivers of an engine's output. -/
def Core.streamReceivers (c : Core) (k : Nat) : List (Nat × Dest) := Sparse.get [] c.cfg.dests (128 + k)

end Sys2Proof.Machine
end

