-- ==== Sys2Proof/Machine/Fabric.lean ====
section
/-! DEFINITION. Link slots, tokens and the parts that every firing shares: ports, allocation in all receivers at once, consumption,
faults and round skews (R28–R31, R38, R62, R172–R179, R193–R198, R219–R224). -/

namespace Sys2Proof.Machine

/-! ### Tokens (R21, R22) -/

/-- The kinds of token. -/
abbrev kindData : BitVec 2 := 0
abbrev kindRecord : BitVec 2 := 1
abbrev kindMark : BitVec 2 := 2
abbrev kindDrain : BitVec 2 := 3

/-- FOV, TAG bit 7. -/
def Token.fov (t : Token) : Bool := t.tag.getLsbD 7
/-- FMT, TAG bits 11:8. -/
def Token.fmt (t : Token) : Nat := (t.tag.extractLsb' 8 4).toNat
/-- The row within its tile, TAG bits 6:0. -/
def Token.row (t : Token) : BitVec 7 := t.tag.extractLsb' 0 7
/-- The checkpoint flag of a MARK. -/
def Token.isCheckpoint (t : Token) : Bool := t.kind == kindMark && t.tag.getLsbD 8
/-- E0, the end-of-tile bit of an operation whose entry names no other (R285). -/
def Token.endOfTile (t : Token) : Bool := t.e.getLsbD 0
/-- Whether a token is DATA or RECORD. -/
def Token.isWork (t : Token) : Bool := t.kind == kindData || t.kind == kindRecord

/-- The TAG of a DATA token. -/
def dataTag (fmt : Nat) (fov : Bool) (row : BitVec 7) : BitVec 12 :=
  BitVec.ofNat 12 (fmt % 16 * 256 + fov.toNat * 128 + row.toNat)

/-- A token from its payload and its 32-bit sideband (R21). -/
def tokenOf (payload : Payload) (side : BitVec 32) : Token :=
  { payload := payload, tag := side.extractLsb' 20 12, taint := side.getLsbD 19, round := side.extractLsb' 11 8,
    e := side.extractLsb' 7 4, vc := side.extractLsb' 2 5, kind := side.extractLsb' 0 2 }

/-- The sideband of a token (R21). -/
def Token.side (t : Token) : BitVec 32 :=
  t.tag ++ (BitVec.ofBool t.taint ++ (t.round ++ (t.e ++ (t.vc ++ t.kind))))

/-- A MARK (R22, R129, R138). -/
def markToken (round : BitVec 8) (vc : BitVec 5) (tag : BitVec 12) : Token :=
  { payload := 0, tag := tag, taint := false, round := round, e := 0, vc := vc, kind := kindMark }

/-- A DRAIN that closes a configuration (R22, R177). -/
def drainToken (idx : BitVec 16) (round : BitVec 8) (vc : BitVec 5) : Token :=
  { payload := idx.setWidth 256, tag := 0, taint := false, round := round, e := 0, vc := vc, kind := kindDrain }

/-! ### Elements and their state -/

/-- An element of a core. -/
def Core.elem (c : Core) (ea : Nat) : Elem := Sparse.get Elem.reset c.elems ea

/-- Changes an element of a core. -/
def Core.onElem (c : Core) (ea : Nat) (f : Elem → Elem) : Core := { c with elems := Sparse.put c.elems ea (f (c.elem ea)) }

/-- The element whose turn it is. -/
def State.elem (s : State) : Elem := s.here.elem s.cur.unit

/-- Changes the element whose turn it is. -/
def State.onElem (s : State) (f : Elem → Elem) : State := s.on fun c => c.onElem s.cur.unit f

/-- Changes the operation state of the element whose turn it is. -/
def State.onOpst (s : State) (f : Opst → Opst) : State := s.onElem fun e => { e with opst := f e.opst }

/-- An input port of an element. -/
def Elem.port (e : Elem) (i : Nat) : Port := if h : i < 4 then e.ports[i] else Port.reset

/-- Changes an input port. -/
def Elem.onPort (e : Elem) (i : Nat) (f : Port → Port) : Elem :=
  if h : i < 4 then { e with ports := e.ports.set i (f e.ports[i]) } else e

/-- The token at the head of an input. -/
def Elem.head (e : Elem) (i : Nat) : Option Token := (e.port i).toks.head?.map (·.tok)

/-- The first `n` tokens of an input, if it holds as many. -/
def Elem.group (e : Elem) (i n : Nat) : List Token := ((e.port i).toks.take n).map (·.tok)

/-- An element faults: it fires no more in this configuration (R62, R176). -/
def State.halt (s : State) (core ea : Nat) : State := s.onCore core fun c => c.onElem ea fun e => { e with halted := true }

/-- The element whose turn it is halts, and its sequencer takes an asynchronous trap with SRCK 1. -/
def State.elementFault (s : State) (code : BitVec 8) (tval : Word) : State :=
  (s.halt s.cur.core s.cur.unit).raise s.cur.core code 1 s.cur.unit tval

/-- TVAL of FMT_MISMATCH (R62). -/
def mismatchTval (reason found port ea : Nat) : Word :=
  BitVec.ofNat 64 (reason * 2 ^ 20 + found * 2 ^ 16 + port * 2 ^ 8 + ea)

/-- FMT_MISMATCH at an input of the element whose turn it is (R62). -/
def State.mismatch (s : State) (reason found port : Nat) : State :=
  s.elementFault 0x25 (mismatchTval reason found port s.cur.unit)

/-- CFG_RATE of a round skew, with the mask of inputs (R176). -/
def State.skew (s : State) (mask : BitVec 4) : State := s.elementFault 0x23 (mask.setWidth 64)

/-- Adds to a counter of an element (R443). -/
def Elem.tally (e : Elem) (k n : Nat) : Elem :=
  if h : k < 4 then { e with ecnt := e.ecnt.set k (e.ecnt[k] + BitVec.ofNat 32 n) } else e

/-- ORs status into FSTAT (R57). -/
def Elem.flag (e : Elem) (bits : BitVec 8) : Elem := { e with fstat := e.fstat ||| bits }

/-! ### Ports, free slots and allocation (R28, R31, R38, R172) -/

/-- The slots of a port that are not FREE. -/
def Port.used (p : Port) : Nat := p.toks.length + p.pend + p.back

/-- The port at a place. -/
def State.portAt (s : State) : Dest → Port
  | .port c ea i => ((s.core c).elem ea).port i
  | .data c k i => if h : k < 8 then (if g : i < 2 then ((s.core c).engines[k]).di[i] else Port.reset) else Port.reset
  | .take c => (s.core c).takePort

/-- Changes the port at a place. -/
def State.onPort (s : State) (d : Dest) (f : Port → Port) : State :=
  match d with
  | .port c ea i => s.onCore c fun k => k.onElem ea fun e => e.onPort i f
  | .data c k i => s.onCore c fun q =>
      if h : k < 8 then
        if g : i < 2 then
          { q with engines := q.engines.set k { q.engines[k] with di := (q.engines[k]).di.set i (f (q.engines[k]).di[i]) } }
        else q
      else q
  | .take c => s.onCore c fun q => { q with takePort := f q.takePort }

/-- The core of a place. -/
def Dest.core : Dest → Nat
  | .port c _ _ => c
  | .data c _ _ => c
  | .take c => c

/-- The core of a sender. -/
def Sender.core : Sender → Nat
  | .elem c _ _ => c
  | .stream c _ => c
  | .seq c => c
  | .router c => c

/-- The slots that configuration gives a place: SLOTS of a binding, 8 at a data input or the take port (R28, R130, R140). -/
def State.slotsOf (s : State) : Dest → Nat
  | .port c ea i => if binds (s.activePlane c) ea i then bindSlots (s.activePlane c) ea i else 0
  | .data _ _ _ => 8
  | .take _ => 8

/-- The FREE slots that a place offers to a sender of core `src`: a core that has reported its drain offers none (R180), and one that has
not swapped none to a core that has (R181). -/
def State.freeFor (s : State) (src : Nat) (d : Dest) : Nat :=
  let g := (s.core d.core).cfg
  if g.reported || g.barred.contains src then 0 else s.slotsOf d - (s.portAt d).used

/-- The FREE slots that a place offers to the core whose turn it is. -/
def State.freeAt (s : State) (d : Dest) : Nat := s.freeFor s.cur.core d

/-- What a firing needs of each place, one entry a receiver. -/
abbrev Needs := List (Dest × Nat)

/-- What an output needs of its receivers. -/
def needsOf (rs : List (Nat × Dest)) (n : Nat) : Needs := rs.map fun r => (r.2, n)

/-- Whether every receiver has room for all that is needed of it (R38). -/
def State.roomFor (s : State) (ns : Needs) : Bool :=
  ns.all fun p => decide ((ns.filter fun q => q.1 == p.1).foldl (fun a q => a + q.2) 0 ≤ s.freeAt p.1)

/-- The places that lack room for what a sender of core `src` needs of them, with all that is needed of each. -/
def State.lackingFor (s : State) (src : Nat) (ns : Needs) : Needs :=
  ((ns.map fun p => (p.1, (ns.filter fun q => q.1 == p.1).foldl (fun a q => a + q.2) 0)).filter fun p =>
    decide (s.freeFor src p.1 < p.2)).eraseDups

/-- The places that lack room for what the core whose turn it is needs of them. -/
def State.lacking (s : State) (ns : Needs) : Needs := s.lackingFor s.cur.core ns

/-- Takes a slot in a receiver for each token and puts the tokens on the way (R15, R38). -/
def State.launchTokens (s : State) (src : Sender) (rs : List (Nat × Dest)) (toks : List Token) : State :=
  rs.foldl (fun s r =>
    { s.onPort r.2 (fun p => { p with pend := p.pend + toks.length }) with
        flights := s.flights ++ toks.map fun t => { src := src, dst := r.2, entry := r.1, pos := none, tok := t } }) s

/-- Puts a token on the way into a slot that is already taken. -/
def State.sendAllocated (s : State) (src : Sender) (dst : Dest) (t : Token) : State :=
  { s with flights := s.flights ++ [{ src := src, dst := dst, entry := 8, pos := none, tok := t }] }

/-- Frees the first `n` slots of a port: a count for a sender of another core is on its way back (R31, R172). -/
def State.freeHeads (s : State) (d : Dest) (n : Nat) : State :=
  let gone := (s.portAt d).toks.take n
  let far := gone.filter fun t => t.origin != d.core
  { s.onPort d (fun p => { p with toks := p.toks.drop n, back := p.back + far.length }) with
      credits := s.credits ++ far.map fun t => { dst := d, final := false, dest := t.origin } }

/-- The element whose turn it is waits in allocation no longer. -/
def State.unblock (s : State) : State := s.onElem fun e => { e with blocked := none }

/-- Consumes `n` tokens of an input of the element whose turn it is. -/
def State.consume (s : State) (i n : Nat) : State := (s.freeHeads (.port s.cur.core s.cur.unit i) n).unblock

/-- Whether output `o` is enabled. -/
def outputOn (w : Eow) (o : Nat) : Bool := w.oe.getLsbD o

/-- The receivers of an output of the element whose turn it is, none where the output is disabled. -/
def State.outs (s : State) (w : Eow) (o : Nat) : List (Nat × Dest) :=
  if outputOn w o then s.here.receivers s.cur.unit o else []

/-- Writes tokens to an output of the element whose turn it is. -/
def State.emitOn (s : State) (w : Eow) (o : Nat) (toks : List Token) : State :=
  (s.launchTokens (.elem s.cur.core s.cur.unit o) (s.outs w o) toks).unblock

/-- Takes a slot in every receiver of the enabled outputs for a token that the firing writes later (R221). -/
def State.holdOutputs (s : State) (w : Eow) : State :=
  ((s.outs w 0 ++ s.outs w 1).foldl (fun u r => u.onPort r.2 fun p => { p with pend := p.pend + 1 }) s).unblock

/-- Puts a token on the way to slots that have been taken for it on every enabled output. -/
def State.sendHeld (s : State) (w : Eow) (t : Token) : State :=
  let on (o : Nat) : List Flight :=
    (s.outs w o).map fun r => { src := .elem s.cur.core s.cur.unit o, dst := r.2, entry := r.1, pos := none, tok := t }
  { s with flights := s.flights ++ on 0 ++ on 1 }

/-- Could fire but could not allocate in some places: counted, and tried again later (R37, R443). -/
def State.blockedAt (s : State) (ds : Needs) : Out := .next (s.onElem fun e => { e.tally 1 1 with blocked := some ds })

/-- Could fire but could not allocate a resource of its own core. -/
def State.blockedHere (s : State) : Out := s.blockedAt []

/-- Waits for something of its own that is no allocation and no token. -/
def State.waitHere (s : State) : Out := .next s.unblock

/-- A named input lacks tokens (R443). -/
def State.starvedHere (s : State) : Out := .next (s.onElem fun e => e.tally 2 1)

/-! ### Formats of arriving tokens (R62) -/

/-- The format of a DATA token at an element. -/
def formatAt (p : Plane) (ea : Nat) (t : Token) : Option Nat :=
  if t.fov then some t.fmt else vcFormat p ea t.vc.toNat

/-- Whether a token is accepted by an operand that takes a set of formats; else the reason and the found format of R62. -/
def refusal (p : Plane) (ea : Nat) (ok : Nat → Bool) (t : Token) : Option (Nat × Nat) :=
  if t.kind != kindData then some (2, 0xE)
  else
    match formatAt p ea t with
    | none => some (1, 0xE)
    | some f => if ok f then none else some (0, f)

/-- The first token of an input that is refused. -/
def firstRefusal (p : Plane) (ea : Nat) (ok : Nat → Bool) (ts : List Token) : Option (Nat × Nat) := ts.findSome? (refusal p ea ok)

/-! ### Round skews (R176, R195) -/

/-- Whether an input is barred from giving DATA or RECORD next: a MARK or DRAIN at its head, or closed (R176). -/
def Elem.barred (e : Elem) (i : Nat) : Bool := (e.port i).closed || (e.head i).any fun t => !t.isWork

/-- Whether an open input has DATA or RECORD at its head. -/
def Elem.hasWork (e : Elem) (i : Nat) : Bool := !(e.port i).closed && (e.head i).any (·.isWork)

/-- Whether a MARK of another round stands at the head of an input. -/
def Elem.wrongRound (e : Elem) (i : Nat) : Bool :=
  match e.head i with
  | some t => t.kind == kindMark && t.round != e.rnd
  | none => false

/-- Whether a group of `n` tokens at an input cannot be one: a MARK or DRAIN stands within it, or, where the operation's groups end
tiles, a token other than the last ends one (R195). -/
def Elem.badGroup (e : Elem) (i n : Nat) (tiles : Bool) : Bool :=
  let g := e.group i n
  e.hasWork i && (g.any (fun t => !t.isWork) || (tiles && (g.take (n - 1)).any (fun t => t.endOfTile)))

/-- A mask of inputs. -/
def maskOf (is : List Nat) : BitVec 4 := is.foldl (fun m i => m ||| BitVec.ofNat 4 (2 ^ i)) 0

/-- The inputs at fault when the next action takes groups of `n` from `is`, none where there is no skew; `must` says that a firing is
owed. They are those with a MARK or a DRAIN at their head, those closed, and those with a bad group (R176, R195). -/
def Elem.skewed (e : Elem) (is : List Nat) (n : Nat) (must tiles : Bool) : List Nat :=
  let bad := fun i => e.badGroup i n tiles
  let mixed := is.any e.barred && (must || is.any e.hasWork)
  if mixed || is.any e.wrongRound || is.any bad then is.filter fun i => e.barred i || bad i else []

/-- Whether every input of a list holds `n` tokens of DATA or RECORD at its head. -/
def Elem.ready (e : Elem) (is : List Nat) (n : Nat) : Bool :=
  is.all fun i => decide (n ≤ (e.port i).toks.length) && (e.group i n).all (·.isWork)

/-- The tests that come before a firing: the inputs taken from must not be skewed and must hold their tokens. -/
def State.whenReady (s : State) (is : List Nat) (n : Nat) (must : Bool) (body : Out) (tiles : Bool := true) : Out :=
  let bad := s.elem.skewed is n must tiles
  if !bad.isEmpty then .next (s.skew (maskOf bad))
  else if s.elem.ready is n then body
  else s.starvedHere

/-- The test of room that comes before a firing's effect (R38). -/
def State.whenRoom (s : State) (ns : Needs) (body : Out) : Out := if s.roomFor ns then body else s.blockedAt (s.lacking ns)

/-! ### Sources and results of the operations (R185, R193, R197) -/

/-- The inputs among three source codes, each once. -/
def inputsOf (cs : List (BitVec 3)) : List Nat := ((cs.map (·.toNat)).filter (· < 4)).eraseDups

/-- The inputs that an EOW names. -/
def namedInputs (w : Eow) : List Nat := inputsOf [w.sa, w.sb, w.sc]

/-- A token's fields that a firing's results take from the tokens consumed: row, E bits and TAINT. -/
structure Carry where
  row : BitVec 7
  e : BitVec 4
  taint : Bool
  deriving DecidableEq, Repr

/-- The carried fields of a firing that consumed these tokens, the last of SA among them. -/
def carryOf (sa : List Token) (all : List Token) : Carry :=
  { row := (sa.getLast?.map (·.row)).getD 0, e := (sa.getLast?.map (·.e)).getD 0, taint := all.any (·.taint) }

/-- A DATA token that the element whose turn it is produces (R63, R197). -/
def State.dataToken (s : State) (w : Eow) (payload : Payload) (k : Carry) : Token :=
  { payload := payload, tag := dataTag ((vcFormat s.here.cfg.active s.cur.unit w.vco.toNat).getD 0) false k.row, taint := k.taint,
    round := s.elem.rnd, e := k.e, vc := w.vco, kind := kindData }

/-- A token forwarded by an operation of R219. -/
def State.forward (s : State) (w : Eow) (t : Token) : Token := { t with vc := w.vco, round := s.elem.rnd }

/-- The phase after an end of tile (R56). -/
def Elem.endTile (e : Elem) (ended : Bool) : Elem := if ended then { e with phase0 := e.phase0 + 7, phase1 := e.phase1 + 7 } else e

/-- A firing has taken place: its count, status and, at an end of tile on SA, the dither phases; an element with STAGE.TERM retires a
unit (R56, R57, R354, R443). -/
def State.fired (s : State) (st : BitVec 8) (ended : Bool) : State :=
  s.on fun c =>
    { c.onElem s.cur.unit fun e => ((e.tally 0 1).flag st).endTile ended with
        units := if (c.field s.cur.unit 0x3C).getLsbD 11 then c.units + 1 else c.units }

end Sys2Proof.Machine
end

