-- ==== Sys2Proof/Machine/PoolCore.lean ====
section
/-! DEFINITION. Tile slots: handles, the life cycle of a slot, placement in banks, allocation and reservations, faults and automatic
abandons (R30, R33–R35, R39, R42, R262–R272). -/

namespace Sys2Proof.Machine

/-! ### Handles (R34) -/

/-- CORE. -/
def handleCore (h : BitVec 32) : Nat := (h.extractLsb' 23 9).toNat
/-- POOL. -/
def handlePool (h : BitVec 32) : Nat := (h.extractLsb' 19 4).toNat
/-- SLOT. -/
def handleSlot (h : BitVec 32) : Nat := (h.extractLsb' 8 11).toNat
/-- GEN. -/
def handleGen (h : BitVec 32) : BitVec 8 := h.extractLsb' 0 8

/-- A handle from its fields. -/
def handleFrom (core pool slot : Nat) (gen : BitVec 8) : BitVec 32 :=
  BitVec.ofNat 9 core ++ (BitVec.ofNat 4 pool ++ (BitVec.ofNat 11 slot ++ gen))

/-- The non-zero handles of a handle-format payload, in lane order (R36). -/
def payloadHandles (p : Payload) : List (BitVec 32) :=
  ((List.range 8).map fun k => p.extractLsb' (32 * k) 32).filter (· != 0)

/-- A payload with a handle in lane 0. -/
def handlePayload (h : BitVec 32) : Payload := h.setWidth 256

/-! ### Pools and slots (R262, R263) -/

/-- A pool of a core. -/
def Core.pool (c : Core) (n : Nat) : Pool := if h : n < 16 then c.pools[n] else Pool.reset

/-- Changes a pool of a core. -/
def Core.onPool (c : Core) (n : Nat) (f : Pool → Pool) : Core :=
  if h : n < 16 then { c with pools := c.pools.set n (f c.pools[n]) } else c

/-- A slot of a pool. -/
def Pool.slot (p : Pool) (i : Nat) : Slot := Sparse.get Slot.reset p.slots i

/-- Changes a slot of a pool of a core. -/
def Core.onSlot (c : Core) (n i : Nat) (f : Slot → Slot) : Core :=
  c.onPool n fun p => { p with slots := Sparse.put p.slots i (f (p.slot i)) }

/-- A bank of a core. -/
def Core.bank (c : Core) (b : Nat) : Bank := if h : b < 16 then c.banks[b] else Bank.reset

/-- Changes a bank of a core. -/
def Core.onBank (c : Core) (b : Nat) (f : Bank → Bank) : Core :=
  if h : b < 16 then { c with banks := c.banks.set b (f c.banks[b]) } else c

/-- SLOTS of an active descriptor; 0 marks a pool unused. -/
def Core.poolSize (c : Core) (n : Nat) : Nat := if n < 16 then poolSlots c.cfg.active n else 0

/-- The sectors of a slot of a pool. -/
def Core.poolSectors (c : Core) (n : Nat) : Nat := Sys2Proof.Machine.poolSectors c.cfg.active n

/-- The banks of a descriptor, in ascending order. -/
def poolBanks (p : Plane) (n : Nat) : List Nat :=
  (List.range 16).filter fun b => (fieldOf p (0x40 + n) 2).getLsbD b

/-- Whether a descriptor's IL is SLOT. -/
def poolBySlot (p : Plane) (n : Nat) : Bool := (fieldOf p (0x40 + n) 1).getLsbD 5

/-- BASE. -/
def poolBase (p : Plane) (n : Nat) : Nat := ((fieldOf p (0x40 + n) 3).extractLsb' 0 10).toNat

/-- The bank, the line and the half of it in which sector q of slot i of a pool lies (R266). -/
def placement (p : Plane) (n i q : Nat) : Nat × Nat × Nat :=
  let bs := poolBanks p n
  let b := bs.length
  let sl := 2 ^ poolSsz p n / 64
  let line := q / 2
  let base := poolBase p n
  if poolBySlot p n then ((bs[i % b]?).getD 0, base + i / b * sl + line, q % 2)
  else ((bs[(i * sl + line) % b]?).getD 0, base + (i * sl + line) / b, q % 2)

/-- The key of a sector in a core's pool memory. -/
def sectorKey (pl : Nat × Nat × Nat) : Nat := (pl.1 * 1024 + pl.2.1) * 2 + pl.2.2

/-- The banks in which a slot lies (R268). -/
def slotBanks (p : Plane) (n i : Nat) : List Nat :=
  let bs := poolBanks p n
  if poolBySlot p n then [(bs[i % bs.length]?).getD 0] else bs

/-- Slot states. -/
abbrev slotFree : BitVec 2 := 0
abbrev slotAllocated : BitVec 2 := 1
abbrev slotPublished : BitVec 2 := 2

/-- Fault codes of slots (R39). -/
abbrev staleHandle : BitVec 8 := 0x30
abbrev overread : BitVec 8 := 0x31
abbrev doublePub : BitVec 8 := 0x32
abbrev writeTwice : BitVec 8 := 0x33
abbrev abandonUnder : BitVec 8 := 0x36

/-! ### Events on slots (R30, R35, R39) -/

/-- The slot that a handle names at its core, or none for a stale handle; a handle of zero names no slot (R36). -/
def Core.slotOf (c : Core) (h : BitVec 32) : Option Slot :=
  let n := handlePool h
  let i := handleSlot h
  let t := (c.pool n).slot i
  if h != 0 && i < c.poolSize n && t.state != slotFree && t.count.extractLsb' 0 8 == handleGen h then some t else none

/-- Returns a slot to FREE. -/
def Slot.free (t : Slot) : Slot := { t with state := slotFree, n := 0 }

/-- Publishes a handle with a read count. -/
def Core.publish (c : Core) (h : BitVec 32) (n : BitVec 8) : Except (BitVec 8) Core :=
  match c.slotOf h with
  | none => .error staleHandle
  | some t =>
    if t.state = slotPublished then .error doublePub
    else .ok (c.onSlot (handlePool h) (handleSlot h) fun t => if n = 0 then t.free else { t with state := slotPublished, n := n, byElem := false })

/-- Abandons m readers of a handle. -/
def Core.abandon (c : Core) (h : BitVec 32) (m : BitVec 8) : Except (BitVec 8) Core :=
  match c.slotOf h with
  | none => .error staleHandle
  | some t =>
    if t.state = slotPublished && t.n < m then .error abandonUnder
    else .ok (c.onSlot (handlePool h) (handleSlot h) fun t =>
      if t.state = slotAllocated || t.n = m then t.free else { t with n := t.n - m })

/-- The effect of a consuming read on a published slot. -/
def Slot.consume (t : Slot) : Slot := if t.n ≤ 1 then t.free else { t with n := t.n - 1 }

/-- An automatic abandon of one reader at the core of the handle: one that finds a stale handle, or too few readers, is counted
(R42, R271). -/
def Core.autoAbandon (c : Core) (h : BitVec 32) : Core :=
  match c.abandon h 1 with
  | .ok c => c
  | .error _ => c.onPool (handlePool h) fun p => { p with abflt := if p.abflt = 0xFFFF then p.abflt else p.abflt + 1 }

/-- An automatic abandon by a unit of a core; a handle of a core outside the partition reaches no pool (R27). -/
def State.autoAbandon (s : State) (core : Nat) (h : BitVec 32) : State :=
  if s.inPartition core (handleCore h) then s.onCore (handleCore h) fun c => c.autoAbandon h else s

/-- Abandons a reader of every handle of a payload. -/
def State.abandonPayload (s : State) (core : Nat) (p : Payload) : State := (payloadHandles p).foldl (fun s h => s.autoAbandon core h) s

/-- Whether a token at an element carries handles: by its TAG, or by the binding of its VC (R36, R224). -/
def carriesHandles (p : Plane) (ea : Nat) (t : Token) : Bool := t.kind == kindData && formatAt p ea t == some 0xF

/-- A token discarded by an element: the readers of its handles are abandoned (R42, R224). -/
def State.discardToken (s : State) (core ea : Nat) (t : Token) : State :=
  if carriesHandles (s.activePlane core) ea t then s.abandonPayload core t.payload else s

/-! ### Allocation (R268, R282) -/

/-- The FREE slots of a pool that may be granted, in ascending order. -/
def Core.grantableSlots (c : Core) (n : Nat) : List Nat :=
  (List.range (c.poolSize n)).filter fun i =>
    ((c.pool n).slot i).state == slotFree && !(slotBanks c.cfg.active n i).any fun b => (c.bank b).bfnc

/-- F. -/
def Core.freeCount (c : Core) (n : Nat) : Nat := (c.grantableSlots n).length

/-- R, the sum of all reservation counts. -/
def Pool.reserved (p : Pool) : Nat := p.rsv.foldl (fun a e => a + e.2) 0

/-- The reservation that a core holds in a pool. -/
def Pool.reservedBy (p : Pool) (core : Nat) : Nat := ((p.rsv.find? fun e => e.1 == core).map (·.2)).getD 0

/-- Whether a request of a core may be granted now. -/
def Core.mayGrant (c : Core) (n core : Nat) : Bool :=
  let p := c.pool n
  !p.pfnc && (if 0 < p.reservedBy core then decide (1 ≤ c.freeCount n) else decide (p.reserved + 1 ≤ c.freeCount n))

/-- Allocates a slot (R30, R35): the pool after it, the slot, and the generation. -/
def Core.allocate (c : Core) (n core : Nat) (byElem : Bool) : Option (Nat × BitVec 8 × Core) :=
  match c.grantableSlots n with
  | [] => none
  | i :: _ =>
    let count := ((c.pool n).slot i).count + 1
    let c := c.onSlot n i fun t =>
      { t with state := slotAllocated, n := 0, count := count, pres := [], owner := core, byElem := byElem }
    some (i, count.extractLsb' 0 8,
      c.onPool n fun p => { p with rsv := p.rsv.map fun e => if e.1 = core then (e.1, e.2 - 1) else e })

/-- Some bank of a pool is fenced. -/
def Core.bankFenced (c : Core) (n : Nat) : Bool := (poolBanks c.cfg.active n).any fun b => (c.bank b).bfnc

/-- Whether POOL.AL and POOL.TAL answer FENCED (R274, R276). -/
def Core.fenced (c : Core) (n : Nat) : Bool :=
  (c.pool n).pfnc || (c.bankFenced n && (c.grantableSlots n).isEmpty)

/-! ### Faults of elements and streams (R39, R158, R272) -/

/-- PORT of a fault record (R272). -/
def Requester.port (r : Requester) (core : Nat) : BitVec 8 :=
  if r.core ≠ core then 0x81
  else match r with
    | .seq _ => 0x80
    | .elem _ ea => BitVec.ofNat 8 (0x40 + ea)
    | .stream _ k _ => BitVec.ofNat 8 k

/-- The place of a requester in the port order of a core's pool engine (R33). -/
def Requester.rank (r : Requester) (core : Nat) : Nat :=
  if r.core ≠ core then 73
  else match r with
    | .seq _ => 72
    | .elem _ ea => 8 + ea
    | .stream _ k _ => k

/-- The link slots that a beat holds in each receiver: a token for each FABRIC destination, and a handle token for each POOL
destination at the first beat of its tile (R150). -/
def StreamJob.beatLinks (j : StreamJob) (core n : Nat) : List Dest :=
  ((j.entriesOf 1) ++ (if j.sector n = 0 then j.entriesOf 2 else [])).map fun p => Dest.port core (destElem p.2) (destPort p.2)

/-- Gives back link slots that no token will use. -/
def State.returnLinks (s : State) (ds : List Dest) : State := ds.foldl (fun s d => s.onPort d fun p => { p with pend := p.pend - 1 }) s

/-- The receivers of every enabled output of an element (R185, R189). -/
def Core.allReceivers (c : Core) (ea : Nat) : List Dest :=
  let w := eowField c.cfg.active ea
  ((if w.getLsbD 37 then c.receivers ea 0 else []) ++ (if w.getLsbD 38 then c.receivers ea 1 else [])).map (·.2)

/-- The opcode of an element's operation (R189). -/
def opcodeOf (p : Plane) (ea : Nat) : Nat := ((eowField p ea).extractLsb' 56 8).toNat

/-- The entry of an element's read list that a request belongs to. -/
def Elem.awaits (e : Elem) (h : BitVec 32) (sector : Nat) : Option Nat :=
  e.prq.findIdx? fun q => q.handle == h && q.sector == sector && q.reply.isNone

/-- A read of an element that faults leaves its list; where it is PRQ's, the link slots taken for its reply return (R238). -/
def State.dropRead (s : State) (core ea : Nat) (h : BitVec 32) (sector : Nat) : State :=
  match ((s.core core).elem ea).awaits h sector with
  | none => s
  | some i =>
    let s := if opcodeOf (s.activePlane core) ea = 0x83 then s.returnLinks ((s.core core).allReceivers ea) else s
    s.onCore core fun c => c.onElem ea fun e => { e with prq := e.prq.eraseIdx i }

/-- Takes the allocation requests of an engine out of every pool's queue. -/
def State.dropRequests (s : State) (who : Requester → Bool) : State :=
  { s with cores := s.cores.map fun e => (e.1, { e.2 with pools := e.2.pools.map fun p =>
             { p with queue := p.queue.filter fun q => !who q.who } }),
           net := s.net.filter fun k => match k.kind with
             | .allocRequest _ q => !who q.who
             | _ => true }

/-- Whether a requester is an engine of a core. -/
def Requester.isEngine (core k : Nat) : Requester → Bool
  | .stream c e _ => c == core && e == k
  | _ => false

/-- Whether a bank request is a read of an engine for one of some beats. -/
def BankReq.isReadOf (core k : Nat) (beats : List Nat) (r : BankReq) : Bool :=
  r.who.isEngine core k && beats.contains r.beat && r.op.reads

/-- Withdraws the reads of an engine for some beats. -/
def State.dropReads (s : State) (core k : Nat) (beats : List Nat) : State :=
  { s with cores := s.cores.map fun e => (e.1, { e.2 with banks := e.2.banks.map fun b =>
             { b with queue := b.queue.filter fun r => !r.isReadOf core k beats,
                      parked := b.parked.filter fun r => !r.isReadOf core k beats } }),
           net := s.net.filter fun q => match q.kind with
             | .bankRequest r => !r.isReadOf core k beats
             | _ => true }

/-- The port to which the handles of a destination entry go. -/
def StreamJob.handlePort (j : StreamJob) (core entry : Nat) : Dest :=
  let e := (j.dests[entry]?).getD 0
  .port core (destElem e) (destPort e)

/-- The tiles of some beats that the stream has still to publish and of which none of its other beats writes a sector: their entries and
handles. -/
def StreamJob.orphans (j : StreamJob) (gone kept : List Beat) : List (Nat × BitVec 32) :=
  ((gone.flatMap (·.tiles)).eraseDups).filter fun t => j.unpub.contains t.2 && !kept.any fun b => b.tiles.contains t

/-- Issued beats of a stream leave it unperformed: their reads are withdrawn, and the link slots of their tokens return to FREE, those for
the handles of their tiles only where no other beat will publish the tile (R151, R158, R161). -/
def State.dropBeats (s : State) (core k : Nat) (gone : Beat → Bool) : State :=
  match ((s.core core).engine k).job with
  | none => s
  | some j =>
    let out := j.beats.filter gone
    let kept := j.beats.filter fun b => !gone b
    let orphans := j.orphans out kept
    let tokens := out.flatMap fun _ => (j.entriesOf 1).map fun p => Dest.port core (destElem p.2) (destPort p.2)
    let s := (s.returnLinks (tokens ++ orphans.map fun t => j.handlePort core t.1)).dropReads core k (out.map (·.n))
    s.onCore core fun c => c.onEngine k fun e =>
      { e with job := some { j with beats := kept, unpub := j.unpub.filter fun h => !orphans.any fun t => t.2 == h } }

/-- A stream ends before beat `n`: no later beat is issued, the beats from n on whose data have not been read are dropped, and its
allocation requests are withdrawn; its other beats are performed, since data already read are never dropped (R158, R161). -/
def State.endWalk (s : State) (core k n : Nat) (ending : BitVec 3) : State :=
  match ((s.core core).engine k).job with
  | none => s
  | some j =>
    let s := s.returnLinks (if j.linked then j.beatLinks core j.next else [])
    let s := (s.dropRequests (Requester.isEngine core k)).onCore core fun c => c.onEngine k fun e =>
      { e with job := some { j with linked := false, next := min n j.next, reqs := Vector.replicate 4 none,
                                    ending := if j.ending = some 1 then some 1 else some ending } }
    s.dropBeats core k fun b => decide (n ≤ b.n) && !b.delivered && b.data.isNone

/-- The beats of an engine whose reads are parked at a bank of any core. -/
def State.parkedBeats (s : State) (core k : Nat) : List Nat :=
  s.cores.flatMap fun e => e.2.banks.toList.flatMap fun b => (b.parked.filter fun r => r.who.isEngine core k).map (·.beat)

/-- A killed stream waits for no sector that has not been written: the beats whose reads are parked leave it (R45, R161; log entry 42). -/
def State.dropParked (s : State) (core k : Nat) : State :=
  let beats := s.parkedBeats core k
  s.dropBeats core k fun b => beats.contains b.n

/-- A stream halts at beat n (R158): its STATE changes once the beats before have been performed (STREAM_COMPLETE). A later beat of a
stream that halts already changes nothing of the halt. -/
def State.haltStream (s : State) (core k n : Nat) (code : BitVec 8) (addr : Word) : State :=
  let later := match ((s.core core).engine k).job with
    | some j => j.ending == some 2 && decide (j.next ≤ n)
    | none => false
  let s := s.endWalk core k n 2
  s.onCore core fun c => c.onEngine k fun e =>
    match e.job with
    | some j => if j.ending = some 2 && !later then { e with fcode := code, faddr := addr } else e
    | none => e

/-- A pool write of beat n has faulted, and has no effect on its slot. -/
def Engine.writeFailed (e : Engine) (n : Nat) : Engine := e.onBeat n fun b => { b with waits := b.waits - 1, failed := true }

/-- The handle of a tile that a stream will not publish is not delivered: its link slot returns to FREE (R151, R158). -/
def State.dropHandle (s : State) (core k entry : Nat) (h : BitVec 32) : State :=
  match ((s.core core).engine k).job with
  | some j =>
    if j.unpub.contains h then
      (s.returnLinks [j.handlePort core entry]).onCore core fun c => c.onEngine k fun e =>
        { e with job := some { j with unpub := j.unpub.filter (· != h) } }
    else s
  | none => s

/-- Stops the source of a fault (R39): an engine's entry 0–3 is the destination of a write, 4 its source; 5 is the PAD of a stream that has
ended (R161). -/
def State.stopSource (s : State) (who : Requester) (beat sector : Nat) (code : BitVec 8) (h : BitVec 32) : State :=
  match who with
  | .seq _ => s
  | .elem c ea => (s.dropRead c ea h sector).halt c ea
  | .stream c k i =>
    if i = 5 then s else
    let s := s.haltStream c k beat code (h.setWidth 64)
    if i < 4 then
      let first := match ((s.core c).engine k).job with
        | some j => j.sector beat == 0
        | none => false
      (if first || code = doublePub then s.dropHandle c k i h else s).onCore c fun q => q.onEngine k fun e => e.writeFailed beat
    else s

/-- FREC (R272). -/
def faultRecord (sector : Nat) (h : BitVec 32) (port code : BitVec 8) : BitVec 64 :=
  BitVec.ofNat 64 (2 ^ 63 + sector % 2048 * 2 ^ 48 + h.toNat * 2 ^ 16 + port.toNat * 2 ^ 8 + code.toNat)

/-- A count-mismatch fault of an element or stream engine at the pool's core (R39, R272). A handle of a core outside the partition
names no pool of the context: the source alone stops, and its own sequencer takes the trap. -/
def State.slotFault (s : State) (who : Requester) (beat sector : Nat) (h : BitVec 32) (code : BitVec 8) : State :=
  let core := handleCore h
  let s := s.stopSource who beat sector code h
  if s.inPartition who.core core then
    let s := s.onCore core fun c => c.onPool (handlePool h) fun p => { p with frec := faultRecord sector h (who.port core) code }
    s.raise core code 3 (handlePool h) (h.setWidth 64)
  else s.raise who.core code 3 (handlePool h) (h.setWidth 64)

/-- An event of an element on a slot: publish or abandon. -/
def State.slotEvent (s : State) (who : Requester) (h : BitVec 32) (ev : Core → Except (BitVec 8) Core) : State :=
  match ev (s.core (handleCore h)) with
  | .ok c => s.setCore (handleCore h) c
  | .error code => s.slotFault who 0 0 h code

/-! ### Requests (R268, R267) -/

/-- Puts an allocation request in a pool's queue, or on its way to another core's (R33). -/
def State.requestSlot (s : State) (core pool : Nat) (r : AllocReq) : State :=
  if r.who.core = core then s.onCore core fun c => c.onPool pool fun p => { p with queue := p.queue ++ [r] }
  else s.send r.who.core core (.allocRequest pool r)

/-- A sector request presented at the core of its handle: a stale handle, or a read of a slot that is not published, faults at once;
any other joins its bank's queue, under a number that tells the order of arrival (R33, R35, R39, R267). -/
def State.presentRequest (s : State) (r : BankReq) : State :=
  let core := handleCore r.handle
  let c := s.core core
  match c.slotOf r.handle with
  | none => s.slotFault r.who r.beat r.sector r.handle staleHandle
  | some t =>
    if r.op.reads && t.state = slotAllocated then s.slotFault r.who r.beat r.sector r.handle overread
    else
      let b := (placement c.cfg.active (handlePool r.handle) (handleSlot r.handle) r.sector).1
      s.onCore core fun c => (c.onBank b fun q => { q with queue := q.queue ++ [{ r with num := c.nextId }] }).nextNumber

/-- A sector request of a unit, at its own core or over the memory network. -/
def State.requestSector (s : State) (r : BankReq) : State :=
  let core := handleCore r.handle
  if r.who.core = core then s.presentRequest r
  else if s.inPartition r.who.core core then s.send r.who.core core (.bankRequest r)
  else s.slotFault r.who r.beat r.sector r.handle staleHandle

/-- A request of a unit. -/
def bankReq (who : Requester) (beat : Nat) (h : BitVec 32) (sector : Nat) (op : BankOp) : BankReq :=
  { port := who.port (handleCore h), who := who, beat := beat, handle := h, sector := sector, op := op }

end Sys2Proof.Machine
end

