-- ==== Sys2Proof/Machine/StreamCore.lean ====
section
/-! DEFINITION. What reaches a stream or an element from a pool: sectors read, writes performed, and the publication and delivery of a
stream's tiles (R151, R238, R267, R269). -/

namespace Sys2Proof.Machine

/-- A handle token of a stream for the tile of beat n (R151). -/
def StreamJob.handleToken (j : StreamJob) (n : Nat) (h : BitVec 32) : Token :=
  { payload := handlePayload h, tag := dataTag 0xF true (BitVec.ofNat 7 (j.tileOf n)), taint := false, round := 0,
    e := if j.tileOf n = j.tileOf (j.shape.beats - 1) then 1 else 0, vc := j.shape.vc, kind := kindData }

/-- The first sector of a stream's tile has been written: the slot is published with NRD and its handle delivered (R151). -/
def State.publishTile (s : State) (core k entry n : Nat) (h : BitVec 32) : Except (BitVec 8) State :=
  match ((s.core core).engine k).job with
  | some j =>
    if j.unpub.contains h then
      match (s.core (handleCore h)).publish h (destReads ((j.dests[entry]?).getD 0)) with
      | .error code => .error code
      | .ok c =>
        .ok (((s.setCore (handleCore h) c).sendAllocated (.stream core k) (j.handlePort core entry) (j.handleToken n h)).onCore core
          fun q => q.onEngine k fun e => { e with job := some { j with unpub := j.unpub.filter (· != h) } })
    else .ok s
  | none => .ok s

/-- A write of a unit has been performed at its bank: a PWR's counts for the tile that it belongs to, and the first of a stream's tile
publishes the slot, or faults where another has published it, an event that names no sector (R39, R151, R272, R285). -/
def State.writePerformed (s : State) (r : BankReq) : State :=
  match r.who with
  | .seq _ => s
  | .elem c ea => s.onCore c fun q => q.onElem ea fun e =>
      if e.tile = r.beat then { e with opst := { e.opst with cnt := e.opst.cnt - 1 } } else e
  | .stream c k entry =>
    if entry = 5 then s else
    let pool := s.core (handleCore r.handle)
    let full := match pool.slotOf r.handle with
      | some t => decide (pool.poolSectors (handlePool r.handle) ≤ t.pres.length)
      | none => true
    let written (s : State) : State := s.onCore c fun q => q.onEngine k fun e =>
      { e with job := e.job.map fun j => if full then { j with opened := j.opened.filter (· != r.handle) } else j }
    match s.publishTile c k entry r.beat r.handle with
    | .ok s => (written s).onCore c fun q => q.onEngine k fun e => e.beatDone r.beat
    | .error code => (written s).slotFault r.who r.beat 0 r.handle code

/-- The reply token of PRQ, but for its round and VC (R63, R238). -/
def replyToken (data : Payload) (fmt : BitVec 4) (sector : Nat) (last taint : Bool) : Token :=
  { payload := data, tag := dataTag fmt.toNat true (BitVec.ofNat 7 sector), taint := taint, round := 0, e := if last then 1 else 0,
    vc := 0, kind := kindData }

/-- Data for a beat reach its engine; writes of tainted data are held for the checks that are open now (R414, R415). -/
def State.fillBeat (s : State) (core k n : Nat) (data : Payload) (taint : Bool) : State :=
  let holds := if taint then s.checksOf (s.core core).ctxTag else []
  s.onCore core fun q => q.onEngine k fun e => e.onBeat n fun b => { b with data := some (data, taint), holds := holds }

/-- A sector that a unit has read reaches it. -/
def State.readPerformed (s : State) (r : BankReq) (data : Payload) (fmt : BitVec 4) (taint : Bool) : State :=
  match r.who with
  | .seq _ => s
  | .elem c ea =>
    let last := r.sector + 1 == (s.core (handleCore r.handle)).poolSectors (handlePool r.handle)
    s.onCore c fun q => q.onElem ea fun e =>
      match e.awaits r.handle r.sector with
      | none => e
      | some i => { e with prq := e.prq.modify i fun p => { p with reply := some (replyToken data fmt r.sector last taint) } }
  | .stream c k _ => s.fillBeat c k r.beat data taint

/-! ### Bank queues (R267, R269) -/

/-- The kind and line of a request, by which requests merge. -/
def Core.lineOf (c : Core) (r : BankReq) : Bool × Nat :=
  (r.op.reads, (placement c.cfg.active (handlePool r.handle) (handleSlot r.handle) r.sector).2.1)

/-- The parked reads of a bank whose sector is now present return to the tail of its queue (R267); the sector is that of the slot's place,
whichever allocation writes it, and a read whose handle has become stale meanwhile faults when it returns (R32, R35): DEDUCED (log entry 40). -/
def Core.wakeParked (c : Core) (b : Nat) : Core :=
  let q := c.bank b
  let now (r : BankReq) : Bool := ((c.pool (handlePool r.handle)).slot (handleSlot r.handle)).pres.contains r.sector
  c.onBank b fun _ => { q with queue := q.queue ++ q.parked.filter now, parked := q.parked.filter fun r => !now r }

end Sys2Proof.Machine
end

