-- ==== Sys2Proof/Machine/Pool.lean ====
section
/-! DEFINITION. The pool engine: grants, requests from other cores and the POOL instructions (R268, R272–R282), PRQ's replies (R238)
and the drain collector's abandons (R42, R271). -/

namespace Sys2Proof.Machine

/-! ### Commands at the pool's core (R276–R282) -/

/-- A refusal of POOL.AL, POOL.TAL or POOL.FNC (R275). -/
def poolRefusal (code : Nat) : Word := 0x8000_0000_0000_0000 ||| BitVec.ofNat 64 code

/-- The 32-bit handle in a register. -/
def handleIn (v : Word) : BitVec 32 := v.setWidth 32

/-- Whether a request of a core is granted without waiting: none waits before it, or it draws on a reservation (R268, R276). -/
def Core.grantNow (c : Core) (n core : Nat) : Bool :=
  c.mayGrant n core && ((c.pool n).queue.isEmpty || decide (0 < (c.pool n).reservedBy core))

/-- POOL.AL (sub 0) and POOL.TAL (sub 1) at the pool's core. -/
def State.allocCommand (s : State) (src dst : Nat) (h : BitVec 32) (wait : Bool) (id : Nat) : State × Option PoolReply :=
  let c := s.core dst
  let n := handlePool h
  if c.fenced n then (s, some (.value (poolRefusal 4)))
  else
    match if c.grantNow n src then c.allocate n src false else none with
    | some (i, gen, c) => (s.setCore dst c, some (.value ((handleFrom dst n i gen).setWidth 64)))
    | none =>
      if wait then (s.onCore dst fun c => c.onPool n fun p => { p with queue := p.queue ++ [⟨id, .seq src⟩] }, none)
      else (s, some (.value (poolRefusal 1)))

/-- The answer of an event on a slot. -/
def State.answerEvent (s : State) (dst : Nat) (h : BitVec 32) (r : Except (BitVec 8) Core) : State × Option PoolReply :=
  match r with
  | .ok c => (s.setCore dst c, some (.value 0))
  | .error code => (s, some (.fault code (h.setWidth 64)))

/-- POOL.RD at the pool's core: it tests presence, and a sector that is present is read in its bank's turn (R267, R278). -/
def State.readCommand (s : State) (src dst : Nat) (h : BitVec 32) (b c : Word) (d : SReg) (id : Nat) : State × Option PoolReply :=
  let k := s.core dst
  let n := handlePool h
  let q := (b.extractLsb' 0 11).toNat
  match k.slotOf h with
  | none => (s, some (.fault staleHandle (h.setWidth 64)))
  | some t =>
    if t.state = slotAllocated then (s, some (.fault overread (h.setWidth 64)))
    else if k.poolSectors n ≤ q then (s, some (.value 5))
    else if !t.pres.contains q then (s, some (.value 1))
    else (s.presentRequest (bankReq (.seq src) id h q (.command (b.getLsbD 16) d c)), none)

/-- The slots of a pool in a state. -/
def Core.slotsIn (c : Core) (n : Nat) (st : BitVec 2) : Nat :=
  ((List.range (c.poolSize n)).filter fun i => ((c.pool n).slot i).state == st).length

/-- The value of POOL.QRY for a used pool (R280). -/
def Core.poolQuery (c : Core) (h : BitVec 32) (b : Word) : Word :=
  let n := handlePool h
  let p := c.pool n
  let f := fun fn => fieldOf c.cfg.active (0x40 + n) fn
  match (b.extractLsb' 0 4).toNat with
  | 0 => BitVec.ofNat 64 ((f 2).toNat + c.poolSize n * 2 ^ 16 + poolSsz c.cfg.active n * 2 ^ 28 +
      (poolBySlot c.cfg.active n).toNat * 2 ^ 33 + poolBase c.cfg.active n * 2 ^ 34 + p.pfnc.toNat * 2 ^ 48 +
      (c.bankFenced n).toNat * 2 ^ 49)
  | 1 => BitVec.ofNat 64 (c.freeCount n + c.slotsIn n slotAllocated * 2 ^ 12 + c.slotsIn n slotPublished * 2 ^ 24 +
      p.reserved * 2 ^ 36 + p.queue.length * 2 ^ 48)
  | 2 =>
    if c.poolSize n ≤ handleSlot h then BitVec.allOnes 64
    else
      let t := p.slot (handleSlot h)
      BitVec.ofNat 64 (t.state.toNat + t.n.toNat * 2 ^ 8 + (t.count.extractLsb' 0 16).toNat * 2 ^ 16 + t.sfmt.toNat * 2 ^ 32 +
        (decide (t.pres.length = c.poolSectors n)).toNat * 2 ^ 36)
  | 3 => p.abflt.setWidth 64
  | 4 => p.frec
  | 5 => ((c.bank (b.extractLsb' 4 4).toNat).bconf).setWidth 64
  | _ => BitVec.allOnes 64

/-- POOL.FNC (R281). -/
def State.fenceCommand (s : State) (dst : Nat) (h : BitVec 32) (b : Word) : State × Option PoolReply :=
  let n := handlePool h
  let op := b.extractLsb' 0 2
  if op = 3 then (s, some (.value (poolRefusal 5)))
  else
    let c := (s.core dst).onPool n fun p => { p with pfnc := if op = 0 then true else if op = 1 then false else p.pfnc }
    (s.setCore dst c, some (.value (BitVec.ofNat 64
      ((c.pool n).pfnc.toNat * 2 ^ 12 + c.slotsIn n slotAllocated + c.slotsIn n slotPublished))))

/-- POOL.RSV (R282). -/
def State.reserveCommand (s : State) (src dst : Nat) (h : BitVec 32) (b : Word) : State × Option PoolReply :=
  let n := handlePool h
  let k := (b.extractLsb' 0 12).toNat
  let c := s.core dst
  let p := c.pool n
  let has := p.rsv.any fun e => e.1 == src
  if k = 0 then
    (s.setCore dst (c.onPool n fun p => { p with rsv := p.rsv.filter fun e => e.1 != src }), some (.value 0))
  else if p.pfnc || c.bankFenced n then (s, some (.value 4))
  else if c.freeCount n < p.reserved + k then (s, some (.value 1))
  else if !has && 8 ≤ p.rsv.length then (s, some (.value 6))
  else
    (s.setCore dst (c.onPool n fun p =>
      { p with rsv := if has then p.rsv.map fun e => if e.1 = src then (src, e.2 + k) else e else p.rsv ++ [(src, k)] }),
      some (.value 0))

/-- A POOL command of core `src` at the pool's core `dst`, its reference in the partition: the reply, or none where POOL.AL waits and
where POOL.RD waits for its bank. -/
def State.poolApply (s : State) (src dst : Nat) (cmd : PoolCommand) (d : SReg) (id : Nat) : State × Option PoolReply :=
  let h := handleIn cmd.a
  let unused := (s.core dst).poolSize (handlePool h) = 0
  match cmd.sub.toNat with
  | 0 => if unused then (s, some (.value (poolRefusal 2))) else s.allocCommand src dst h true id
  | 1 => if unused then (s, some (.value (poolRefusal 2))) else s.allocCommand src dst h false id
  | 2 => s.answerEvent dst h ((s.core dst).publish h (cmd.b.setWidth 8))
  | 3 => s.readCommand src dst h cmd.b cmd.c d id
  | 4 =>
    if cmd.b.setWidth 8 = 0#8 then (s, some (.value 5))
    else s.answerEvent dst h ((s.core dst).abandon h (cmd.b.setWidth 8))
  | 5 =>
    if unused then (s, some (.value (if cmd.b.extractLsb' 0 4 = 0 then 0 else BitVec.allOnes 64)))
    else (s, some (.value ((s.core dst).poolQuery h cmd.b)))
  | 6 => if unused then (s, some (.value (poolRefusal 2))) else s.fenceCommand dst h cmd.b
  | _ => if unused then (s, some (.value 2)) else s.reserveCommand src dst h cmd.b

/-! ### Completion at the issuing core (R272, R275) -/

/-- The effect of a reply on the core whose turn it is, whose instruction waits for it: a value in d, a sector in scratch, or a precise
trap (R272, R275, R278). -/
def State.poolFinish (s : State) (d : SReg) (r : PoolReply) : State :=
  match r with
  | .value v => s.finishWait d v
  | .fault code tval => (s.on fun c => { c with wait := .none }).precise code tval
  | .sector v scratch data => (s.on fun c => writeScratch c scratch.toNat data.toNat 32).finishWait d v

/-! ### Bank accesses (R267, R269) -/

/-- The reply of a POOL.RD that a bank has performed for core `src`: at once where the pool is its own, else over the memory network
(R275, R278). -/
def State.commandReply (s : State) (dst src id : Nat) (d : SReg) (r : PoolReply) : State :=
  if src = dst then
    if (s.core src).wait = .poolReply id then s.poolFinish d r else s
  else s.send dst src (.poolReply r d id)

/-- A read has been parked: one of a stream that is being killed is withdrawn with its beat (R161). -/
def State.parkedFor (s : State) : Requester → State
  | .stream c k _ => match ((s.core c).engine k).job with
    | some j => if j.ending = some 1 then s.dropParked c k else s
    | none => s
  | _ => s

/-- Requests in the order of their numbers. -/
def byNumber (rs : List (Nat × BankReq)) : List (Nat × BankReq) :=
  rs.foldr (fun r acc => (acc.takeWhile fun x => decide (x.2.num < r.2.num)) ++ r :: acc.dropWhile fun x => decide (x.2.num < r.2.num)) []

/-- Performs one request of a bank's access against the state that those before it leave (R33, R267, R269). -/
def State.performRequest (s : State) (core b : Nat) (r : BankReq) : State :=
  let c := s.core core
  let key := sectorKey (placement c.cfg.active (handlePool r.handle) (handleSlot r.handle) r.sector)
  match c.slotOf r.handle, r.op with
  | none, .command _ d _ => s.commandReply core r.who.core r.beat d (.fault staleHandle (r.handle.setWidth 64))
  | some t, .command cons d scratch =>
    let s := s.commandReply core r.who.core r.beat d
      (if t.pres.contains r.sector then .sector (t.sfmt.setWidth 64 <<< 8) scratch (Sparse.get 0 c.sram key) else .value 1)
    if cons && t.pres.contains r.sector then s.onCore core fun c => c.onSlot (handlePool r.handle) (handleSlot r.handle) Slot.consume else s
  | none, _ => s.slotFault r.who r.beat r.sector r.handle staleHandle
  | some t, .read cons =>
    if t.state = slotAllocated then s.slotFault r.who r.beat r.sector r.handle overread
    else if !t.pres.contains r.sector then
      (s.onCore core fun c => c.onBank b fun q => { q with parked := q.parked ++ [r] }).parkedFor r.who
    else
      let s := s.readPerformed r (Sparse.get 0 c.sram key) t.sfmt (Sparse.get false c.sramTaint key)
      if cons then s.onCore core fun c => c.onSlot (handlePool r.handle) (handleSlot r.handle) Slot.consume else s
  | some t, .write data fmt taint =>
    if t.pres.contains r.sector then s.slotFault r.who r.beat r.sector r.handle writeTwice
    else
      match r.who, !t.pres.isEmpty && t.sfmt != fmt with
      | .elem c ea, true =>
        (s.halt c ea).raise c 0x25 1 ea
          (mismatchTval 0 fmt.toNat ((eowField (s.activePlane c) ea).extractLsb' 42 3).toNat ea)
      | _, _ =>
        let s := s.onCore core fun c =>
          { c.onSlot (handlePool r.handle) (handleSlot r.handle) fun t =>
              { t with pres := r.sector :: t.pres, sfmt := if t.pres.isEmpty then fmt else t.sfmt } with
              sram := Sparse.set 0 c.sram key data, sramTaint := Sparse.set false c.sramTaint key taint }
        s.writePerformed r

/-- Takes the head of a bank's queue, and the requests that merge with it, off the queue, and counts the wait of the others (R267). -/
def Core.takeAccess (c : Core) (b : Nat) : Core × List BankReq :=
  let q := c.bank b
  match q.queue with
  | [] => (c, [])
  | r :: _ =>
    (c.onBank b fun q => { q with queue := q.queue.filter fun x => c.lineOf x != c.lineOf r,
                                  bconf := if 1 < q.queue.length then q.bconf + 1 else q.bconf },
      q.queue.filter fun x => c.lineOf x == c.lineOf r)

/-- The banks that make an access in a turn's cycle: bank `unit`, and those of the turn's mask m. -/
def Turn.banks (t : Turn) : List Nat := (List.range 16).filter fun b => b == t.unit || t.m.testBit b

/-- BANK_ACCESS: one cycle of the turn's banks of the turn's core: the request at the head of each queue is performed with the requests
that merge with it, all of them in port order and those of other cores in the order in which they were delivered (R33, R267), and the faults
of the cycle are queued together (R79). -/
def execBankAccess (s : State) : Out :=
  let core := s.cur.core
  let bs := s.cur.banks
  let r := bs.foldl (fun (a : Core × List (Nat × BankReq)) b =>
    let t := a.1.takeAccess b
    (t.1, a.2 ++ t.2.map fun x => (b, x))) (s.here, [])
  let ordered := ((List.range 73).flatMap fun k => r.2.filter fun x => x.2.who.rank core == k) ++
    byNumber (r.2.filter fun x => x.2.who.rank core == 73)
  if ordered.isEmpty then .next s
  else
    let t := (s.setCore core r.1).oneCycle (ordered.map fun x s => s.performRequest core x.1 x.2)
    .next (t.on fun c => bs.foldl Core.wakeParked c)

/-! ### The POOL instructions -/

/-- A command whose reference lies in the partition: at once in this core, over the memory network to another. `wait` is how the
instruction waits; POOL.TAL does not (R275). -/
def State.poolSend (s : State) (d : SReg) (cmd : PoolCommand) (wait : Option Wait) : Out := s.begun <|
  let core := s.cur.core
  let dst := handleCore (handleIn cmd.a)
  let id := s.here.nextId
  if dst = core then
    match (s.on Core.nextNumber).poolApply core core cmd d id with
    | (t, some r) => .next (t.poolFinish d r)
    | (t, none) => .next (t.on fun c => { c with wait := wait.getD (.pool d id) })
  else
    let t := (s.send core dst (.poolRequest cmd d id)).on Core.nextNumber
    match wait with
    | some w => .next (t.on fun c => { c with wait := w })
    | none => .next (s.retire (t.on fun c => { c with awaited := d :: c.awaited }) 4)

/-- A POOL instruction: its predicate, then its reference (R275). The refusals are the answers for NOPOOL and DENIED. -/
def State.poolCommand (s : State) (d : SReg) (p : PReg) (cmd : PoolCommand) (nopool denied : Word) (wait : Option Wait) : Out :=
  s.guarded p <|
    let core := handleCore (handleIn cmd.a)
    if s.variant.coreCount ≤ core then s.answer s d nopool
    else if !s.inPartition s.cur.core core then s.answer s d denied
    else s.poolSend d cmd wait

/-- A command of two operands that holds issue until its reply. -/
def State.poolHeld (s : State) (sub : BitVec 3) (d a b : SReg) (p : PReg) (nopool denied : Word) : Out :=
  s.poolCommand d p ⟨sub, s.here.reg a, s.here.reg b, 0⟩ nopool denied (some (.poolReply s.here.nextId))

/-- POOL.AL (R276). -/
def execPoolAl (d a : SReg) (p : PReg) (s : State) : Out :=
  s.poolCommand d p ⟨0, s.here.reg a, 0, 0⟩ (poolRefusal 2) (poolRefusal 3) (some (.pool d s.here.nextId))

/-- POOL.TAL (R276). -/
def execPoolTal (d a : SReg) (p : PReg) (s : State) : Out :=
  s.poolCommand d p ⟨1, s.here.reg a, 0, 0⟩ (poolRefusal 2) (poolRefusal 3) none

/-- A command on a slot: a handle of a core outside the partition, or of no core, is DENIED (R277–R279). -/
def State.poolHandled (s : State) (d : SReg) (p : PReg) (cmd : PoolCommand) : Out :=
  s.guarded p <|
    let h := handleIn cmd.a
    if !s.inPartition s.cur.core (handleCore h) then s.answer s d 3
    else s.poolSend d cmd (some (.poolReply s.here.nextId))

/-- POOL.PB (R277). -/
def execPoolPb (d a b : SReg) (p : PReg) (s : State) : Out := s.poolHandled d p ⟨2, s.here.reg a, s.here.reg b, 0⟩

/-- POOL.RD: the scratch block first, then the read (R278). -/
def execPoolRd (d a b c : SReg) (p : PReg) (s : State) : Out :=
  s.guarded p <|
    match scratchFault (s.here.reg c) 32 32 with
    | some code => .next (s.precise code (s.here.reg c))
    | none => s.poolHandled d 0 ⟨3, s.here.reg a, s.here.reg b, s.here.reg c⟩

/-- POOL.AB (R279). -/
def execPoolAb (d a b : SReg) (p : PReg) (s : State) : Out := s.poolHandled d p ⟨4, s.here.reg a, s.here.reg b, 0⟩

/-- POOL.QRY (R280). -/
def execPoolQry (d a b : SReg) (p : PReg) (s : State) : Out :=
  s.poolHeld 5 d a b p (BitVec.allOnes 64) (BitVec.allOnes 64)

/-- POOL.FNC (R281). -/
def execPoolFnc (d a b : SReg) (p : PReg) (s : State) : Out := s.poolHeld 6 d a b p (poolRefusal 2) (poolRefusal 3)

/-- POOL.RSV (R282). -/
def execPoolRsv (d a b : SReg) (p : PReg) (s : State) : Out := s.poolHeld 7 d a b p 2 3

/-! ### Events -/

/-- Gives a granted slot to its requester. -/
def State.giveSlot (s : State) (core : Nat) (q : AllocReq) (h : BitVec 32) : State :=
  match q.who with
  | .seq c =>
    if c = core then
      match s.here.wait with
      | .pool d id => if id = q.id then s.finishWait d (h.setWidth 64) else s
      | _ => s
    else s.send core c (.poolReply (.value (h.setWidth 64)) 0 q.id)
  | .elem c ea => s.onCore c fun k => k.onElem ea fun e => { e with opst := { e.opst with hand := some h, req := none } }
  | .stream c k i => s.onCore c fun q => q.onEngine k fun e =>
      { e with job := e.job.map fun j =>
          if g : i < 4 then { j with grants := j.grants.set i (some h), reqs := j.reqs.set i none, opened := h :: j.opened, unpub := h :: j.unpub }
          else j }

/-- Whether a requester is an element. -/
def Requester.isElem : Requester → Bool
  | .elem _ _ => true
  | _ => false

/-- POOL_ALLOC_GRANT: request n of the queue of pool `unit` of the turn's core is granted; one behind the head only where it draws on
a reservation (R268). -/
def execPoolAllocGrant (s : State) : Out :=
  let n := s.cur.unit
  let c := s.here
  match (c.pool n).queue[s.cur.n]? with
  | none => .next s
  | some q =>
    if (s.cur.n = 0 || 0 < (c.pool n).reservedBy q.who.core) && c.mayGrant n q.who.core then
      match c.allocate n q.who.core q.who.isElem with
      | none => .next s
      | some (i, gen, c) =>
        let c := c.onPool n fun p => { p with queue := p.queue.eraseIdx s.cur.n }
        .next ((s.setCore s.cur.core c).giveSlot s.cur.core q (handleFrom s.cur.core n i gen))
    else .next s

/-- POOL_REMOTE_REQUEST: the node delivers a request of another core (packet n) to the pool engine (R33, R275). -/
def execPoolRemoteRequest (s : State) : Out :=
  match s.arriving s.cur.n with
  | some { src, dst, kind := .poolRequest cmd d id, .. } =>
    match (s.takePacket s.cur.n).poolApply src dst cmd d id with
    | (t, some r) => .next (t.send dst src (.poolReply r d id))
    | (t, none) => .next t
  | some { kind := .bankRequest r, .. } => .next ((s.takePacket s.cur.n).presentRequest r)
  | some { dst, kind := .allocRequest pool r, .. } =>
    .next ((s.takePacket s.cur.n).onCore dst fun c => c.onPool pool fun p => { p with queue := p.queue ++ [r] })
  | _ => .next s

/-- POOL_REMOTE_REPLY: the reply (packet n) to a POOL instruction of the turn's core returns (R275, R276). -/
def execPoolRemoteReply (s : State) : Out :=
  match s.arriving s.cur.n with
  | some { dst, kind := .poolReply r d id, .. } =>
    if dst ≠ s.cur.core then .next s
    else
      let t := s.takePacket s.cur.n
      let later : State := match r with
        | .value v => t.on fun c => c.deliver d v
        | _ => t
      match s.here.wait with
      | .poolReply i => .next (if i = id then t.poolFinish d r else later)
      | .pool d i => .next (if i = id then t.poolFinish d r else later)
      | _ => .next later
  | _ => .next s

/-- POOL_READ_REPLY: the oldest reply of the PRQ at the turn's element is written into the slots taken for it (R238). -/
def execPoolReadReply (s : State) : Out :=
  match s.elem.prq with
  | { reply := some t, .. } :: rest =>
    let ea := s.cur.unit
    let w := eowField s.here.cfg.active ea
    if opcodeOf s.here.cfg.active ea ≠ 0x83 then .next s
    else
      .next ((s.onElem fun e => { e with prq := rest }).sendHeld (eowOf w) { t with vc := w.extractLsb' 24 5, round := s.elem.rnd })
  | _ => .next s

/-- Whether an element has no work of its own left in the configuration. -/
def Core.allPassed (c : Core) : Bool :=
  (List.range 64).all fun ea => !enabled c.cfg.active ea || ((c.elem ea).passed && (c.elem ea).prq.isEmpty)

/-- DRAIN_COLLECTOR_ABANDON: once a drain has begun at the turn's core, or the core has been told of it, and every element has passed
DRAIN, each tile slot that the configuration's elements allocated and left unpublished returns to FREE (R42, R271). -/
def execDrainCollectorAbandon (s : State) : Out :=
  if (s.here.cfg.draining || s.here.cfg.noticed) && s.here.allPassed then
    .next (s.on fun c =>
      { c with
          pools := c.pools.map fun p =>
            { p with slots := p.slots.map (fun e => if e.2.state = slotAllocated && e.2.byElem then (e.1, e.2.free) else e),
                     queue := p.queue.filter fun q => !q.who.isElem },
          cfg := { c.cfg with abandoned := true } })
  else .next s

end Sys2Proof.Machine
end

