-- ==== Sys2Proof/Machine/Vector.lean ====
section
/-! DEFINITION. The common form of an operation that reads one token an input and writes one token an output (R193–R198). -/

namespace Sys2Proof.Machine

/-- The format of TY. -/
def tyOf (w : Eow) : Nat := w.ty.toNat

/-- The rounding of lane `i` (R53, R54, R56): mode MOD[2:0], SAT MOD[3], place i mod 16 with the dither phase. -/
def State.rounding (s : State) (w : Eow) (i : Nat) : Rounding :=
  { mode := w.md.toNat % 8, sat := w.md.getLsbD 3, place := i % 16 + s.elem.phase0.toNat }

/-- The lanes of width `lw` that a source supplies: the token at an input's head, or a constant in every lane (R185, R193). -/
def State.operand (s : State) (src : BitVec 3) (lw : Nat) : List Nat :=
  if src.toNat < 4 then lanes ((s.elem.head src.toNat).map (·.payload) |>.getD 0) lw
  else if src.toNat < 6 then
    List.replicate (256 / lw) ((constantOf s.here.cfg.active s.cur.unit (src.toNat - 4)).toNat % 2 ^ lw)
  else []

/-- Consumes the groups of `n` tokens of a list of inputs. -/
def State.consumeAll (s : State) (is : List Nat) (n : Nat) : State := is.foldl (fun s i => s.consume i n) s

/-- The refused operand of a firing: input, reason and found format (R62). -/
def State.refusedInput (s : State) (is : List Nat) (n : Nat) (ok : Nat → Bool) : Option (Nat × Nat × Nat) :=
  is.findSome? fun i => (firstRefusal s.here.cfg.active s.cur.unit ok (s.elem.group i n)).map fun r => (i, r)

/-- What names an element within a launch: the configuration, the core's place in the region and the element; none of it depends on the schedule
(R426). -/
def State.elementKey (s : State) : Nat :=
  let c := s.here
  let x := s.variant.cx s.cur.core - (c.regionOrg.extractLsb' 0 8).toNat
  let y := s.variant.cy s.cur.core - (c.regionOrg.extractLsb' 8 8).toNat
  c.cfg.idx.toNat * 2 ^ 15 + (y * 32 + x) * 64 + s.cur.unit

/-- Fields of a result whose row and E bits the spec does not state: a free value of the element (log entry 14). -/
def State.openCarry (s : State) (taint : Bool) : Carry :=
  let v := Config.unstated s.elementKey
  { row := v.extractLsb' 0 7, e := v.extractLsb' 7 4, taint := taint }

/-- The fields that the results of a firing carry: of the last token on SA, if it takes one there (R197). -/
def State.carried (s : State) (w : Eow) (is : List Nat) (n : Nat) : Carry :=
  let all := is.flatMap fun i => s.elem.group i n
  if w.sa.toNat < 4 then carryOf (s.elem.group w.sa.toNat n) all
  else s.openCarry (all.any (·.taint))

/-- Whether a firing consumes an end-of-tile token on SA (R56). -/
def State.endsTile (s : State) (w : Eow) (n : Nat) : Bool :=
  decide (w.sa.toNat < 4) && (s.elem.group w.sa.toNat n).any (·.endOfTile)

/-- A firing that takes a group of `n` tokens from each named input and writes the same tokens on both outputs: readiness, formats,
room, then the effect (R38, R174, R193–R198). The payloads of the output tokens and the status are given; the E bits go on the last
token, and `after` is what the firing changes besides. -/
def State.fireWith (s : State) (w : Eow) (n outN : Nat) (ok : Nat → Bool) (results : List Payload × Status)
    (after : State → State) : Out :=
  let is := namedInputs w
  s.whenReady is n false <|
    match s.refusedInput is n ok with
    | some (i, r, f) => .next (s.mismatch r f i)
    | none =>
      s.whenRoom (needsOf (s.outs w 0) outN ++ needsOf (s.outs w 1) outN) <|
        let k := s.carried w is n
        let last := results.1.length - 1
        let toks := results.1.mapIdx fun j p => s.dataToken w p (if j = last then k else { k with e := 0 })
        .next (after ((((s.consumeAll is n).emitOn w 0 toks).emitOn w 1 toks).fired results.2.toBits (s.endsTile w n)))

/-- An operation on whole tokens of TY with one result token: the function takes the lanes of a, b and c. -/
def State.tokenOp (s : State) (w : Eow) (g : List Nat → List Nat → List Nat → List Nat × Status) (outWidth : Nat) : Out :=
  let lw := laneWidth (tyOf w)
  let r := g (s.operand w.sa lw) (s.operand w.sb lw) (s.operand w.sc lw)
  s.fireWith w 1 1 (· == tyOf w) ([packLanes outWidth r.1], r.2) id

/-- An elementwise operation: lane i of the result from lane i of each operand (R193). -/
def State.laneOp (s : State) (w : Eow) (f : Rounding → Nat → Nat → Nat → Nat × Status) : Out :=
  let lw := laneWidth (tyOf w)
  s.tokenOp w (fun a b c =>
    let rs := (List.range (256 / lw)).map fun i =>
      f (s.rounding w i) ((a[i]?).getD 0) ((b[i]?).getD 0) (((c)[i]?).getD 0)
    (rs.map (·.1), rs.foldl (fun st r => st.or r.2) Status.none)) lw

end Sys2Proof.Machine
end

