-- ==== Sys2Proof/Machine/ElemToken.lean ====
section
/-! DEFINITION. Token-control and record operations (R219–R232, R313) but for SENT and SRET, which stand with the router. -/

namespace Sys2Proof.Machine

/-! ### Common parts (R219, R221, R224) -/

/-- What an input admits. -/
inductive Admits where
  | data
  | record
  | both
  deriving DecidableEq, Repr

/-- The reason and found format of a token that an input does not take (R62, R219). -/
def Admits.refuses (a : Admits) (t : Token) : Option (Nat × Nat) :=
  match a with
  | .both => none
  | .data => if t.kind = kindData then none else some (2, 0xE)
  | .record => if t.kind = kindRecord then none else some (0, 0xE)

/-- A firing that takes one token from each of a list of inputs: readiness, what each admits, room, then the effect. -/
def State.takes (s : State) (is : List (Nat × Admits)) (must : Bool) (ns : Needs) (body : Out) : Out :=
  s.whenReady (is.map (·.1)) 1 must <|
    match is.findSome? fun i => (s.elem.head i.1).bind fun t => (i.2.refuses t).map fun r => (i.1, r) with
    | some (i, r, f) => .next (s.mismatch r f i)
    | none => s.whenRoom ns body

/-- The token at the head of an input; one is there where the firing has been found ready. -/
def State.headAt (s : State) (i : BitVec 3) : Token := (s.elem.head i.toNat).getD (drainToken 0 0 0)

/-- A control token is true when payload bits 31:0 are non-zero (R219). -/
def Token.isTrue (t : Token) : Bool := t.payload.extractLsb' 0 32 != 0#32

/-- The needs of one token on both outputs. -/
def State.bothOuts (s : State) (w : Eow) : Needs := needsOf (s.outs w 0) 1 ++ needsOf (s.outs w 1) 1

/-- Writes a token on both outputs. -/
def State.emitBoth (s : State) (w : Eow) (t : Token) : State := (s.emitOn w 0 [t]).emitOn w 1 [t]

/-- A firing of an operation that computes nothing: its inputs consumed, counted; whether it consumed an end of tile on SA. -/
def State.moved (s : State) (is : List (BitVec 3)) (ended : Bool) : State := (s.consumeAll (is.map (·.toNat)) 1).fired 0 ended

/-- The element whose turn it is discards a token: counted, and its handles abandoned (R224, R443). -/
def State.discards (s : State) (t : Token) : State :=
  (s.onElem fun e => e.tally 3 1).discardToken s.cur.core s.cur.unit t

/-- Forwards the token of SA on every enabled output. -/
def State.forwardSa (s : State) (w : Eow) (is : List (Nat × Admits)) (after : State → State) : Out :=
  s.takes is false (s.bothOuts w) <|
    let t := s.headAt w.sa
    .next (after ((((s.consumeAll (is.map (·.1)) 1).fired 0 t.endOfTile).emitBoth w (s.forward w t))))

/-! ### Steering and loops (R225–R227) -/

/-- STEER (R225). -/
def execSteer (w : Eow) (s : State) : Out :=
  let o := if (s.headAt w.sb).isTrue then 0 else 1
  s.takes [(w.sa.toNat, .both), (w.sb.toNat, .data)] false (needsOf (s.outs w o) 1) <|
    let t := s.headAt w.sa
    let u := s.moved [w.sa, w.sb] t.endOfTile
    if outputOn w o then .next (u.emitOn w o [s.forward w t]) else .next (u.discards t)

/-- MERGE (R225). A control input that has stopped while data stand at a data input leaves the firing owed without a control. -/
def execMerge (w : Eow) (s : State) : Out :=
  let sc := w.sc.toNat
  let e := s.elem
  if e.barred sc && (e.hasWork w.sa.toNat || e.hasWork w.sb.toNat) then .next (s.skew (maskOf [sc]))
  else if !e.hasWork sc then s.starvedHere
  else
    let src := if (s.headAt w.sc).isTrue then w.sa else w.sb
    s.takes [(sc, .data), (src.toNat, .both)] false (s.bothOuts w) <|
      let t := s.headAt src
      .next ((s.moved [w.sc, src] (src == w.sa && t.endOfTile)).emitBoth w (s.forward w t))

/-- CARRY (R226). -/
def execCarry (w : Eow) (s : State) : Out :=
  if !s.elem.opst.loop then
    s.forwardSa w [(w.sa.toNat, .both)] fun u => u.onOpst fun o => { o with loop := true }
  else if s.elem.hasWork w.sc.toNat && (s.headAt w.sc).isTrue then
    s.takes [(w.sc.toNat, .data), (w.sb.toNat, .both)] true (s.bothOuts w) <|
      let t := s.headAt w.sb
      .next ((s.moved [w.sc, w.sb] false).emitBoth w (s.forward w t))
  else
    s.takes [(w.sc.toNat, .data)] true [] <|
      .next ((s.moved [w.sc] false).onOpst fun o => { o with loop := false })

/-- INVAR (R226). -/
def execInvar (w : Eow) (s : State) : Out :=
  if !s.elem.opst.loop then
    s.forwardSa w [(w.sa.toNat, .both)] fun u => u.onOpst fun o => { o with loop := true, held := some (s.headAt w.sa) }
  else
    let repeats := s.elem.hasWork w.sc.toNat && (s.headAt w.sc).isTrue
    s.takes [(w.sc.toNat, .data)] true (if repeats then s.bothOuts w else []) <|
      let u := s.moved [w.sc] false
      if repeats then
        match s.elem.opst.held with
        | some v => .next (u.emitBoth w (s.forward w v))
        | none => .next u
      else .next (u.onOpst fun o => { o with loop := false, held := none })

/-- GATE (R227). -/
def execGate (w : Eow) (s : State) : Out := s.forwardSa w [(w.sa.toNat, .both), (w.sb.toNat, .both)] id

/-- DROP (R227). -/
def execDrop (w : Eow) (s : State) : Out :=
  s.takes [(w.sa.toNat, .both)] false [] <|
    let t := s.headAt w.sa
    .next ((s.moved [w.sa] t.endOfTile).discards t)

/-- PASS (R227). -/
def execPass (w : Eow) (s : State) : Out := s.forwardSa w [(w.sa.toNat, .both)] id

/-! ### Permits (R228) -/

/-- The permit pool that an element names, and its size. -/
def Core.permitPool (c : Core) (ea : Nat) : Nat := ((c.field ea 0x3D).extractLsb' 0 3).toNat
/-- k. -/
def Core.permitSize (c : Core) (n : Nat) : Nat := ((c.field (0x58 + n) 0).extractLsb' 0 7).toNat
/-- Permits outstanding. -/
def Core.permitsOut (c : Core) (n : Nat) : Nat := if h : n < 8 then c.permits[n] else 0
/-- Changes the permits outstanding. -/
def Core.onPermit (c : Core) (n : Nat) (f : Nat → Nat) : Core :=
  if h : n < 8 then { c with permits := c.permits.set n (f c.permits[n]) } else c

/-- PRMI (R228). -/
def execPrmi (w : Eow) (s : State) : Out :=
  let n := s.here.permitPool s.cur.unit
  s.takes [(w.sa.toNat, .both)] false [] <|
    if s.here.permitSize n ≤ s.here.permitsOut n then s.blockedHere
    else s.forwardSa w [(w.sa.toNat, .both)] fun u => u.on fun c => c.onPermit n (· + 1)

/-- PRMO (R228). -/
def execPrmo (w : Eow) (s : State) : Out :=
  let n := s.here.permitPool s.cur.unit
  s.takes [(w.sa.toNat, .both)] false (s.bothOuts w) <|
    if s.here.permitsOut n = 0 then .next (s.elementFault overread (BitVec.ofNat 64 n))
    else s.forwardSa w [(w.sa.toNat, .both)] fun u => u.on fun c => c.onPermit n (· - 1)

/-! ### MKGN, CNTR, DLY (R229–R231) -/

/-- A due insertion of MKGN: a MARK of the present round on every enabled output (R229). -/
def State.insertMark (s : State) (w : Eow) : Out :=
  s.whenRoom (s.bothOuts w) <|
    let u := s.emitBoth w (markToken s.elem.rnd w.vco 0)
    .next ((u.onElem fun e => { e with rnd := e.rnd + 1 }).onOpst fun o => { o with any := false })

/-- MKGN (R229): with an insertion due it fires nothing else. -/
def execMkgn (w : Eow) (s : State) : Out :=
  if s.elem.opst.any then s.insertMark w
  else
    let t := s.headAt w.sa
    let byEnd := w.aux.getLsbD 0
    s.forwardSa w [(w.sa.toNat, .data)] fun u => u.onOpst fun o =>
      let n := o.cnt + 1
      let due := if byEnd then t.e.getLsbD (w.aux.extractLsb' 1 2).toNat else n == w.imm.toNat
      { o with cnt := if due then 0 else n, any := due }

/-- CNTR (R230). -/
def execCntr (w : Eow) (s : State) : Out :=
  let o := s.elem.opst
  let k0 := constantOf s.here.cfg.active s.cur.unit 0
  let k1 := constantOf s.here.cfg.active s.cur.unit 1
  let write (u : State) (m : Nat) (x : BitVec 32) (row : BitVec 7) (taint ended : Bool) : Out :=
    let k : Carry := { row := row, e := if m = 1 then 1 else 0, taint := taint }
    let lane (v : BitVec 32) : Payload := BitVec.ofNat 256 ((List.range 8).foldl (fun a j => a + v.toNat * 2 ^ (32 * j)) 0)
    let t0 := s.dataToken w (lane x) k
    let t1 := s.dataToken w (lane (if 1 < m then 0xFFFFFFFF else 0)) k
    .next ((((u.fired 0 ended).emitOn w 0 [t0]).emitOn w 1 [t1]).onOpst fun o =>
      { o with cnt := m - 1, idx := x + k1, row := row, taint := taint })
  if 0 < o.cnt then s.whenRoom (s.bothOuts w) (write s o.cnt o.idx o.row o.taint false)
  else
    let t := s.headAt w.sa
    let m := if w.aux.getLsbD 0 then (t.payload.extractLsb' 0 32).toNat else w.imm.toNat
    s.takes [(w.sa.toNat, .data)] false (if m = 0 then [] else s.bothOuts w) <|
      let u := s.consume w.sa.toNat 1
      if m = 0 then .next ((u.fired 0 t.endOfTile).onOpst fun o => { o with cnt := 0, idx := k0 })
      else write u m k0 t.row t.taint t.endOfTile

/-- DEPTH of a DLY (R231). -/
def Core.delayDepth (c : Core) (ea : Nat) : Nat := ((c.field ea 0x3B).extractLsb' 0 5).toNat

/-- An initial token of DLY: K1 ‖ K0 four times (R231). -/
def State.initialToken (s : State) (w : Eow) (taint : Bool) : Token :=
  let p := s.here.cfg.active
  let k := (constantOf p s.cur.unit 1).toNat * 2 ^ 32 + (constantOf p s.cur.unit 0).toNat
  s.dataToken w (BitVec.ofNat 256 ((List.range 4).foldl (fun a j => a + k * 2 ^ (64 * j)) 0)) { row := 0, e := 0, taint := taint }

/-- DLY (R231). -/
def execDly (w : Eow) (s : State) : Out :=
  let first := s.elem.opst.cnt < s.here.delayDepth s.cur.unit
  let paced := w.sb.toNat < 4
  if first then
    s.takes (if paced then [(w.sb.toNat, .both)] else []) false (s.bothOuts w) <|
      let u := if paced then s.consume w.sb.toNat 1 else s
      .next (((u.fired 0 false).emitBoth w (s.initialToken w (paced && (s.headAt w.sb).taint))).onOpst fun o =>
        { o with cnt := o.cnt + 1 })
  else s.forwardSa w (if paced then [(w.sa.toNat, .both), (w.sb.toNat, .both)] else [(w.sa.toNat, .both)]) id

/-! ### Records (R232) -/

/-- A record token of the element whose turn it is. -/
def State.recordToken (s : State) (w : Eow) (payload : Payload) (taint : Bool) : Token :=
  { payload := payload, tag := 0, taint := taint, round := s.elem.rnd, e := 0, vc := w.vco, kind := kindRecord }

/-- Fields F0–F6 of a record's payload, bits 223:0. -/
def recordFields (p : Payload) : BitVec 224 := p.extractLsb' 0 224
/-- The header of a record, bits 255:224. -/
def recordHeader (p : Payload) : BitVec 32 := p.extractLsb' 224 32
/-- DONE. -/
def recordDone (p : Payload) : BitVec 8 := p.extractLsb' 248 8
/-- SET. -/
def recordSet (p : Payload) : BitVec 3 := p.extractLsb' 245 3
/-- PASS. -/
def recordPass (p : Payload) : Bool := p.getLsbD 244
/-- SEQ. -/
def recordSeq (p : Payload) : BitVec 20 := p.extractLsb' 224 20
/-- A record's payload from its parts. -/
def recordFrom (done : BitVec 8) (set : BitVec 3) (pass : Bool) (seq : BitVec 20) (fields : BitVec 224) : Payload :=
  done ++ (set ++ (BitVec.ofBool pass ++ (seq ++ fields)))

/-- RMK (R232). -/
def execRmk (w : Eow) (s : State) : Out :=
  s.takes [(w.sa.toNat, .data)] false (s.bothOuts w) <|
    let t := s.headAt w.sa
    let p := s.here.cfg.active
    let seq := BitVec.ofNat 20
      ((constantOf p s.cur.unit 0).toNat + s.elem.opst.cnt * (constantOf p s.cur.unit 1).toNat)
    .next (((s.moved [w.sa] t.endOfTile).emitBoth w (s.recordToken w (recordFrom 0 0 false seq (recordFields t.payload)) t.taint)).onOpst
      fun o => { o with cnt := o.cnt + 1 })

/-- RFLD (R232); the row and E bits of the DATA token are not stated (log entry 14). -/
def execRfld (w : Eow) (s : State) : Out :=
  s.takes [(w.sa.toNat, .record)] false (s.bothOuts w) <|
    let t := s.headAt w.sa
    let v := (t.payload.toNat / 2 ^ (32 * (w.aux.toNat % 8))) % 2 ^ 32
    let lanes8 : Payload := BitVec.ofNat 256 ((List.range 8).foldl (fun a j => a + v * 2 ^ (32 * j)) 0)
    .next (((s.moved [w.sa] false).emitOn w 0 [s.dataToken w lanes8 (s.openCarry t.taint)]).emitOn w 1
      [s.forward w t])

/-- RINS (R232). -/
def execRins (w : Eow) (s : State) : Out :=
  s.takes [(w.sa.toNat, .record), (w.sb.toNat, .data)] false (s.bothOuts w) <|
    let t := s.headAt w.sa
    let d := s.headAt w.sb
    let k := 32 * (w.aux.toNat % 8)
    let mask : Payload := (0xFFFFFFFF : BitVec 256) <<< k
    let p := (t.payload &&& ~~~mask) ||| (((d.payload.extractLsb' 0 32).setWidth 256) <<< k)
    .next ((s.moved [w.sa, w.sb] false).emitBoth w (s.recordToken w p (t.taint || d.taint)))

/-- MKGN_MARK_INSERT: a due insertion of the MKGN at the turn's element, unless it has halted or passed DRAIN (R174, R178, R229). -/
def execMkgnMarkInsert (s : State) : Out :=
  let p := s.here.cfg.active
  let e := s.elem
  if opcodeOf p s.cur.unit = 0x69 && e.opst.any && enabled p s.cur.unit && !e.halted && !e.passed && !e.sentDrain then
    s.insertMark (eowOf (eowField p s.cur.unit))
  else .next s

end Sys2Proof.Machine
end

