-- ==== Sys2Proof/Machine/ElemPool.lean ====
section
/-! DEFINITION. Pool operations of elements: ALOC, PWR, PPUB, PRQ and LUT, with their flushes (R234–R240, R285). -/

namespace Sys2Proof.Machine

/-- The element whose turn it is, as a requester. -/
def State.elemWho (s : State) : Requester := .elem s.cur.core s.cur.unit

/-- A handle of a core outside the partition is refused: PERMIT_DENY with the handle in TVAL (R234). -/
def State.denied (s : State) (h : BitVec 32) : State := s.elementFault 0x26 (h.setWidth 64)

/-- Whether a handle's core lies in the partition. -/
def State.reaches (s : State) (h : BitVec 32) : Bool := s.inPartition s.cur.core (handleCore h)

/-- A handle token (R235, R236). -/
def State.handleToken (s : State) (w : Eow) (h : BitVec 32) (k : Carry) : Token := s.dataToken w (handlePayload h) k

/-! ### ALOC (R235) -/

/-- ALOC: the request for a tile slot, then the firing that delivers its handle. -/
def execAloc (w : Eow) (s : State) : Out :=
  let is : List (Nat × Admits) := if w.sa.toNat < 4 then [(w.sa.toNat, .data)] else []
  let o := s.elem.opst
  match o.hand with
  | some h =>
    s.takes is false (s.bothOuts w) <|
      let k := s.carried w (is.map (·.1)) 1
      .next ((((s.consumeAll (is.map (·.1)) 1).fired 0 (s.endsTile w 1)).emitBoth w (s.handleToken w h k)).onOpst fun o =>
        { o with hand := none })
  | none =>
    if o.req.isSome then s.blockedHere
    else
      s.takes is false [] <|
        let id := s.here.nextId
        let pool := w.aux.toNat % 16
        .next (((s.on Core.nextNumber).requestSlot s.cur.core pool { id := id, who := s.elemWho }).onOpst fun o =>
          { o with req := some id })

/-! ### PWR (R236, R285) -/

/-- The sectors of the slot that a handle names. -/
def State.sectorsOf (s : State) (h : BitVec 32) : Nat := (s.core (handleCore h)).poolSectors (handlePool h)

/-- The next non-zero handle of a held handle token from lane k on, and the lane after it. -/
def nextHandle (p : Payload) (k : Nat) : Option (BitVec 32 × Nat) :=
  ((List.range 8).find? fun j => k ≤ j && p.extractLsb' (32 * j) 32 != 0).map fun j => (p.extractLsb' (32 * j) 32, j + 1)

/-- Presents a sector write of the tile under way of the element whose turn it is. -/
def State.presentWrite (s : State) (h : BitVec 32) (sector : Nat) (data : Payload) (fmt : BitVec 4) (taint : Bool) : State :=
  (s.onOpst fun o => { o with cnt := o.cnt + 1 }).requestSector (bankReq s.elemWho s.elem.tile h sector (.write data fmt taint))

/-- One step of the zero fill, and of the handle token that follows once every write has been performed, into the slots that the firing
took for it (R221, R236, R285). -/
def State.fillTile (s : State) (w : Eow) (h : BitVec 32) : Out :=
  let o := s.elem.opst
  if o.sector < s.sectorsOf h then
    .next ((s.onOpst fun o => { o with sector := o.sector + 1 }).presentWrite h o.sector 0 (o.fmt.getD 0) false)
  else if 0 < o.cnt then .next s
  else
    .next ((s.sendHeld w (s.handleToken w h (s.openCarry o.taint))).onOpst fun o =>
      { o with hand := none, fill := false, any := false, sector := 0, fmt := none, taint := false })

/-- The token whose handles PWR uses next: the one it holds while lanes of it are left, else the one at SA, with whether it is that. -/
def State.handleSource (s : State) (w : Eow) : Token × Nat × Bool :=
  let o := s.elem.opst
  match o.held with
  | some t => if (nextHandle t.payload o.idx.toNat).isSome then (t, o.idx.toNat, false) else (s.headAt w.sa, 0, true)
  | none => (s.headAt w.sa, 0, true)

/-- The tile that PWR's next firing writes to: its handle, the lane after it, the sector, and whether the firing begins it. None where
the token at SA holds no handle. -/
def State.pwrTile (s : State) (w : Eow) : Option (BitVec 32 × Nat × Nat × Bool) :=
  let o := s.elem.opst
  match o.hand with
  | some h => some (h, o.idx.toNat, o.sector, false)
  | none =>
    let q := s.handleSource w
    (nextHandle q.1.payload q.2.1).map fun r => (r.1, r.2, 0, true)

/-- Whether PWR's next firing takes a handle token from SA. -/
def State.pwrTakes (s : State) (w : Eow) : Bool := s.elem.opst.hand.isNone && (s.handleSource w).2.2

/-- The found format of the SB token of PWR where it may be written to the tile, else the reason and format of the mismatch (R236). -/
def State.pwrFormat (s : State) (begins : Bool) (t : Token) : Except (Nat × Nat) Nat :=
  match (if t.kind = kindData then formatAt s.here.cfg.active s.cur.unit t else none) with
  | none => .error (if t.kind = kindData then 1 else 2, 0xE)
  | some f => if begins || s.elem.opst.fmt = some (BitVec.ofNat 4 f) then .ok f else .error (0, f)

/-- A firing of PWR on sector j of tile h with the SB token; the one that ends the tile takes the output slots for its handle token. -/
def State.pwrWrite (s : State) (w : Eow) (h : BitVec 32) (k j : Nat) (begins last : Bool) (f : Nat) : State :=
  let t := s.headAt w.sb
  let takes := s.pwrTakes w
  let src := (s.handleSource w).1
  let u := s.moved (if takes then [w.sa, w.sb] else [w.sb]) (takes && (s.headAt w.sa).endOfTile)
  let u := if last then u.holdOutputs w else u
  let u := if begins then (u.onElem fun e => { e with tile := s.here.nextId + 1 }).on Core.nextNumber else u
  (u.onOpst fun o =>
    { o with held := if begins then some src else o.held, hand := some h, idx := BitVec.ofNat 32 k, sector := j + 1,
             fmt := some (BitVec.ofNat 4 f), fill := last, any := last, taint := (!begins && o.taint) || t.taint }).presentWrite
    h j t.payload (BitVec.ofNat 4 f) t.taint

/-- PWR (R236): each firing writes the SB token to the next sector of the tile in use; with none in use it takes the next handle, from a
new SA token where the lanes of the last are used up (a token without a handle is consumed alone). The firing that ends a tile needs
room for its handle token, and the fill follows. The row and E bits of the handle token are not stated (log entry 14). -/
def execPwr (w : Eow) (s : State) : Out :=
  let o := s.elem.opst
  match o.fill, o.hand with
  | true, some h => s.fillTile w h
  | _, _ =>
    let t := s.headAt w.sb
    let last := match s.pwrTile w with
      | some (h, _, j, begins) => (s.pwrFormat begins t).isOk && (j + 1 == s.sectorsOf h || t.endOfTile)
      | none => false
    s.takes ((if s.pwrTakes w then [(w.sa.toNat, .data)] else []) ++ [(w.sb.toNat, .both)]) false (if last then s.bothOuts w else []) <|
      match s.pwrTile w with
      | none => .next (s.consume w.sa.toNat 1)
      | some (h, k, j, begins) =>
        if !s.reaches h then .next (s.denied h)
        else
          match s.pwrFormat begins t with
          | .error (reason, found) => .next (s.mismatch reason found w.sb.toNat)
          | .ok f => .next (s.pwrWrite w h k j begins last f)

/-- The flush of PWR (R240): a tile under way is filled and its handle written, and the lanes left of the held token are discarded, with
the handle format of the token deciding whether readers are abandoned (R224). -/
def State.flushPwr (s : State) (w : Eow) : Option Out :=
  let o := s.elem.opst
  match o.hand, o.held with
  | some h, _ =>
    some (if o.fill then s.fillTile w h
      else s.whenRoom (s.bothOuts w) (.next ((s.holdOutputs w).onOpst fun o => { o with fill := true, any := true })))
  | none, some t =>
    let rest := { t with payload := (t.payload >>> (32 * o.idx.toNat)) <<< (32 * o.idx.toNat) }
    some (.next ((s.discardToken s.cur.core s.cur.unit rest).onOpst fun o => { o with held := none }))
  | none, none => none

/-! ### PPUB (R237) -/

/-- PPUB: each non-zero handle in turn, then the token is forwarded into the output slots that the first of them took (R221). -/
def execPpub (w : Eow) (s : State) : Out :=
  let is := [(w.sa.toNat, Admits.data)]
  let o := s.elem.opst
  let t := s.headAt w.sa
  match nextHandle t.payload o.cnt with
  | none =>
    if o.any then
      s.takes is false [] <|
        .next (((s.moved [w.sa] t.endOfTile).sendHeld w (s.forward w t)).onOpst fun o => { o with cnt := 0, any := false })
    else s.forwardSa w is id
  | some (h, k) =>
    s.takes is false (if o.any then [] else s.bothOuts w) <|
      if !s.reaches h then .next (s.denied h)
      else
        let u := if o.any then s else s.holdOutputs w
        .next ((u.slotEvent s.elemWho h fun c => c.publish h (w.imm.setWidth 8)).onOpst fun o => { o with cnt := k, any := true })

/-! ### PRQ (R238) -/

/-- PRQ: the next sector of the handle in use, with a link slot in every receiver; or the next handle. -/
def execPrq (w : Eow) (s : State) : Out :=
  let o := s.elem.opst
  match o.hand with
  | some h =>
    s.whenRoom (s.bothOuts w) <|
      let n := s.sectorsOf h
      let cons := w.aux.getLsbD 0 && o.sector + 1 == n
      let take (s : State) (r : Nat × Dest) : State := s.onPort r.2 fun p => { p with pend := p.pend + 1 }
      let u := (s.outs w 0 ++ s.outs w 1).foldl take s
      let u := u.onElem fun e => { e with prq := e.prq ++ [{ handle := h, sector := o.sector, reply := none }] }
      let u := u.onOpst fun o =>
        if o.sector + 1 < n then { o with sector := o.sector + 1 } else { o with hand := none, sector := 0 }
      .next (u.requestSector (bankReq s.elemWho 0 h o.sector (.read cons)))
  | none =>
    s.takes [(w.sa.toNat, .data)] false [] <|
      let t := s.headAt w.sa
      match nextHandle t.payload o.cnt with
      | none => .next ((s.moved [w.sa] t.endOfTile).onOpst fun o => { o with cnt := 0 })
      | some (h, k) =>
        if !s.reaches h then .next (s.denied h)
        else .next (s.onOpst fun o => { o with hand := some h, sector := 0, cnt := k })

/-! ### LUT (R239) -/

/-- The sectors that a token's indices touch in the held tile, each once. -/
def lutSectors (lw size : Nat) (ix : List Nat) : List Nat :=
  ((ix.filter fun k => k * lw / 8 < size).map fun k => k * lw / 8 / 32).eraseDups

/-- The entry of lane width lw at index k, from the sectors that have replied. -/
def lutEntry (lw k : Nat) (replies : List PrqRead) : Nat :=
  match replies.find? fun r => r.sector == k * lw / 8 / 32 with
  | some { reply := some t, .. } => t.payload.toNat / 2 ^ (k * lw % 256) % 2 ^ lw
  | _ => 0

/-- The release of the held table: a consuming read of sector 0 when CONS is 1 (R239). -/
def State.releaseTable (s : State) (w : Eow) (h : BitVec 32) : State :=
  let u := s.onOpst fun o => { o with hand := none }
  if w.aux.getLsbD 4 then u.requestSector (bankReq s.elemWho 0 h 0 (.read true)) else u

/-- A firing of LUT on its index token: the output slots are taken, then the reads of the sectors that it names are presented (R37). -/
def State.lutFire (s : State) (w : Eow) (h : BitVec 32) (fresh : Bool) : State :=
  let t := s.headAt w.sa
  let lw := laneWidth (w.aux.toNat % 16)
  let need := lutSectors lw (32 * s.sectorsOf h) (lanes t.payload lw)
  let u := (s.moved (if fresh then [w.sa, w.sb] else [w.sa]) t.endOfTile).holdOutputs w
  let u := u.onElem fun e => { e with prq := need.map fun q => { handle := h, sector := q, reply := none } }
  let u := u.onOpst fun o =>
    { o with hand := some h, held := some t, any := true, taint := t.taint || (fresh && (s.headAt w.sb).taint) }
  need.foldl (fun u q => u.requestSector (bankReq s.elemWho 0 h q (.read false))) u

/-- The result of LUT for an index token once every read has replied. -/
def State.lutResult (s : State) (w : Eow) (h : BitVec 32) (t : Token) : State :=
  let lw := laneWidth (w.aux.toNat % 16)
  let ix := lanes t.payload lw
  let size := 32 * s.sectorsOf h
  let e := s.elem
  let outs := ix.map fun k => if size ≤ k * lw / 8 then 0 else lutEntry lw k e.prq
  let st : Status := { Status.none with nv := ix.any fun k => decide (size ≤ k * lw / 8) }
  let taint := e.opst.taint || e.prq.any fun r => r.reply.any (·.taint)
  let u := (s.sendHeld w (s.dataToken w (packLanes lw outs) { row := t.row, e := t.e, taint := taint })).onElem fun e =>
    { e.flag st.toBits with prq := [] }
  let u := u.onOpst fun o => { o with held := none, any := false, taint := false }
  if t.endOfTile then u.releaseTable w h else u

/-- LUT: an index token, with a table handle where none is held, then the sectors its indices name, then the result. A handle token whose
lane 0 is zero holds no handle and is skipped (R36). -/
def execLut (w : Eow) (s : State) : Out :=
  let o := s.elem.opst
  match o.any, o.hand, o.held with
  | true, some h, some t => if s.elem.prq.any (·.reply.isNone) then .next s else .next (s.lutResult w h t)
  | _, _, _ =>
    let fresh := o.hand.isNone
    s.takes ((w.sa.toNat, .data) :: if fresh then [(w.sb.toNat, .data)] else []) false (s.bothOuts w) <|
      let h := o.hand.getD ((s.headAt w.sb).payload.extractLsb' 0 32)
      if h = 0 then .next (s.consume w.sb.toNat 1)
      else if !s.reaches h then .next (s.denied h)
      else .next (s.lutFire w h fresh)

/-- What an operation of this chapter has still to do before it is flushed (R240): a step of it, or none. -/
def State.flushPoolOp (s : State) (op : Nat) (w : Eow) : Option Out :=
  let o := s.elem.opst
  match op with
  | 0x81 => s.flushPwr w
  | 0x83 => if s.elem.prq.isEmpty then none else some (.next s)
  | 0x84 => o.hand.map fun h => .next (s.releaseTable w h)
  | _ => none

end Sys2Proof.Machine
end

