-- ==== Sys2Proof/Machine/ElemFloat.lean ====
section
/-! DEFINITION. Floating-point operations of elements (R201–R205). -/

namespace Sys2Proof.Machine

/-- The floating-point format of TY. -/
def floatTy (w : Eow) : FloatFmt := (floatFmt (tyOf w)).getD fp32

/-- An operation on the values of the lanes. -/
def State.floatOp (s : State) (w : Eow) (f : FloatFmt → Rounding → FVal → FVal → FVal → Nat × Status) : Out :=
  let ft := floatTy w
  s.laneOp w fun r a b c => f ft r (decodeFloat ft a) (decodeFloat ft b) (decodeFloat ft c)

/-- FADD (R201). -/
def execFadd (w : Eow) (s : State) : Out := s.floatOp w fun ft r a b _ => fadd ft r a b
/-- FSUB (R201). -/
def execFsub (w : Eow) (s : State) : Out := s.floatOp w fun ft r a b _ => fadd ft r a b.negate
/-- FMUL (R201). -/
def execFmul (w : Eow) (s : State) : Out := s.floatOp w fun ft r a b _ => fmul ft r a b
/-- FMA (R201). -/
def execFma (w : Eow) (s : State) : Out := s.floatOp w fun ft r a b c => ffma ft r a b c
/-- FMS (R201). -/
def execFms (w : Eow) (s : State) : Out := s.floatOp w fun ft r a b c => ffma ft r a b c.negate
/-- FNMA (R201). -/
def execFnma (w : Eow) (s : State) : Out := s.floatOp w fun ft r a b c => ffma ft r a.negate b c

/-- The canonical NaN with NV for a signalling operand (R58). -/
def nanResult (ft : FloatFmt) (sig : Bool) : Nat × Status := (ft.nan.getD 0, invalid sig)

/-- a < b in the order that takes −0 below +0; neither is a NaN (R202). -/
def FVal.below : FVal → FVal → Bool
  | .inf a, .inf b => a && !b
  | .inf a, _ => a
  | _, .inf b => !b
  | .fin a, .fin b => if a.m = 0 && b.m = 0 then a.neg && !b.neg else a.lt b
  | _, _ => false

/-- The smaller or larger of two lanes; a NaN gives the canonical NaN (R202, R214). -/
def pickFloat (ft : FloatFmt) (larger : Bool) (x y : Nat) : Nat × Status :=
  let a := decodeFloat ft x
  let b := decodeFloat ft y
  if a.isNan || b.isNan then nanResult ft (a.signalling || b.signalling)
  else (if (if larger then b.below a else a.below b) then x else y, Status.none)

/-- FMIN (R202). -/
def execFmin (w : Eow) (s : State) : Out := s.laneOp w fun _ a b _ => pickFloat (floatTy w) false a b
/-- FMAX (R202). -/
def execFmax (w : Eow) (s : State) : Out := s.laneOp w fun _ a b _ => pickFloat (floatTy w) true a b

/-- An operation on the sign bit: magnitude of x with a sign (R194, R202). -/
def signOp (ft : FloatFmt) (x : Nat) (others : List Nat) (neg : Bool) : Nat × Status :=
  let vs := (x :: others).map (decodeFloat ft)
  if vs.any (·.isNan) then nanResult ft (vs.any (·.signalling))
  else (withSign ft neg (x % 2 ^ (ft.ew + ft.mw)), Status.none)

/-- The sign bit of a lane. -/
def signBit (ft : FloatFmt) (x : Nat) : Bool := x / 2 ^ (ft.ew + ft.mw) % 2 == 1

/-- FABS (R202). -/
def execFabs (w : Eow) (s : State) : Out := s.laneOp w fun _ a _ _ => signOp (floatTy w) a [] false
/-- FNEG (R202). -/
def execFneg (w : Eow) (s : State) : Out := s.laneOp w fun _ a _ _ => signOp (floatTy w) a [] (!signBit (floatTy w) a)
/-- FCPS (R202). -/
def execFcps (w : Eow) (s : State) : Out := s.laneOp w fun _ a b _ => signOp (floatTy w) a [b] (signBit (floatTy w) b)

/-- An infinity of a format. -/
def infinity (ft : FloatFmt) (neg : Bool) : Nat := withSign ft neg (ft.inf.getD ft.maxMag)

/-- A status with DZ. -/
def divZero : Status := { Status.none with dz := true }

/-- 1 / a (R203). -/
def recip (ft : FloatFmt) : FVal → Nat × Status
  | .nan sig => nanResult ft sig
  | .inf neg => (withSign ft neg 0, Status.none)
  | .fin d => if d.m = 0 then (infinity ft d.neg, divZero) else roundDy ft .rne (recipDy d)

/-- 1 / √a (R203). -/
def recipRoot (ft : FloatFmt) : FVal → Nat × Status
  | .nan sig => nanResult ft sig
  | .inf neg => if neg then nanResult ft true else (0, Status.none)
  | .fin d =>
    if d.m = 0 then (infinity ft d.neg, divZero)
    else if d.neg then nanResult ft true else roundDy ft .rne (rsqrtDy d)

/-- √a (R203). -/
def root (ft : FloatFmt) : FVal → Nat × Status
  | .nan sig => nanResult ft sig
  | .inf neg => if neg then nanResult ft true else (infinity ft false, Status.none)
  | .fin d =>
    if d.m = 0 then (withSign ft d.neg 0, Status.none)
    else if d.neg then nanResult ft true else roundDy ft .rne (sqrtDy d)

/-- 2^a (R203). -/
def power2 (ft : FloatFmt) : FVal → Nat × Status
  | .nan sig => nanResult ft sig
  | .inf neg => (if neg then 0 else infinity ft false, Status.none)
  | .fin d => roundDy ft .rne (exp2Dy d)

/-- log2 a (R203). -/
def logarithm2 (ft : FloatFmt) : FVal → Nat × Status
  | .nan sig => nanResult ft sig
  | .inf neg => if neg then nanResult ft true else (infinity ft false, Status.none)
  | .fin d =>
    if d.m = 0 then (infinity ft true, divZero)
    else if d.neg then nanResult ft true else roundDy ft .rne (log2Dy d)

/-- FRCP. -/
def execFrcp (w : Eow) (s : State) : Out := s.floatOp w fun ft _ a _ _ => recip ft a
/-- FRSQ. -/
def execFrsq (w : Eow) (s : State) : Out := s.floatOp w fun ft _ a _ _ => recipRoot ft a
/-- FSQRT. -/
def execFsqrt (w : Eow) (s : State) : Out := s.floatOp w fun ft _ a _ _ => root ft a
/-- FEX2. -/
def execFex2 (w : Eow) (s : State) : Out := s.floatOp w fun ft _ a _ _ => power2 ft a
/-- FLG2. -/
def execFlg2 (w : Eow) (s : State) : Out := s.floatOp w fun ft _ a _ _ => logarithm2 ft a

/-- a = b as values. -/
def FVal.same : FVal → FVal → Bool
  | .inf a, .inf b => a == b
  | .fin a, .fin b => a.eq b
  | _, _ => false

/-- Whether a floating-point condition holds, and whether it is invalid (R204). -/
def floatCond (cond : Nat) (a b : FVal) : Bool × Bool :=
  let nan := a.isNan || b.isNan
  let sig := a.signalling || b.signalling
  match cond with
  | 0 => (!nan && a.same b, sig)
  | 1 => (nan || !a.same b, sig)
  | 2 => (!nan && !a.same b && a.below b, nan)
  | 3 => (!nan && (a.same b || a.below b), nan)
  | _ => (nan, sig)

/-- An integer as an exact value of a format. -/
def smallFloat (ft : FloatFmt) (n : Nat) : Nat := (roundDy ft .rne ⟨false, n, 0⟩).1

/-- FCMP (R204). -/
def execFcmp (w : Eow) (s : State) : Out :=
  s.floatOp w fun ft _ a b _ =>
    let r := floatCond (w.aux.toNat % 8) a b
    (if r.1 then smallFloat ft 1 else 0, invalid r.2)

/-- The class number of a lane (R205). -/
def classOf (ft : FloatFmt) (x : Nat) : Nat :=
  match decodeFloat ft x with
  | .nan sig => if sig then 8 else 9
  | .inf neg => if neg then 0 else 7
  | .fin d =>
    let mag := x % 2 ^ (ft.ew + ft.mw)
    if d.m = 0 then (if d.neg then 3 else 4)
    else if mag < 2 ^ ft.mw then (if d.neg then 2 else 5)
    else (if d.neg then 1 else 6)

/-- FCLS (R205). -/
def execFcls (w : Eow) (s : State) : Out := s.laneOp w fun _ a _ _ => (smallFloat (floatTy w) (classOf (floatTy w) a), Status.none)

end Sys2Proof.Machine
end

