-- ==== Sys2Proof/Machine/ElemInteger.lean ====
section
/-! DEFINITION. Integer operations of elements (R206, R207). -/

namespace Sys2Proof.Machine

/-- An operation on the integer values of the lanes, by TY's signedness, narrowed by `fit` (R206). -/
def State.fitOp (s : State) (w : Eow) (f : Int → Int → Int → Int) : Out :=
  s.laneOp w fun r a b c => fit (tyOf w) r.sat (f (intValue (tyOf w) a) (intValue (tyOf w) b) (intValue (tyOf w) c))

/-- An operation on the integer values of the lanes, of which the low bits are kept (R206). -/
def State.wrapOp (s : State) (w : Eow) (f : Int → Int → Int) : Out :=
  s.laneOp w fun _ a b _ => (wrapTo (laneWidth (tyOf w)) (f (intValue (tyOf w) a) (intValue (tyOf w) b)), Status.none)

/-- An operation on bit patterns. -/
def State.bitOp (s : State) (w : Eow) (f : Nat → Nat → Nat → Nat) : Out :=
  let lw := laneWidth (tyOf w)
  s.laneOp w fun _ a b _ => (f lw a b % 2 ^ lw, Status.none)

/-- floor((x + h) / 2^sh) with h half of 2^sh (R206). -/
def roundShift (sh : Nat) (x : Int) : Int := (x + (if sh = 0 then 0 else 2 ^ (sh - 1))) / 2 ^ sh

/-- IMM[4:0]. -/
def shiftField (w : Eow) : Nat := w.imm.toNat % 32

/-- IADD. -/
def execIadd (w : Eow) (s : State) : Out := s.fitOp w fun a b _ => a + b
/-- ISUB. -/
def execIsub (w : Eow) (s : State) : Out := s.fitOp w fun a b _ => a - b
/-- IADDS. -/
def execIadds (w : Eow) (s : State) : Out := s.fitOp w fun a b _ => roundShift (shiftField w) (a + b)
/-- ISUBS. -/
def execIsubs (w : Eow) (s : State) : Out := s.fitOp w fun a b _ => roundShift (shiftField w) (a - b)
/-- IMUL. -/
def execImul (w : Eow) (s : State) : Out := s.wrapOp w fun a b => a * b
/-- IMULH. -/
def execImulh (w : Eow) (s : State) : Out := s.wrapOp w fun a b => a * b / 2 ^ laneWidth (tyOf w)
/-- IMAD. -/
def execImad (w : Eow) (s : State) : Out := s.fitOp w fun a b c => a * b + c
/-- IMULQ. -/
def execImulq (w : Eow) (s : State) : Out := s.fitOp w fun a b _ => roundShift (shiftField w) (a * b)
/-- IMIN. -/
def execImin (w : Eow) (s : State) : Out := s.wrapOp w fun a b => min a b
/-- IMAX. -/
def execImax (w : Eow) (s : State) : Out := s.wrapOp w fun a b => max a b
/-- IABS. -/
def execIabs (w : Eow) (s : State) : Out := s.fitOp w fun a _ _ => a.natAbs
/-- IAND. -/
def execIand (w : Eow) (s : State) : Out := s.bitOp w fun _ a b => a &&& b
/-- IOR. -/
def execIor (w : Eow) (s : State) : Out := s.bitOp w fun _ a b => a ||| b
/-- IXOR. -/
def execIxor (w : Eow) (s : State) : Out := s.bitOp w fun _ a b => a ^^^ b
/-- INOT. -/
def execInot (w : Eow) (s : State) : Out := s.bitOp w fun lw a _ => 2 ^ lw - 1 - a
/-- ISHL: 0 for a shift of the width or more. -/
def execIshl (w : Eow) (s : State) : Out := s.bitOp w fun lw a b => if lw ≤ b then 0 else a * 2 ^ b
/-- ISHR: 0 for a shift of the width or more. -/
def execIshr (w : Eow) (s : State) : Out := s.bitOp w fun lw a b => if lw ≤ b then 0 else a / 2 ^ b
/-- ISHA: all sign bits for a shift of the width or more. -/
def execIsha (w : Eow) (s : State) : Out :=
  let lw := laneWidth (tyOf w)
  s.laneOp w fun _ a b _ => (wrapTo lw (intValue (tyOf w) a / 2 ^ (min b lw)), Status.none)
/-- ICLZ. -/
def execIclz (w : Eow) (s : State) : Out := s.bitOp w fun lw a _ => lw - bitLength a

/-- An integer condition (R189, R207): eq, ne on patterns, lt, le by signedness, ltn, len on natural values. -/
def integerCond (cond code a b : Nat) : Bool :=
  match cond with
  | 0 => a == b
  | 1 => a != b
  | 2 => decide (intValue code a < intValue code b)
  | 3 => decide (intValue code a ≤ intValue code b)
  | 4 => decide (a < b)
  | _ => decide (a ≤ b)

/-- ICMP (R207). -/
def execIcmp (w : Eow) (s : State) : Out :=
  s.bitOp w fun lw a b => if integerCond (w.aux.toNat % 8) (tyOf w) a b then 2 ^ lw - 1 else 0

end Sys2Proof.Machine
end

