-- ==== Sys2Proof/Machine/ElemLane.lean ====
section
/-! DEFINITION. Lane operations, CLMP and IOTA (R211–R213). -/

namespace Sys2Proof.Machine

/-- A lane operation: no value is read and no flag set (R212). -/
def State.moveOp (s : State) (w : Eow) (f : Nat → Nat → List Nat → List Nat → List Nat → Nat) : Out :=
  let lw := laneWidth (tyOf w)
  let n := 256 / lw
  s.tokenOp w (fun a b c => ((List.range n).map fun i => f n i a b c, Status.none)) lw

/-- SEL: lane of a where c has any bit set, else of b. -/
def execSelLanes (w : Eow) (s : State) : Out :=
  s.moveOp w fun _ i a b c => if ((c)[i]?).getD 0 = 0 then (b[i]?).getD 0 else (a[i]?).getD 0

/-- The index x_j of SHUF, bits 4j + 3:4j of K1 ‖ K0. -/
def shuffleIndex (k0 k1 : BitVec 32) (j : Nat) : Nat := (k1 ++ k0).toNat / 16 ^ j % 16

/-- SHUF. -/
def execShuf (w : Eow) (s : State) : Out :=
  let p := s.here.cfg.active
  let k0 := constantOf p s.cur.unit 0
  let k1 := constantOf p s.cur.unit 1
  s.moveOp w fun n i a _ _ =>
    let x := shuffleIndex k0 k1 (i % 16)
    (a[16 * (i / 16) + (if n = 8 then x % 8 else x)]?).getD 0

/-- BCST. -/
def execBcst (w : Eow) (s : State) : Out := s.moveOp w fun n _ a _ _ => (a[shiftField w % n]?).getD 0

/-- ROTL. -/
def execRotl (w : Eow) (s : State) : Out := s.moveOp w fun n i a _ _ => (a[(i + shiftField w) % n]?).getD 0

/-- SLID. -/
def execSlid (w : Eow) (s : State) : Out := s.moveOp w fun _ i a b _ => ((a ++ b)[i + w.imm.toNat % 64]?).getD 0

/-- CLMP: min(max(a, lo), hi) (R211). -/
def clampFloat (ft : FloatFmt) (a lo hi : Nat) : Nat × Status :=
  let vs := [a, lo, hi].map (decodeFloat ft)
  if vs.any (·.isNan) then nanResult ft (vs.any (·.signalling))
  else (pickFloat ft false (pickFloat ft true a lo).1 hi)

/-- CLMP. -/
def execClmp (w : Eow) (s : State) : Out :=
  match floatFmt (tyOf w) with
  | some ft => s.laneOp w fun _ a b c => clampFloat ft a b c
  | none => s.laneOp w fun _ a b c =>
      (wrapTo (laneWidth (tyOf w)) (min (max (intValue (tyOf w) a) (intValue (tyOf w) b)) (intValue (tyOf w) c)), Status.none)

/-- IOTA: an arithmetic sequence a trigger; the count returns to 0 after an end of tile (R213). -/
def execIota (w : Eow) (s : State) : Out :=
  let lw := laneWidth (tyOf w)
  let n := 256 / lw
  let p := s.here.cfg.active
  let k0 := (constantOf p s.cur.unit 0).toNat
  let k1 := (constantOf p s.cur.unit 1).toNat
  let c := s.elem.opst.cnt
  let out := (List.range n).map fun i => (k0 + (c * n + i) * k1) % 2 ^ lw
  let ended := s.endsTile w 1
  s.fireWith w 1 1 (· == tyOf w) ([packLanes lw out], Status.none)
    fun t => t.onOpst fun o => { o with cnt := if ended then 0 else c + 1 }

end Sys2Proof.Machine
end

