-- ==== Sys2Proof/Machine/ElemConvert.lean ====
section
/-! DEFINITION. Conversions and block formats: CVT, DEQ and QNT (R59–R61, R64, R208–R210). -/

namespace Sys2Proof.Machine

/-! ### CVT (R59, R208) -/

/-- The value of a lane in any format that decodes lanes. -/
def laneValue (code b : Nat) : FVal :=
  match floatFmt code with
  | some f => decodeFloat f b
  | none => let x := intValue code b; .fin ⟨x < 0, x.natAbs, 0⟩

/-- Times a power of two. -/
def FVal.scale : FVal → Int → FVal
  | .fin d, k => .fin (d.scale k)
  | v, _ => v

/-- Converts a value to a format (R54, R55, R59). -/
def convert (code : Nat) (r : Rounding) (v : FVal) : Nat × Status :=
  match floatFmt code with
  | some f =>
    match v with
    | .inf neg =>
      if f.inf.isSome then roundVal f r v
      else (if r.sat then withSign f neg f.maxMag else f.nan.getD (withSign f neg f.maxMag), { Status.none with of := true })
    | .nan sig => (f.nan.getD 0, invalid sig)
    | .fin d => roundDy f r d
  | none =>
    let lw := laneWidth code
    let (lo, hi) := intRange code
    match v with
    | .nan _ => (0, invalid true)
    | .inf neg => (wrapTo lw (if neg then lo else hi), invalid true)
    | .fin d =>
      let (x, nx) := roundInteger r d
      if x < lo then (wrapTo lw lo, invalid true)
      else if hi < x then (wrapTo lw hi, invalid true)
      else (wrapTo lw x, { Status.none with nx := nx })

/-- Whether a format code is E4M3 or E5M2, whose lanes a scale register scales (R64). -/
def isScaled (code : Nat) : Bool := code == 0x9 || code == 0xA

/-- The exponent that scales a token's lanes on decode (R64): its VC's, when that entry is enabled and holds the token's format. -/
def scaleOf (p : Plane) (ea vc code : Nat) : Nat :=
  if isScaled code && vcFormat p ea vc == some code then vcScale p ea vc else 0x7F

/-- A finite lane times 2^k, rounded to the operation type by RNE, with the operation's SAT (R54, R55, R64; log entry 15 for the type of CVT, which is
what its TY must hold); a result outside an integer type is left to the conversion, which alone sets its status (R55). -/
def scaledTo (ty : Nat) (sat : Bool) (k : Int) : FVal → FVal × Status
  | .fin d =>
    match floatFmt ty with
    | some f => let q := roundDy f { Rounding.rne with sat := sat } (d.scale k); (decodeFloat f q.1, q.2)
    | none =>
      let (x, nx) := roundInteger .rne (d.scale k)
      let (lo, hi) := intRange ty
      (.fin ⟨x < 0, x.natAbs, 0⟩, { Status.none with nx := nx && decide (lo ≤ x) && decide (x ≤ hi) })
  | v => (v, Status.none)

/-- One lane of CVT with the exponents of its input and output scales: the scaled input rounded to the operation type, then converted
(R64, R208; log entry 15). -/
def convertLane (src dst : Nat) (r : Rounding) (inScale outScale b : Nat) : Nat × Status :=
  if (floatFmt src).isNone && (floatFmt dst).isNone then fit dst r.sat (intValue src b)
  else if inScale = 0xFF || outScale = 0xFF then
    let c := convert dst r (.nan false)
    (c.1, c.2.or (invalid true))
  else
    let v := if isScaled src then scaledTo (if dst ≤ 8 then dst else 0) r.sat ((inScale : Int) - 127) (laneValue src b)
      else (laneValue src b, Status.none)
    let c := convert dst r (v.1.scale (127 - (outScale : Int)))
    (c.1, v.2.or c.2)

/-- CVT: the lanes of the consumed tokens as one sequence; lane j of the results from lane j (R208). A constant source supplies its low
bits to every lane of the sequence, with no scale (R193; log entry 15). -/
def execCvt (w : Eow) (s : State) : Out :=
  let src := w.aux.toNat % 16
  let dst := w.aux.toNat / 16
  let p := s.here.cfg.active
  let n := 2 ^ w.rin.toNat
  let outN := 2 ^ w.rout.toNat
  let toks := s.elem.group w.sa.toNat n
  let outScale := if isScaled dst then scaleOf p s.cur.unit w.vco.toNat dst else 0x7F
  let ins := if w.sa.toNat < 4 then
      toks.flatMap fun t => (lanes t.payload (laneWidth src)).map fun b => (scaleOf p s.cur.unit t.vc.toNat src, b)
    else (List.range n).flatMap fun _ => (s.operand w.sa (laneWidth src)).map fun b => (0x7F, b)
  let outs := ins.mapIdx fun j x => convertLane src dst (s.rounding w j) x.1 outScale x.2
  let per := laneCount dst
  let ps := (List.range outN).map fun k => packLanes (laneWidth dst) (((outs.map (·.1)).drop (k * per)).take per)
  s.fireWith w n outN (· == src) (ps, outs.foldl (fun st x => st.or x.2) Status.none) id

/-! ### Blocks (R60, R61) -/

/-- The value of a block element: E2M1, or INT4. -/
def blockValue (code k : Nat) : FVal := laneValue code k

/-- An element of a block with its scale, as BF16 (R60). -/
def dequantise (code e k : Nat) : Nat × Status :=
  if e = 0xFF then (0x7FC0, invalid true)
  else
    let r := convert 0x1 ⟨0, true, 0⟩ ((blockValue code k).scale ((e : Int) - 127))
    (r.1, if r.2.of then { Status.none with of := true } else Status.none)

/-- The magnitude of a value, or none for a NaN or an infinity. -/
def FVal.mag : FVal → Option Dy
  | .fin d => some { d with neg := false }
  | _ => none

/-- The largest magnitude of a list, or none if it holds a NaN or an infinity. -/
def largest : List FVal → Option Dy
  | [] => some (.zero false)
  | v :: vs =>
    match v.mag, largest vs with
    | some a, some b => some (if b.lt a then a else b)
    | _, _ => none

/-- A value scaled by 2^(−s) as a block element, clamped (R61). -/
def quantiseOne (code : Nat) (r : Rounding) (s : Int) (v : FVal) : Nat × Status :=
  match v with
  | .fin d =>
    let x := d.scale (-s)
    if code = 0xB then
      let q := roundDy e2m1 { r with sat := true } x
      let zero := q.1 % 8 = 0 && d.m != 0
      (q.1, { Status.none with sat := q.2.of, nx := q.2.nx, uf := zero })
    else
      let (n, nx) := roundInteger r x
      let c := max (-8) (min 7 n)
      (wrapTo 4 c, { Status.none with sat := c != n, nx := nx, uf := n == 0 && d.m != 0 })
  | _ => (0, Status.none)

/-- Quantises 32 values into a block: the elements, the scale and the status (R61). -/
def quantise (code : Nat) (rnd : Nat → Rounding) (vs : List FVal) : List Nat × Nat × Status :=
  match largest vs with
  | none => (vs.map fun _ => 0, 0xFF, invalid true)
  | some a =>
    if a.m = 0 then (vs.map fun _ => 0, 0x7F, Status.none)
    else
      let s0 : Int := a.e + bitLength a.m - 1 - 2
      let e : Int := max 0 (min 254 (s0 + 127))
      let ks := vs.mapIdx fun i v => quantiseOne code (rnd i) (e - 127) v
      (ks.map (·.1), e.toNat,
        ks.foldl (fun st k => st.or k.2) { Status.none with of := decide (254 < s0 + 127) })

/-- DEQ: a block-element token with a held scale token (R209). -/
def execDeq (w : Eow) (s : State) : Out :=
  let src := w.aux.toNat % 16
  let p := s.here.cfg.active
  let o := s.elem.opst
  let sa := w.sa.toNat
  let sb := w.sb.toNat
  let is := if o.held.isNone then inputsOf [w.sa, w.sb] else inputsOf [w.sa]
  s.whenReady is 1 false <|
    let bad := match firstRefusal p s.cur.unit (· == src) (s.elem.group sa 1) with
      | some r => some (sa, r)
      | none => if o.held.isSome then none else (firstRefusal p s.cur.unit (· == 0xD) (s.elem.group sb 1)).map fun r => (sb, r)
    match bad with
    | some (i, r, f) => .next (s.mismatch r f i)
    | none =>
      s.whenRoom (needsOf (s.outs w 0) 4 ++ needsOf (s.outs w 1) 4) <|
        match (match o.held with | some t => some t | none => s.elem.head sb), s.elem.head sa with
        | some scale, some t =>
          let c := if o.held.isSome then o.cnt else 0
          let outs := (lanes t.payload 4).mapIdx fun k b => dequantise src (lane scale.payload 8 (c + k / 32)) b
          let k := carryOf [t] (is.flatMap fun i => s.elem.group i 1)
          let toks := (List.range 4).map fun j =>
            s.dataToken w (packLanes 16 (((outs.map (·.1)).drop (16 * j)).take 16)) (if j = 3 then k else { k with e := 0 })
          let st := outs.foldl (fun st x => st.or x.2) Status.none
          let done := c + 2 = 32 || t.endOfTile
          .next (((((s.consumeAll is 1).emitOn w 0 toks).emitOn w 1 toks).fired st.toBits t.endOfTile).onOpst fun o =>
            { o with held := if done then none else some scale, cnt := if done then 0 else c + 2 })
        | _, _ => .next s

/-- The scale token under way with two scales put in place; lanes not filled hold 0x7F (R210). -/
def fillScales (held : Payload) (c e0 e1 : Nat) : Payload :=
  let ls := if c = 0 then List.replicate 32 0x7F else lanes held 8
  packLanes 8 ((ls.set (2 * c) e0).set (2 * c + 1) e1)

/-- QNT's scale token on O1: FOV = 1 and FMT 0xD (R210). -/
def State.scaleToken (s : State) (w : Eow) (payload : Payload) (k : Carry) : Token :=
  { s.dataToken w payload k with tag := dataTag 0xD true k.row }

/-- QNT: 64 values into two blocks, the scales gathered in a token for O1 (R210). -/
def execQnt (w : Eow) (s : State) : Out :=
  let src := w.aux.toNat % 16
  let dst := w.aux.toNat / 16
  let p := s.here.cfg.active
  let n := 2 ^ w.rin.toNat
  let is := inputsOf [w.sa]
  let o := s.elem.opst
  s.whenReady is n false <|
    match firstRefusal p s.cur.unit (· == src) (s.elem.group w.sa.toNat n) with
    | some (r, f) => .next (s.mismatch r f w.sa.toNat)
    | none =>
      let toks := s.elem.group w.sa.toNat n
      let k := carryOf toks toks
      let ended := k.e.getLsbD 0
      let done := o.cnt + 1 = 16 || ended
      s.whenRoom (needsOf (s.outs w 0) 1 ++ (if done then needsOf (s.outs w 1) 1 else [])) <|
        let vs := toks.flatMap fun t => (lanes t.payload (laneWidth src)).map (laneValue src)
        let b0 := quantise dst (s.rounding w) (vs.take 32)
        let b1 := quantise dst (s.rounding w) (vs.drop 32)
        let scales := fillScales o.lanes o.cnt b0.2.1 b1.2.1
        let t0 := s.dataToken w (packLanes 4 (b0.1 ++ b1.1)) k
        let t1 := s.scaleToken w scales k
        let u := (s.consumeAll is n).emitOn w 0 [t0]
        let u := if done then u.emitOn w 1 [t1] else u
        .next ((u.fired ((b0.2.2.or b1.2.2).toBits) ended).onOpst fun o =>
          { o with lanes := if done then 0 else scales, cnt := if done then 0 else o.cnt + 1, taint := k.taint,
                   row := k.row, eb := k.e })

end Sys2Proof.Machine
end

