-- ==== Sys2Proof/Machine/ElemReduce.lean ====
section
/-! DEFINITION. Reductions: RSUM, RMAX, RMIN, DOT, ACC and AMAX, with the releases of ACC and AMAX (R65–R67, R214–R218). -/

namespace Sys2Proof.Machine

/-! ### Trees (R66, R214) -/

/-- One level of the pairwise tree, with a status. -/
def treeLevel {α : Type} (node : α → α → α × Status) : List α → List α × Status
  | x :: y :: rest =>
    let r := node x y
    let q := treeLevel node rest
    (r.1 :: q.1, r.2.or q.2)
  | xs => (xs, Status.none)

/-- The pairwise tree over at most 2^fuel leaves. -/
def treeFold {α : Type} (node : α → α → α × Status) : Nat → List α → List α × Status
  | 0, xs => (xs, Status.none)
  | fuel + 1, xs =>
    let l := treeLevel node xs
    let q := treeFold node fuel l.1
    (q.1, l.2.or q.2)

/-- The rounding of a node: DITHER is taken as RNE (R66). -/
def Rounding.atNode (r : Rounding) : Rounding := { r with mode := if r.mode = 4 then 0 else r.mode }

/-- RSUM of floating-point lanes: FP32 additions, then the final rounding to TY (R66). -/
def sumFloat (code : Nat) (r : Rounding) (xs : List Nat) : Nat × Status :=
  let ft := (floatFmt code).getD fp32
  let t := treeFold (fun a b => let q := fadd fp32 r.atNode a b; (decodeFloat fp32 q.1, q.2)) 5 (xs.map (decodeFloat ft))
  let x := (t.1.head?).getD (.fin (.zero false))
  let q := if code = 0 then roundVal fp32 r.atNode x else roundVal ft r x
  (q.1, t.2.or q.2)

/-- RSUM of integer lanes: 32-bit additions, then narrowed to TY (R59, R66). -/
def sumInteger (code : Nat) (sat : Bool) (xs : List Nat) : Nat × Status :=
  let acc := if isSigned code then 0x3 else 0x6
  let t := treeFold (fun a b => let q := fit acc (sat && laneWidth code == 32) (a + b); (intValue acc q.1, q.2)) 5
    (xs.map (intValue code))
  let q := fit code sat ((t.1.head?).getD 0)
  (q.1, t.2.or q.2)

/-- The largest or smallest lane (R66, R214). -/
def pickLane (code : Nat) (larger : Bool) (xs : List Nat) : Nat × Status :=
  let t := match floatFmt code with
    | some ft => treeFold (pickFloat ft larger) 5 xs
    | none => treeFold (fun a b =>
        (if (if larger then decide (intValue code a < intValue code b) else decide (intValue code b < intValue code a)) then b else a,
          Status.none)) 5 xs
  ((t.1.head?).getD 0, t.2)

/-- A reduction: the result in lane 0, zero in the others. -/
def State.reduceOp (s : State) (w : Eow) (outWidth : Nat) (f : List Nat → List Nat → Nat × Status) : Out :=
  s.tokenOp w (fun a b _ => let r := f a b; ([r.1], r.2)) outWidth

/-- RSUM. -/
def execRsum (w : Eow) (s : State) : Out :=
  s.reduceOp w (laneWidth (tyOf w)) fun a _ =>
    if (floatFmt (tyOf w)).isSome then sumFloat (tyOf w) (s.rounding w 0) a else sumInteger (tyOf w) (w.md.getLsbD 3) a

/-- RMAX. -/
def execRmax (w : Eow) (s : State) : Out := s.reduceOp w (laneWidth (tyOf w)) fun a _ => pickLane (tyOf w) true a
/-- RMIN. -/
def execRmin (w : Eow) (s : State) : Out := s.reduceOp w (laneWidth (tyOf w)) fun a _ => pickLane (tyOf w) false a

/-- An exact product as a term of a sum: a NaN operand or 0 × ∞ makes the sum invalid (R65). -/
def sumTerm (a b : FVal) : FVal × Bool :=
  let p := FVal.mul a b
  (p.1, p.2 || a.isNan || b.isNan)

/-- DOT (R215). -/
def execDot (w : Eow) (s : State) : Out :=
  s.reduceOp w 32 fun a b =>
    match floatFmt (tyOf w) with
    | some ft => fsum fp32 (s.rounding w 0).atNode (List.zipWith (fun x y => sumTerm (decodeFloat ft x) (decodeFloat ft y)) a b)
    | none =>
      fit (if isSigned (tyOf w) then 0x3 else 0x6) (w.md.getLsbD 3)
        ((List.zipWith (fun x y => intValue (tyOf w) x * intValue (tyOf w) y) a b).foldl (· + ·) 0)

/-! ### Banks as 256 words (R216, R250) -/

/-- The words of a bank in ascending bits: word 16 × row + column. -/
def bankWords (a : BitVec 8192) : List Nat := (List.range 256).map fun i => a.toNat / 2 ^ (32 * i) % 2 ^ 32

/-- A bank from its words. -/
def bankOf (ws : List Nat) : BitVec 8192 := BitVec.ofNat 8192 (packNat 32 ws)

/-- Bank A0 or A1 of an element. -/
def Elem.bank (e : Elem) (b : Bool) : BitVec 8192 := if b then e.a1 else e.a0

/-- Writes a bank. -/
def Elem.setBank (e : Elem) (b : Bool) (v : BitVec 8192) : Elem := if b then { e with a1 := v } else { e with a0 := v }

/-- Replaces words of a list from place `k` on by a function of the old word and the place. -/
def updWords (ws : List Nat) (k n : Nat) (f : Nat → Nat → Nat) : List Nat :=
  ws.mapIdx fun i x => if k ≤ i && i < k + n then f x (i - k) else x

/-! ### ACC (R216) -/

/-- The number of positions P. -/
def accPositions (w : Eow) : Nat := 2 ^ (w.aux.toNat / 2 % 8)

/-- The bank of ACC, AUX[0]. -/
def accBank (w : Eow) : Bool := w.aux.getLsbD 0

/-- One addition of ACC: into FP32, or INT32 by fit. -/
def accAdd (w : Eow) (r : Rounding) (old x : Nat) : Nat × Status :=
  match floatFmt (tyOf w) with
  | some ft => fadd fp32 r (decodeFloat fp32 old) (decodeFloat ft x)
  | none => fit 0x3 (w.md.getLsbD 3) (intValue 0x3 old + intValue 0x3 x)

/-- ACC: adds a token into its positions (R67, R216). -/
def execAcc (w : Eow) (s : State) : Out :=
  let is := inputsOf [w.sa]
  s.whenReady is 1 false <|
    match s.refusedInput is 1 (· == tyOf w) with
    | some (i, r, f) => .next (s.mismatch r f i)
    | none =>
      let o := s.elem.opst
      let xs := s.operand w.sa (laneWidth (tyOf w))
      let ws := bankWords (s.elem.bank (accBank w))
      let at_ := fun j => (8 * o.cnt + j) % 256
      let sums := xs.mapIdx fun j x => (at_ j, accAdd w { s.rounding w (j % 8) with place := j % 8 + s.elem.phase0.toNat } ((ws[at_ j]?).getD 0) x)
      let ws' := sums.foldl (fun l q => l.set q.1 q.2.1) ws
      let st := sums.foldl (fun st q => st.or q.2.2) Status.none
      let t := (s.elem.head w.sa.toNat).any (·.taint)
      .next ((((s.consumeAll is 1).fired st.toBits (s.endsTile w 1)).onElem fun e => e.setBank (accBank w) (bankOf ws')).onOpst
        fun o => { o with cnt := (o.cnt + xs.length / 8) % accPositions w, any := true, taint := o.taint || t })

/-- The tokens of a release of ACC (R216): P of 8 lanes, or P / 2 of 16. -/
def accTokens (w : Eow) (outCode : Nat) : Nat := if laneWidth outCode = 16 then accPositions w / 2 else accPositions w

/-- Token q of a release of ACC, with the status of its roundings. -/
def State.accToken (s : State) (w : Eow) (q : Nat) : Token × Status :=
  let code := (vcFormat s.here.cfg.active s.cur.unit w.vco.toNat).getD 0
  let per := laneCount code
  let ws := ((bankWords (s.elem.bank (accBank w))).drop (q * per)).take per
  let outs := ws.mapIdx fun j x =>
    match floatFmt code with
    | some f => roundVal f (s.rounding w (q * per + j)) (decodeFloat fp32 x)
    | none => (x, Status.none)
  let last := q + 1 = accTokens w code
  (s.dataToken w (packLanes (laneWidth code) (outs.map (·.1)))
      { row := BitVec.ofNat 7 (if per = 16 then q else q / 2), e := if last then 1 else 0, taint := s.elem.opst.taint },
    outs.foldl (fun st x => st.or x.2) Status.none)

/-- One step of a release of ACC: the next token where the receivers have room; at the last the bank is cleared unless KEEP, the
pointer and ANY return to 0 and the release is done (R216). -/
def State.accRelease (s : State) (w : Eow) : Out :=
  let q := s.elem.opst.sector
  let n := accTokens w ((vcFormat s.here.cfg.active s.cur.unit w.vco.toNat).getD 0)
  s.whenRoom (needsOf (s.outs w 0) 1 ++ needsOf (s.outs w 1) 1) <|
    let r := s.accToken w q
    let u := ((s.emitOn w 0 [r.1]).emitOn w 1 [r.1]).onElem fun e => e.flag r.2.toBits
    if q + 1 < n then .next (u.onOpst fun o => { o with sector := q + 1 })
    else
      .next ((u.onElem fun e =>
        let e := if w.aux.getLsbD 4 then e
          else e.setBank (accBank w) (bankOf (updWords (bankWords (e.bank (accBank w))) 0 (8 * accPositions w) fun _ _ => 0))
        { e with flushing := true }).onOpst fun o => { o with sector := 0, cnt := 0, any := false, taint := false })

/-! ### AMAX (R217) -/

/-- The magnitude of a lane of AMAX. -/
def magnitude (code x : Nat) : Nat × Status :=
  match floatFmt code with
  | some ft => if (decodeFloat ft x).isNan then nanResult ft (decodeFloat ft x).signalling else (x % 2 ^ (ft.ew + ft.mw), Status.none)
  | none =>
    let v := intValue code x
    fit code true (v.natAbs : Int)

/-- The running maximum of a lane: a NaN stays until the release (R217). -/
def runningMax (code old x : Nat) : Nat × Status :=
  let m := magnitude code x
  match floatFmt code with
  | some ft =>
    if (decodeFloat ft old).isNan then (old, m.2)
    else if (decodeFloat ft m.1).isNan then (m.1, m.2)
    else (if old < m.1 then m.1 else old, m.2)
  | none => (if old < m.1 then m.1 else old, m.2)

/-- AMAX. -/
def execAmax (w : Eow) (s : State) : Out :=
  let is := inputsOf [w.sa]
  let lw := laneWidth (tyOf w)
  s.whenReady is 1 false <|
    match s.refusedInput is 1 (· == tyOf w) with
    | some (i, r, f) => .next (s.mismatch r f i)
    | none =>
      let o := s.elem.opst
      let rs := List.zipWith (runningMax (tyOf w)) (lanes o.lanes lw) (s.operand w.sa lw)
      let k := s.carried w is 1
      .next (((s.consumeAll is 1).fired (rs.foldl (fun st r => st.or r.2) Status.none).toBits (s.endsTile w 1)).onOpst fun o =>
        { o with lanes := packLanes lw (rs.map (·.1)), any := true, loop := true, row := k.row, eb := k.e, taint := o.taint || k.taint })

/-- The release of AMAX: one token, then the state returns to zero (R217). Before any token has been consumed the spec names no row and E
bits, and they are a free value (log entry 14). -/
def State.amaxRelease (s : State) (w : Eow) : Out :=
  let o := s.elem.opst
  s.whenRoom (needsOf (s.outs w 0) 1 ++ needsOf (s.outs w 1) 1) <|
    let t := s.dataToken w o.lanes (if o.loop then { row := o.row, e := o.eb, taint := o.taint } else s.openCarry o.taint)
    .next ((((s.emitOn w 0 [t]).emitOn w 1 [t]).onOpst fun o => { o with lanes := 0, any := false, taint := false }).onElem
      fun e => { e with flushing := true })

/-- QNT's scale token at a flush (R218). No firing completes it there: it takes the row, E bits and TAINT of the last firing (log
entry 57). -/
def State.qntRelease (s : State) (w : Eow) : Out :=
  let o := s.elem.opst
  s.whenRoom (needsOf (s.outs w 1) 1) <|
    let t := s.scaleToken w o.lanes { row := o.row, e := o.eb, taint := o.taint }
    .next ((s.emitOn w 1 [t]).onOpst fun o => { o with lanes := 0, cnt := 0, taint := false })

end Sys2Proof.Machine
end

