-- ==== Sys2Proof/Machine/Matrix.lean ====
section
/-! DEFINITION. Matrix mode: chains and partial sums, weight registers, accumulator banks, drains, and WLD, MROW, MDRN and MACC
(R242–R258, R398). -/

namespace Sys2Proof.Machine

/-! ### Control fields (R244–R246) -/

/-- REUSE, EK, WSEL, PDIR and ROLE of matrix control. -/
def mctlReuse (f : BitVec 16) : BitVec 8 := f.extractLsb' 7 8
/-- EK. -/
def mctlEk (f : BitVec 16) : Nat := (f.extractLsb' 5 2).toNat
/-- WSEL. -/
def mctlWsel (f : BitVec 16) : Bool := f.getLsbD 4
/-- PDIR. -/
def mctlPdir (f : BitVec 16) : Nat := (f.extractLsb' 2 2).toNat
/-- ROLE: 0 head, 1 middle, 2 tail, 3 head-and-tail. -/
def mctlRole (f : BitVec 16) : Nat := (f.extractLsb' 0 2).toNat
/-- KEEP of accumulate control. -/
def actlKeep (f : BitVec 16) : Bool := f.getLsbD 11
/-- TRIG. -/
def actlTrig (f : BitVec 16) : Nat := (f.extractLsb' 8 2).toNat
/-- ROWS, 1–16. -/
def actlRows (f : BitVec 16) : Nat := (f.extractLsb' 4 4).toNat + 1
/-- PP. -/
def actlPp (f : BitVec 16) : Bool := f.getLsbD 3
/-- BANK. -/
def actlBank (f : BitVec 16) : Bool := f.getLsbD 2
/-- MODE. -/
def actlMode (f : BitVec 16) : Nat := (f.extractLsb' 0 2).toNat

/-- Matrix, accumulate and drain-fusion controls of the element whose turn it is. -/
def State.mctl (s : State) : BitVec 16 := s.here.field s.cur.unit 0x38
/-- Accumulate control. -/
def State.actl (s : State) : BitVec 16 := s.here.field s.cur.unit 0x39
/-- Drain fusion. -/
def State.fuse (s : State) : BitVec 16 := s.here.field s.cur.unit 0x3A

/-- Whether a role has an accumulator bank: tail, or head-and-tail. -/
def isTail (role : Nat) : Bool := role == 2 || role == 3
/-- Whether a role takes no partial sum. -/
def isHead (role : Nat) : Bool := role == 0 || role == 3

/-- The neighbour of an element within its core in a direction. -/
def neighbourIn (ea dir : Nat) : Option Nat :=
  match dir with
  | 0 => if ea < 8 then none else some (ea - 8)
  | 1 => if ea % 8 = 7 then none else some (ea + 1)
  | 2 => if 56 ≤ ea then none else some (ea + 8)
  | _ => if ea % 8 = 0 then none else some (ea - 1)

/-! ### Weight registers (R247) -/

/-- A weight register's state, at pointer b. -/
def Elem.wstate (e : Elem) (b : Bool) : WState := if b then e.ws1 else e.ws0
/-- Sets a weight register's state. -/
def Elem.setWstate (e : Elem) (b : Bool) (w : WState) : Elem := if b then { e with ws1 := w } else { e with ws0 := w }
/-- A weight register. -/
def Elem.weights (e : Elem) (b : Bool) : BitVec 4096 := if b then e.w1 else e.w0
/-- Writes a weight register. -/
def Elem.setWeights (e : Elem) (b : Bool) (w : BitVec 4096) : Elem := if b then { e with w1 := w } else { e with w0 := w }

/-- Row k of a weight register: 16 BF16 lanes. -/
def weightRow (w : BitVec 4096) (k : Nat) : List Nat := (List.range 16).map fun j => w.toNat / 2 ^ (256 * k + 16 * j) % 65536

/-- Puts a row of 256 bits in a weight register. -/
def putRow (w : BitVec 4096) (k : Nat) (row : Payload) : BitVec 4096 :=
  (w &&& ~~~(((BitVec.allOnes 256).setWidth 4096) <<< (256 * k))) ||| ((row.setWidth 4096) <<< (256 * k))

/-- A block has been written: the register is FULL or STAT, and LDP turns (R247). -/
def Elem.loaded (e : Elem) (reuse : BitVec 8) : Elem :=
  { e.setWstate e.ldp (if reuse = 0 then .stat else .full reuse) with ldp := !e.ldp }

/-- A loader keeps a weight row (R247, R249). -/
def Elem.keepRow (e : Elem) (row : Payload) (reuse : BitVec 8) (fwd : Nat) : Elem :=
  let e := e.setWeights e.ldp (putRow (e.weights e.ldp) e.wrow row)
  if e.wrow = 15 then { e.loaded reuse with wrow := 0, wfwd := 16 * fwd } else { e with wrow := e.wrow + 1 }

/-- A use of a weight register ends a tile (R247). -/
def Elem.useWeights (e : Elem) (ended : Bool) : Elem :=
  match e.wstate e.usp with
  | .full u => if !ended then e else if u = 1 then { e.setWstate e.usp .empty with usp := !e.usp } else e.setWstate e.usp (.full (u - 1))
  | _ => e

/-- A token forwarded as BF16 (R248). -/
def State.forwardBf16 (s : State) (w : Eow) (t : Token) : Token := { s.forward w t with tag := dataTag 1 true t.row }

/-- A loader takes the weight row at input i: it keeps it, or forwards it on output o (R247, R249); `after` is what else happens. -/
def State.loadRow (s : State) (w : Eow) (i : BitVec 3) (o : Nat) (after : State → State) : Out :=
  let e := s.elem
  match firstRefusal s.here.cfg.active s.cur.unit (· == 1) (e.group i.toNat 1) with
  | some (r, f) => .next (s.mismatch r f i.toNat)
  | none =>
    let t := s.headAt i
    if 0 < e.wfwd then
      s.whenRoom (needsOf (s.outs w o) 1) <|
        .next (after (((s.consume i.toNat 1).emitOn w o [s.forwardBf16 w t]).onElem fun e => { e with wfwd := e.wfwd - 1 }))
    else if e.wstate e.ldp ≠ .empty then s.blockedHere
    else .next (after ((s.consume i.toNat 1).onElem fun e => e.keepRow t.payload (mctlReuse s.mctl) (w.aux.toNat % 8)))

/-- WLD (R256): a weight row at SA, or a block from an accumulator bank. -/
def execWld (w : Eow) (s : State) : Out :=
  if w.sa.toNat < 4 then
    s.whenReady [w.sa.toNat] 1 false (s.loadRow w w.sa 0 fun u => u.fired 0 (s.headAt w.sa).endOfTile)
  else
    let e := s.elem
    let bank := w.aux.getLsbD 4
    s.whenReady [w.sb.toNat] 1 false <|
      if e.wstate e.ldp ≠ .empty || (if bank then e.bs1 else e.bs0) = .draining then s.blockedHere
      else
        s.whenRoom (s.bothOuts w) <|
          let ws := bankWords (e.bank bank)
          let out := (List.range 256).map fun i =>
            let k := i / 16
            let j := i % 16
            let v := (ws[if w.aux.getLsbD 3 then 16 * j + k else i]?).getD 0
            roundVal bf16 (s.rounding w j) (decodeFloat fp32 v)
          let st := out.foldl (fun a r => a.or r.2) Status.none
          let t := s.headAt w.sb
          let block := BitVec.ofNat 4096 (packNat 16 (out.map (·.1)))
          .next ((((s.consume w.sb.toNat 1).fired st.toBits false).emitBoth w (s.forward w t)).onElem fun e =>
            (e.setWeights e.ldp block).loaded (mctlReuse s.mctl))

/-- A stray at an input: the first of a configuration is recorded (R179). -/
def Elem.strayAt (e : Elem) (i : Nat) : Elem := if e.stray.isNone then { e with stray := some (BitVec.ofNat 2 i) } else e

/-- Whether a DRAIN carries the index of the active configuration (R177). -/
def State.drainFits (s : State) (t : Token) : Bool := t.payload.extractLsb' 0 16 == s.here.cfg.idx

/-- A DRAIN at the head of input i: one of the active index is consumed and closes the input, and tokens that stand behind it there are
strays; one of another index is a stray itself, which keeps its slot, out of the way of what follows it, and leaves CLOSED as it is
(R177, R179; log entry 57). -/
def State.acceptDrain (s : State) (i : Nat) (t : Token) : State :=
  if !s.drainFits t then s.onElem fun e => (e.onPort i fun p => { p with toks := p.toks.drop 1, pend := p.pend + 1 }).strayAt i
  else (s.consume i 1).onElem fun e =>
    let e := e.onPort i fun p => { p with closed := true }
    if (e.port i).toks.isEmpty then e else e.strayAt i

/-- A weight loader or a drain takes its step beside the firing: what it waits for in allocation stands apart from what the firing waits
for (R251). -/
def State.beside (s : State) (get : Elem → Option Needs) (put : Elem → Option Needs → Elem) (run : State → Out) : Out :=
  match run (s.onElem fun e => { e with blocked := get e }) with
  | .next u => .next (u.onElem fun e => { put e e.blocked with blocked := s.elem.blocked })
  | r => r

/-- WEIGHT_LOADER_ROW: the SC loader of the MROW at the turn's element (R177, R249). -/
def execWeightLoaderRow (s : State) : Out :=
  let p := s.here.cfg.active
  let w := eowOf (eowField p s.cur.unit)
  let e := s.elem
  if opcodeOf p s.cur.unit ≠ 0x91 || !enabled p s.cur.unit || e.halted || e.passed || 4 ≤ w.sc.toNat ||
      (e.port w.sc.toNat).closed then .next s
  else
    s.beside (·.blockedLoad) (fun e b => { e with blockedLoad := b }) fun s =>
      match e.head w.sc.toNat with
      | none => .next s
      | some t =>
        if t.kind = kindMark then .next (s.consume w.sc.toNat 1)
        else if t.kind = kindDrain then .next (s.acceptDrain w.sc.toNat t)
        else s.loadRow w w.sc 1 id

/-! ### Accumulator banks (R250) -/

/-- A bank's state. -/
def Elem.bstate (e : Elem) (b : Bool) : BState := if b then e.bs1 else e.bs0
/-- Sets a bank's state. -/
def Elem.setBstate (e : Elem) (b : Bool) (x : BState) : Elem := if b then { e with bs1 := x } else { e with bs0 := x }
/-- TAINT of what a bank holds. -/
def Elem.btaint (e : Elem) (b : Bool) : Bool := if b then e.at1 else e.at0
/-- Sets it. -/
def Elem.setBtaint (e : Elem) (b x : Bool) : Elem := if b then { e with at1 := x } else { e with at0 := x }

/-- A drain of bank b is triggered: it is DRAINING, and with PP the element turns to the other bank (R250, R254). -/
def Elem.triggerDrain (e : Elem) (b pp : Bool) : Elem :=
  { e.setBstate b .draining with
      drains := e.drains ++ [{ bank := b, row := 0, half := false, started := false, org0 := 0, org1 := 0, seed := 0 }],
      bp := if pp then !e.bp else e.bp }

/-- An accumulating firing: its write on the way to the bank, and its trigger (R250). -/
def Elem.accumulate (e : Elem) (actl : BitVec 16) (row : BitVec 4) (vals : BitVec 512) (taint ended : Bool) : Elem :=
  let b := e.bp
  let n := e.accs + 1
  let hit := (actlTrig actl == 1 && ended) || (actlTrig actl == 3 && n == actlRows actl)
  let e := { e.setBstate b .filling with pending := e.pending ++ [⟨b, row, vals, taint⟩],
                                         accs := if n = actlRows actl then 0 else n }
  if hit then e.triggerDrain b (actlPp actl) else e

/-- 16 FP32 values as 512 bits. -/
def rowBits (xs : List Nat) : BitVec 512 := BitVec.ofNat 512 (packNat 32 xs)
/-- Their list. -/
def rowWords (v : BitVec 512) : List Nat := (List.range 16).map fun j => v.toNat / 2 ^ (32 * j) % 2 ^ 32

/-- The new word of a bank under MODE (R250). A NaN among the operands of an addition sets NV as R65 has it; OVERWRITE keeps the exact
value, and a signalling NaN sets NV (R57). -/
def accumulateWord (mode k1 old x : Nat) : Nat × Status :=
  let a := decodeFloat fp32 old
  let k := decodeFloat fp32 k1
  let v := decodeFloat fp32 x
  match mode with
  | 1 => let r := fadd fp32 .rne a v; (r.1, r.2.or (invalid (a.isNan || v.isNan)))
  | 2 => let r := ffma fp32 .rne a k v; (r.1, r.2.or (invalid (a.isNan || k.isNan || v.isNan)))
  | _ => (x, invalid v.signalling)

/-- BANK_ACCUMULATE_WRITE: the oldest accumulation of the turn's element lands in its bank (R249, R250). -/
def execBankAccumulateWrite (s : State) : Out :=
  match s.elem.pending with
  | [] => .next s
  | p :: rest =>
    let ws := bankWords (s.elem.bank p.bank)
    let k1 := (constantOf s.here.cfg.active s.cur.unit 1).toNat
    let new := (rowWords p.vals).mapIdx fun j x => accumulateWord (actlMode s.actl) k1 ((ws[16 * p.row.toNat + j]?).getD 0) x
    let st := new.foldl (fun a r => a.or r.2) Status.none
    .next (s.onElem fun e =>
      let e := e.setBank p.bank (bankOf (updWords ws (16 * p.row.toNat) 16 fun _ j => ((new[j]?).getD (0, Status.none)).1))
      { (e.setBtaint p.bank (e.btaint p.bank || p.taint)).flag st.toBits with pending := rest })

/-! ### MROW (R249, R251) -/

/-- The sums of a firing with a weight block and an incoming partial sum (R65). -/
def rowSums (x : Payload) (w : BitVec 4096) (p : List Nat) : List (Nat × Status) :=
  let xs := (lanes x 16).map (decodeFloat bf16)
  let rows := (List.range 16).map fun k => (weightRow w k).map (decodeFloat bf16)
  (List.range 16).map fun j =>
    let pj := decodeFloat fp32 ((p[j]?).getD 0)
    fsum fp32 .rne ((pj, pj.isNan) :: (List.range 16).map fun k =>
      sumTerm ((xs[k]?).getD (.fin (.zero false))) ((((rows[k]?).getD [])[j]?).getD (.fin (.zero false))))

/-- MROW. -/
def execMrow (w : Eow) (s : State) : Out :=
  let role := mctlRole s.mctl
  let e := s.elem
  let sa := w.sa.toNat
  let next := neighbourIn s.cur.unit (mctlPdir s.mctl)
  s.whenReady [sa] 1 false <|
    match firstRefusal s.here.cfg.active s.cur.unit (· == 1) (e.group sa 1) with
    | some (r, f) => .next (s.mismatch r f sa)
    | none =>
      match isHead role, e.psums.head? with
      | false, none => s.starvedHere
      | _, first =>
        let x := s.headAt w.sa
        let p := if isHead role then none else first
        if p.any fun q => q.row != x.row then .next (s.skew 1)
        else if e.wstate e.usp = .empty then s.waitHere
        else if isTail role && e.bstate e.bp = .draining then s.blockedHere
        else if !isTail role && next.any (fun n => 2 ≤ (s.here.elem n).psums.length) then s.blockedHere
        else
          s.whenRoom (needsOf (s.outs w 0) 1) <|
            let sums := rowSums x.payload (e.weights e.usp) ((p.map fun q => rowWords q.vals).getD (List.replicate 16 0))
            let st := sums.foldl (fun a r => a.or r.2) Status.none
            let vals := rowBits (sums.map (·.1))
            let taint := x.taint || p.any (·.taint)
            let ended := x.e.getLsbD (mctlEk s.mctl)
            let u := ((s.consume sa 1).fired st.toBits ended).emitOn w 0 [s.forwardBf16 w x]
            let u := u.onElem fun e =>
              let e := { e.useWeights ended with psums := if isHead role then e.psums else e.psums.drop 1 }
              if isTail role then e.accumulate s.actl (BitVec.ofNat 4 x.row.toNat) vals taint ended else e
            .next (match isTail role, next with
              | false, some n => u.on fun c => c.onElem n fun e => { e with psums := e.psums ++ [⟨vals, x.row, taint⟩] }
              | _, _ => u)

/-! ### MDRN and MACC (R254, R255) -/

/-- MDRN. -/
def execMdrn (w : Eow) (s : State) : Out :=
  s.takes [(w.sa.toNat, .data)] false [] <|
    let b := s.elem.bp
    if s.elem.bstate b = .draining then s.blockedHere
    else .next ((s.moved [w.sa] (s.headAt w.sa).endOfTile).onElem fun e => e.triggerDrain b (actlPp s.actl))

/-- MACC: a pair of tokens as one row; only differing row tags are a skew of its own, and E0 is read from the second (R255). -/
def execMacc (w : Eow) (s : State) : Out :=
  let sa := w.sa.toNat
  let e := s.elem
  s.whenReady [sa] 2 false (tiles := false) <|
    match firstRefusal s.here.cfg.active s.cur.unit (· == 0) (e.group sa 2), e.group sa 2 with
    | some (r, f), _ => .next (s.mismatch r f sa)
    | none, [a, b] =>
      if a.row ≠ b.row then .next (s.skew (maskOf [sa]))
      else if e.bstate e.bp = .draining then s.blockedHere
      else
        .next (((s.consume sa 2).fired 0 b.endOfTile).onElem fun e =>
          e.accumulate s.actl (BitVec.ofNat 4 a.row.toNat) (rowBits (lanes a.payload 32 ++ lanes b.payload 32)) (a.taint || b.taint)
            b.endOfTile)
    | none, _ => .next s

/-! ### Drains (R252, R253, R398) -/

/-- dmask of row R and column C (R253). -/
def dropMask (k0 seedLo seedHi r c : BitVec 32) : Bool :=
  let h := mix32 (c ^^^ mix32 (r ^^^ mix32 (((k0.extractLsb' 24 8).setWidth 32) ^^^ mix32 (seedLo ^^^ mix32 seedHi))))
  decide (h.extractLsb' 8 24 ≤ k0.extractLsb' 0 24)

/-- The outputs that a drain writes: O1 of MROW, every output of MDRN and MACC (R249, R254, R255). -/
def drainOuts (op : Nat) : List Nat := if op = 0x91 then [1] else [0, 1]

/-- A drain is complete: KEEP applies, and the bank is FREE (R250, R252). -/
def Elem.endDrain (e : Elem) (actl : BitVec 16) (j : DrainJob) : Elem :=
  let e := if actlKeep actl then e
    else e.setBank j.bank (bankOf (updWords (bankWords (e.bank j.bank)) 0 (16 * actlRows actl) fun _ _ => 0))
  { (e.setBstate j.bank .free).setBtaint j.bank false with drains := e.drains.drop 1 }

/-- The lanes of one token of a drain: row r of the bank from column j0 on, with the residual's lanes (R252). -/
def State.drainLanes (s : State) (w : Eow) (j : DrainJob) (code j0 : Nat) (res : Option (List FVal)) : List (Nat × Status) :=
  let fuse := s.fuse
  let p := s.here.cfg.active
  let k0 := constantOf p s.cur.unit 0
  let ws := bankWords (s.elem.bank j.bank)
  let sc := (((fieldOf p s.cur.unit (0x30 + (fuse.extractLsb' 3 3).toNat)).extractLsb' 0 8).toNat : Int)
  let scaled := fuse.getLsbD 2
  let f := (floatFmt code).getD fp32
  (List.range (laneCount code)).map fun i =>
    let c := j0 + i
    let a := decodeFloat fp32 ((ws[16 * j.row + c]?).getD 0)
    let bad := scaled && sc == 255
    let v := if bad then FVal.nan false else if scaled then a.scale (sc - 127) else a
    let col := j.org1 + BitVec.ofNat 32 (16 * (fuse.extractLsb' 6 8).toNat + c)
    let keep := !fuse.getLsbD 1 ||
      dropMask k0 (j.seed.setWidth 32) (j.seed.extractLsb' 32 32) (j.org0 + s.elem.dr) col
    let v := if keep then v else .fin (.zero false)
    let r : Rounding := { s.rounding w c with place := c + s.elem.phase0.toNat }
    let q := match res with
      | none => roundVal f r v
      | some xs => fadd f r v ((xs[i]?).getD (.fin (.zero false)))
    (q.1, q.2.or (invalid bad))

/-- One token of a started drain, with the residual token it consumes, if any. -/
def State.writeDrained (s : State) (w : Eow) (op : Nat) (j : DrainJob) (res : Option Token) (resCode : Nat) : Out :=
  let code := (vcFormat s.here.cfg.active s.cur.unit w.vco.toNat).getD 0
  let wide := laneCount code = 8
  let rows := actlRows s.actl
  let rowDone := !wide || j.half
  let last := j.row + 1 = rows && rowDone
  let outs := drainOuts op
  s.whenRoom (outs.flatMap fun o => needsOf (s.outs w o) 1) <|
    let vals := res.map fun t => (lanes t.payload (laneWidth resCode)).map fun b => decodeFloat ((floatFmt resCode).getD fp32) b
    let ls := s.drainLanes w j code (if j.half then 8 else 0) vals
    let st := ls.foldl (fun a r => a.or r.2) Status.none
    let taint := s.elem.btaint j.bank || res.any (·.taint)
    let t := s.dataToken w (packLanes (laneWidth code) (ls.map (·.1)))
      { row := BitVec.ofNat 7 j.row, e := if last then 1 else 0, taint := taint }
    let u := if res.isSome then s.consume w.sb.toNat 1 else s
    let u := outs.foldl (fun u o => u.emitOn w o [t]) u
    .next (u.onElem fun e =>
      let e := (e.flag st.toBits).setBtaint j.bank taint
      let e := if rowDone then { e with dr := e.dr + 1 } else e
      if last then e.endDrain s.actl j
      else { e with drains := { j with row := if rowDone then j.row + 1 else j.row, half := wide && !j.half } :: e.drains.drop 1 })

/-- Whether a port of an element is the residual input of its drains (R246, R248). -/
def Core.residualPort (c : Core) (ea i : Nat) : Bool :=
  let p := c.cfg.active
  let op := opcodeOf p ea
  let drains := (op == 0x91 && isTail (mctlRole (c.field ea 0x38))) || op == 0x92 || op == 0x93
  enabled p ea && drains && (c.field ea 0x3A).getLsbD 0 && (eowOf (eowField p ea)).sb.toNat == i

/-- What refuses a residual token at an element: its format must be FP32, BF16 or FP16 with the lane count of the output (R248). -/
def residualRefusal (p : Plane) (ea : Nat) (t : Token) : Option (Nat × Nat) :=
  let code := (vcFormat p ea (eowOf (eowField p ea)).vco.toNat).getD 0
  refusal p ea (fun f => decide (f < 3) && laneCount f == laneCount code) t

/-- A token has reached a port: a residual that its element does not accept raises FMT_MISMATCH on arrival (R248). -/
def State.residualArrives (s : State) (core ea i : Nat) (t : Token) : State :=
  let c := s.core core
  if c.residualPort ea i && t.isWork && !(c.elem ea).halted then
    match residualRefusal c.cfg.active ea t with
    | some (r, f) => (s.halt core ea).raise core 0x25 1 ea (mismatchTval r f i ea)
    | none => s
  else s

/-- A step of the oldest drain of the element whose turn it is: it starts once the writes into its bank have landed, and then writes one
token a step (R252); an element that enables no output writes none (R398). -/
def State.drainStep (s : State) : Out :=
  let p := s.here.cfg.active
  let w := eowOf (eowField p s.cur.unit)
  let op := opcodeOf p s.cur.unit
  let e := s.elem
  if e.halted then .next s
  else
    match e.drains with
    | [] => .next s
    | j :: _ =>
      if !j.started then
        if e.pending.any fun q => q.bank == j.bank then .next s
        else if w.oe = 0 then
          .next (s.onElem fun e => { e.endDrain s.actl j with dr := e.dr + BitVec.ofNat 32 (actlRows s.actl) })
        else
          let c := s.here
          let j := { j with started := true, org0 := c.org[0].setWidth 32, org1 := c.org[1].setWidth 32,
                            seed := c.seedHi ++ c.seedLo }
          .next (s.onElem fun e => { e with drains := j :: e.drains.drop 1 })
      else if !s.fuse.getLsbD 0 then s.writeDrained w op j none 0
      else if e.barred w.sb.toNat then .next (s.skew (maskOf [w.sb.toNat]))
      else
        match e.head w.sb.toNat with
        | none => s.starvedHere
        | some t =>
          match residualRefusal p s.cur.unit t with
          | some (r, f) => .next (s.mismatch r f w.sb.toNat)
          | none => s.writeDrained w op j (some t) ((formatAt p s.cur.unit t).getD 0)

/-- MATRIX_DRAIN: a step of the drain, which waits for output slots beside the firing (R251, R252). -/
def execMatrixDrain (s : State) : Out :=
  s.beside (·.blockedDrain) (fun e b => { e with blockedDrain := b }) State.drainStep

/-- What a matrix element has to release before it forwards a MARK or passes DRAIN (R257): a step of it, or none. -/
def State.matrixRelease (s : State) (op : Nat) (flush : Bool) : Option Out :=
  let e := s.elem
  let owns := op == 0x93 || (op == 0x91 && isTail (mctlRole s.mctl))
  let due := owns && (flush || actlTrig s.actl == 2)
  if due && e.bs0 = .filling then some (.next (s.onElem fun e => e.triggerDrain false (actlPp s.actl && !e.bp)))
  else if due && e.bs1 = .filling then some (.next (s.onElem fun e => e.triggerDrain true (actlPp s.actl && e.bp)))
  else if (owns || op == 0x92) && !(e.drains.isEmpty && e.pending.isEmpty) then some (.next s)
  else none

end Sys2Proof.Machine
end

