-- ==== Sys2Proof/Machine/Router.lean ====
section
/-! DEFINITION. The stage router: SENT and SRET, admission, draws, returns, exits, side stores, logs and drains, and the RT instructions
(R233, R287–R309). -/

namespace Sys2Proof.Machine

/-! ### Descriptors (R288, R290) -/

/-- A field of stage-set descriptor S of the active plane. -/
def Core.setField (c : Core) (set fn : Nat) : BitVec 16 := c.field (0x50 + set) fn
/-- NST; 0 marks a set unused. -/
def Core.nst (c : Core) (set : Nat) : Nat := ((c.setField set 0).extractLsb' 0 4).toNat
/-- MODE. -/
def Core.setMode (c : Core) (set : Nat) : BitVec 2 := (c.setField set 0).extractLsb' 4 2
/-- The window length W. -/
def Core.window (c : Core) (set : Nat) : Nat := 2 ^ ((c.setField set 0).extractLsb' 6 4).toNat
/-- ORD; 1 for every set of a deterministic launch (R425). -/
def Core.ordered (c : Core) (set : Nat) : Bool := c.router.det || (c.setField set 0).getLsbD 10
/-- AM: FIELD. -/
def Core.byField (c : Core) (set : Nat) : Bool := (c.setField set 0).getLsbD 11
/-- AF. -/
def Core.addressField (c : Core) (set : Nat) : Nat := ((c.setField set 0).extractLsb' 12 3).toNat
/-- CAP. -/
def Core.capacity (c : Core) (set : Nat) : Nat := ((c.setField set 1).extractLsb' 0 7).toNat
/-- HFLD. -/
def Core.handleFields (c : Core) (set : Nat) : List Nat := (List.range 7).filter fun f => (c.setField set 1).getLsbD (8 + f)
/-- A port that EXIT (fn 2) or ENTRY k (fn 8 + k) names. -/
def Core.setPort (c : Core) (core set fn : Nat) : Dest :=
  let f := c.setField set fn
  .port core (f.extractLsb' 0 6).toNat (f.extractLsb' 6 2).toNat

/-- The STAGE field of an element: SET, INDEX, COST and SIDE. -/
def Core.stageOf (c : Core) (ea : Nat) : Nat × Nat × Nat × Bool :=
  let f := c.field ea 0x3C
  ((f.extractLsb' 0 3).toNat, (f.extractLsb' 3 3).toNat, (f.extractLsb' 6 4).toNat, f.getLsbD 10)

/-- A member of stage k of a set: its cost and SIDE. -/
def Core.member (c : Core) (set k : Nat) : Option (Nat × Bool) :=
  (List.range 64).findSome? fun ea =>
    let m := c.stageOf ea
    if enabled c.cfg.active ea && m.1 == set && m.2.1 == k && m.2.2.1 != 0 then some (m.2.2.1, m.2.2.2) else none

/-- The SENT elements of a set, or of every set. -/
def Core.senders (c : Core) (set : Option Nat) : List Nat :=
  (List.range 64).filter fun ea =>
    enabled c.cfg.active ea && opcodeOf c.cfg.active ea == 0x73 &&
      (match set with
        | some k => ((eowField c.cfg.active ea).extractLsb' 16 3).toNat == k
        | none => true)

/-- Whether every SENT of a set has passed DRAIN; with none, once a drain has begun in the region (R300). -/
def Core.sendersDone (c : Core) (set : Option Nat) : Bool :=
  match c.senders set with
  | [] => c.cfg.draining || c.cfg.noticed
  | es => es.all fun ea => (c.elem ea).passed || (c.elem ea).sentDrain

/-! ### Sets and windows (R291, R294) -/

/-- A stage set's state. -/
def Core.stageSet (c : Core) (k : Nat) : StageSet := if h : k < 8 then c.router.sets[k] else StageSet.reset
/-- Changes it. -/
def Core.onSet (c : Core) (k : Nat) (f : StageSet → StageSet) : Core :=
  if h : k < 8 then { c with router := { c.router with sets := c.router.sets.set k (f c.router.sets[k]) } } else c

/-- The records in a set. -/
def Core.records (c : Core) (set : Nat) : List RecordEntry := c.router.entries.filter fun e => e.set.toNat == set

/-- The number of windows in the ring. -/
def Core.windows (c : Core) (set : Nat) : Nat := 2 ^ 20 / c.window set

/-- The window index m of a SEQ. -/
def Core.windowOf (c : Core) (set : Nat) (seq : BitVec 20) : Nat := (seq - (c.stageSet set).seq0).toNat / c.window set

/-- d, the place of a SEQ's window ahead of o on the ring. -/
def Core.ahead (c : Core) (set : Nat) (seq : BitVec 20) : Nat :=
  (c.windowOf set seq + c.windows set - (c.stageSet set).o) % c.windows set

/-- P_k formed at a window's close (R294). -/
def passRate (ins passes : Nat) : Nat := if ins = 0 then 128 else 256 * passes / ins

/-- Window o closes where all its values have left, or, with every SENT drained, its last record (R294). -/
def Core.closeWindow (c : Core) (set : Nat) : Core :=
  let t := c.stageSet set
  let inO (q : BitVec 20) : Bool := c.ahead set q == 0
  let full := decide (c.window set ≤ (t.gone.filter inO).length)
  let ended := c.sendersDone (some set) && !(t.gone.filter inO).isEmpty &&
    !(c.records set).any fun e => inO (recordSeq e.tok.payload)
  if full || ended then
    c.onSet set fun t =>
      { t with o := (t.o + 1) % c.windows set, p2 := t.p1,
               p1 := Vector.ofFn fun k => passRate t.wins[0].ins[k] t.wins[0].passes[k],
               wins := #v[t.wins[1], Window.reset], gone := t.gone.filter fun q => !inO q }
  else c

/-- Advances NEXT past the values that have left (R297). -/
def advanceNext (gone : List (BitVec 20)) : Nat → BitVec 20 → BitVec 20
  | 0, n => n
  | fuel + 1, n => if gone.contains n then advanceNext gone fuel (n + 1) else n

/-- A value leaves its set (R291, R294, R297). -/
def Core.leaves (c : Core) (set : Nat) (seq : BitVec 20) : Core :=
  let c := c.onSet set fun t =>
    let gone := seq :: t.gone
    { t with gone := gone, next := if c.ordered set then advanceNext gone gone.length t.next else t.next }
  (c.closeWindow set).closeWindow set

/-- Removes the entry of a record. -/
def Core.dropEntry (c : Core) (set : Nat) (seq : BitVec 20) : Core :=
  { c with router := { c.router with entries := c.router.entries.filter fun e =>
      !(e.set.toNat == set && recordSeq e.tok.payload == seq) } }

/-- The handles in the handle fields of a record are abandoned (R42, R296). -/
def State.abandonFields (s : State) (core set : Nat) (p : Payload) : State :=
  ((s.core core).handleFields set).foldl (fun s f =>
    let h := p.extractLsb' (32 * f) 32
    if h = 0 then s else s.autoAbandon core h) s

/-- The slot that a record has taken in the EXIT port of its set, if it has, is free again. -/
def State.giveExitSlot (s : State) (core set : Nat) (seq : BitVec 20) : State :=
  let c := s.core core
  if (c.records set).any fun e => e.slotted && recordSeq e.tok.payload == seq then
    s.onPort (c.setPort core set 2) fun p => { p with pend := p.pend - 1 }
  else s

/-- A record of a set is dropped (R296). -/
def State.dropRecord (s : State) (core : Nat) (set : Nat) (p : Payload) : State :=
  ((s.abandonFields core set p).giveExitSlot core set (recordSeq p)).onCore core fun c =>
    ((c.dropEntry set (recordSeq p)).onSet set fun t => { t with drops := t.drops + 1 }).leaves set (recordSeq p)

/-- The next stamp of readiness. -/
def Core.stampNext (c : Core) : Core := { c with router := { c.router with stamp := c.router.stamp + 1 } }

/-! ### SENT and SRET (R233, R291) -/

/-- What admission finds: granted, waiting, or out of order. -/
inductive Admission where
  | granted
  | waits
  | refused
  deriving DecidableEq, Repr

/-- The conditions of R291 for a record. -/
def Core.admission (c : Core) (set : Nat) (seq : BitVec 20) : Admission :=
  let d := c.ahead set seq
  if c.router.held then .waits
  else if 2 ^ 20 / (2 * c.window set) ≤ d || (c.records set).any fun e => recordSeq e.tok.payload == seq then .refused
  else if c.capacity set ≤ (c.records set).length || 1 < d then .waits
  else if c.ordered set && c.capacity set ≤ (seq - (c.stageSet set).next).toNat then .waits
  else .granted

/-- A record takes an entry of its set (R291). -/
def Core.addRecord (c : Core) (set : Nat) (t : Token) : Core :=
  let e : RecordEntry :=
    { set := BitVec.ofNat 3 set, tok := t, out := none, since := c.router.stamp, sides := [], complete := false, releasing := none, slotted := false,
      logAt := none, expect := none }
  let c := { c with router := { c.router with entries := c.router.entries ++ [e] } }
  (c.onSet set fun q => { q with admissions := q.admissions + 1 }).stampNext

/-- SENT (R233, R291). -/
def execSent (w : Eow) (s : State) : Out :=
  s.takes [(w.sa.toNat, .record)] false [] <|
    let set := w.aux.toNat % 8
    let t := s.headAt w.sa
    let seq := recordSeq t.payload
    match s.here.admission set seq with
    | .waits => s.blockedHere
    | .refused =>
      let u := (s.consume w.sa.toNat 1).abandonFields s.cur.core set t.payload
      .next (u.elementFault 0x52 (BitVec.ofNat 64 (seq.toNat + set * 2 ^ 20)))
    | .granted =>
      let p := recordFrom 0 (BitVec.ofNat 3 set) false seq (recordFields t.payload)
      .next ((s.moved [w.sa] false).on fun c => c.addRecord set { t with payload := p, tag := 0, round := 0, e := 0 })

/-- SRET (R233). -/
def execSret (w : Eow) (s : State) : Out :=
  let bound := w.sb.toNat < 4
  s.takes ((w.sa.toNat, .record) :: (if bound then [(w.sb.toNat, .data)] else [])) false [] <|
    let t := s.headAt w.sa
    let m := s.here.stageOf s.cur.unit
    let found := recordSet t.payload
    let done := recordDone t.payload
    let seq := recordSeq t.payload
    let taken := s.moved (w.sa :: (if bound then [w.sb] else [])) false
    if found.toNat ≠ m.1 || done.getLsbD m.2.1 then
      .next (taken.elementFault 0x50 (BitVec.ofNat 64 (seq.toNat + found.toNat * 2 ^ 20)))
    else if 4 ≤ (s.here.stageSet m.1).rtq.length then s.blockedHere
    else
      let pass := !bound || (s.headAt w.sb).isTrue
      let p := recordFrom (done ||| BitVec.ofNat 8 (2 ^ m.2.1)) found pass seq (recordFields t.payload)
      let taint := t.taint || (bound && (s.headAt w.sb).taint)
      .next (taken.on fun c => c.onSet m.1 fun q => { q with rtq := q.rtq ++ [{ t with payload := p, taint := taint }] })

/-- ROUTER_ADMISSION: the waiting SENT at the turn's element is granted an entry, where it now may be (R291). -/
def execRouterAdmission (s : State) : Out :=
  let p := s.here.cfg.active
  let e := s.elem
  if enabled p s.cur.unit && opcodeOf p s.cur.unit = 0x73 && !e.halted && !e.passed && !e.sentDrain then
    execSent (eowOf (eowField p s.cur.unit)) s
  else .next s

/-! ### Draws (R292–R295) -/

/-- Whether a record is ready to be drawn. -/
def Core.recordReady (c : Core) (e : RecordEntry) : Bool :=
  e.out.isNone && !e.complete && !c.router.held

/-- The record that has been ready longest. -/
def Core.oldestReady (c : Core) : Option RecordEntry :=
  (c.router.entries.filter c.recordReady).foldl (fun b e =>
    match b with
    | none => some e
    | some x => if e.since < x.since then some e else some x) none

/-- The stages that remain for a record. -/
def Core.remaining (c : Core) (e : RecordEntry) : List Nat :=
  (List.range (c.nst e.set.toNat)).filter fun k => !(recordDone e.tok.payload).getLsbD k

/-- step: the number of DONE bits set. -/
def stepOf (p : Payload) : Nat := ((List.range 8).filter fun k => (recordDone p).getLsbD k).length

/-- P of a stage for a draw of a record (R294). -/
def Core.rateFor (c : Core) (e : RecordEntry) (k : Nat) : Nat :=
  let t := c.stageSet e.set.toNat
  let at_ (v : Vector Nat 8) : Nat := if h : k < 8 then v[k] else 128
  if t.lmode = 2 then at_ t.p1
  else if c.ahead e.set.toNat (recordSeq e.tok.payload) = 0 then at_ t.p2 else at_ t.p1

/-- t_k (R292). -/
def State.tickets (s : State) (core : Nat) (e : RecordEntry) (k : Nat) : Nat :=
  let c := s.core core
  let set := e.set.toNat
  let cost := ((c.member set k).map (·.1)).getD 1
  let t := (256 - c.rateFor e k) * 64 / cost + 1
  if (c.stageSet set).lmode = 2 then
    let q := (s.portAt (c.setPort core set (8 + k))).used
    max (t / 2 ^ (min (q / 2) 7)) 1
  else t

/-- The first stage whose cumulative tickets exceed r. -/
def pickStage : List (Nat × Nat) → Nat → Nat
  | [], _ => 0
  | [(k, _)], _ => k
  | (k, t) :: rest, r => if r < t then k else pickStage rest (r - t)

/-- The stage that a draw chooses (R293). -/
def State.drawStage (s : State) (core : Nat) (e : RecordEntry) : Nat :=
  let c := s.core core
  let rem := c.remaining e
  let t := c.stageSet e.set.toNat
  if t.lmode = 0 then (rem.head?).getD 0
  else
    let ts := rem.map fun k => (k, s.tickets core e k)
    let total := ts.foldl (fun a x => a + x.2) 0
    let seq := recordSeq e.tok.payload
    let x := (t.seed.toNat + (seq.toNat * 8 + stepOf e.tok.payload + 1) * 0x9E3779B9) % 2 ^ 32
    pickStage ts (x / 2 ^ 16 * total / 2 ^ 16)

/-- Changes the entry of a record. -/
def Core.onEntry (c : Core) (set : Nat) (seq : BitVec 20) (f : RecordEntry → RecordEntry) : Core :=
  { c with router := { c.router with entries := c.router.entries.map fun e =>
      if e.set.toNat == set && recordSeq e.tok.payload == seq then f e else e } }

/-- Goes on where every receiver has room, else waits. -/
def State.ifRoom (s : State) (ns : Needs) (body : Out) : Out := if s.roomFor ns then body else .next s

/-- Dispatches a record to a stage where its ENTRY port has room (R293). -/
def State.dispatch (s : State) (core : Nat) (e : RecordEntry) (k : Nat) (logAt : Option Nat) (expect : Option Bool)
    (after : Core → Core) : Out :=
  let set := e.set.toNat
  let port := (s.core core).setPort core set (8 + k)
  s.ifRoom [(port, 1)] <|
    let t := { e.tok with tag := 0, round := 0, e := 0, kind := kindRecord }
    .next ((s.launchTokens (.router core) [(8, port)] [t]).onCore core fun c =>
      after (c.onEntry set (recordSeq e.tok.payload) fun e =>
        { e with out := some (BitVec.ofNat 3 k), logAt := logAt, expect := expect }))

/-- Queues a store of the router, held for the checks of R415 where its data are tainted. -/
def State.routerStore (s : State) (core set : Nat) (addr : Word) (data : List Byte) (seq : Option (BitVec 20)) (taint : Bool) : State :=
  let holds := if taint then s.checksOf (s.core core).ctxTag else []
  s.onCore core fun c =>
    { c with router := { c.router with stores := c.router.stores ++
        [{ set := BitVec.ofNat 3 set, addr := addr, data := data, seq := seq, taint := taint, holds := holds }] } }

/-- A log entry (R301). -/
def logEntry (kind : Nat) (pass : Bool) (stage step set : Nat) (seq : BitVec 20) : BitVec 32 :=
  BitVec.ofNat 32 (kind * 2 ^ 30 + pass.toNat * 2 ^ 29 + stage % 8 * 2 ^ 26 + step % 8 * 2 ^ 23 + set % 8 * 2 ^ 20 + seq.toNat)

/-- The address of log entry i. -/
def Core.logAddr (c : Core) (i : Nat) : Word := c.router.logBase.setWidth 64 + BitVec.ofNat 64 (4 * i)

/-- The live mode of every set becomes DET, and the log has ended by truncation (R301, R302). -/
def Core.truncateLog (c : Core) : Core :=
  { c with router := { c.router with log := 3, logCur := c.router.logCur + 1, logDone := c.router.logDone + 1,
                                     sets := c.router.sets.map fun t => { t with lmode := 1 } } }

/-- REPLAY_DIVERGE (R303). -/
def State.diverge (s : State) (core set : Nat) (seq : BitVec 20) (stage : BitVec 3) (index : Nat) : State :=
  (s.onCore core fun c => { c with router := { c.router with held := true } }).raise core 0x51 4 set
    (BitVec.ofNat 64 (seq.toNat + set % 8 * 2 ^ 20 + stage.toNat * 2 ^ 23 + index % 2 ^ 32 * 2 ^ 32))

/-- A translation fault on a store, log entry or log read of the router: releases stop, and the sequencer traps (R298, R304). -/
def State.routerFault (s : State) (core set : Nat) (code : BitVec 8) (addr : Word) : State :=
  let lost := decide (16 ≤ (s.core core).faults.length)
  (s.onCore core fun c => { c with router := { c.router with stopped := true, inTrap := false, trapLost := lost } }).raise core code 4 set addr

/-- One step of replay (R302, R303). -/
def State.replayDraw (s : State) (core : Nat) : Out :=
  let c := s.core core
  let r := c.router
  if r.logSize ≤ r.logCur then
    match c.oldestReady with
    | none => .next s
    | some e => .next (s.diverge core e.set.toNat (recordSeq e.tok.payload) ((Config.unstated r.logCur).setWidth 3) r.logCur)
  else
    match s.translate core c.ctxTag .read (c.logAddr r.logCur) with
    | (t, .error code) => .next (if code = noAnswer then t else t.routerFault core 0 code (c.logAddr r.logCur))
    | (t, .ok a) =>
      match t.readNow core a 4 with
      | (t, .error _) => .next t
      | (t, .ok x) =>
      let e : BitVec 32 := BitVec.ofNat 32 x
      let kind := e.extractLsb' 30 2
      let set := (e.extractLsb' 20 3).toNat
      let seq : BitVec 20 := e.extractLsb' 0 20
      let stage := e.extractLsb' 26 3
      let bad := t.diverge core set seq stage r.logCur
      if kind = 1 then .next (t.onCore core Core.truncateLog)
      else
        match (c.records set).find? fun x => recordSeq x.tok.payload == seq with
        | none =>
          if (c.stageSet set).gone.contains seq || 2 ^ 20 / (2 * c.window set) ≤ c.ahead set seq || c.sendersDone (some set) then .next bad
          else .next t
        | some x =>
          if !c.recordReady x then .next t
          else if stepOf x.tok.payload ≠ (e.extractLsb' 23 3).toNat || (recordDone x.tok.payload).getLsbD stage.toNat then .next bad
          else t.dispatch core x stage.toNat (some r.logCur) (some (e.getLsbD 29)) fun c =>
            { c with router := { c.router with logCur := c.router.logCur + 1, logDone := c.router.logDone + 1 } }

/-- The dispatch of a drawn record: into its stage where the ENTRY port has room, and otherwise the choice stands and the dispatch waits
(R293); in recording it takes the next log entry (R301). -/
def State.dispatchDrawn (s : State) (core : Nat) (e : RecordEntry) (k : Nat) : Out :=
  let r := (s.core core).router
  let set := e.set.toNat
  if !s.roomFor [((s.core core).setPort core set (8 + k), 1)] then
    .next (s.onCore core fun c =>
      { c with router := { c.router with drawn := some (e.set, recordSeq e.tok.payload, BitVec.ofNat 3 k) } })
  else
    s.dispatch core e k (if r.log = 1 then some r.logCur else none) none fun c =>
      { c with router := { c.router with drawn := none, logCur := if r.log = 1 then c.router.logCur + 1 else c.router.logCur } }

/-- ROUTER_DRAW (R292, R293, R301, R302): a draw that waits for room keeps its stage, and no other record is drawn before it; a fault on a
log read holds the draws of a replay (R304). -/
def execRouterDraw (s : State) : Out :=
  let core := s.cur.core
  let c := s.here
  if c.router.held || (c.router.stopped && c.router.log == 2) then .next s
  else
    match c.router.drawn with
    | some (set, seq, k) =>
      match (c.records set.toNat).find? fun x => recordSeq x.tok.payload == seq with
      | none => .next (s.on fun c => { c with router := { c.router with drawn := none } })
      | some e => s.dispatchDrawn core e k.toNat
    | none =>
      if c.router.log = 2 then s.replayDraw core
      else
        match c.oldestReady with
        | none => .next s
        | some e =>
          let set := e.set.toNat
          if c.router.log = 1 && c.router.logCur + 1 = c.router.logSize then
            let entry := logEntry 1 false 0 0 set (recordSeq e.tok.payload)
            .next ((s.routerStore core set (c.logAddr c.router.logCur) (bytesOf 4 entry.toNat) none false).on Core.truncateLog)
          else s.dispatchDrawn core e (s.drawStage core e)

/-! ### Returns (R294, R296) -/

/-- The set served next in round-robin order: the first non-empty return queue after the one served last. -/
def Core.nextReturn (c : Core) : Option Nat :=
  ((List.range 8).map fun i => (c.router.turn.toNat + 1 + i) % 8).find? fun k => !(c.stageSet k).rtq.isEmpty

/-- Adds a return of stage k to the statistics of a window. -/
def Window.count (w : Window) (k : Nat) (pass : Bool) : Window :=
  if h : k < 8 then
    { ins := w.ins.set k (w.ins[k] + 1), passes := w.passes.set k (w.passes[k] + pass.toNat) }
  else w

/-- Adds a return to the statistics of its set (R294). -/
def Core.countReturn (c : Core) (set : Nat) (seq : BitVec 20) (k : Nat) (pass : Bool) : Core :=
  let d := c.ahead set seq
  c.onSet set fun t =>
    { t with wins := if d = 0 then t.wins.set 0 (t.wins[0].count k pass)
                     else if d = 1 then t.wins.set 1 (t.wins[1].count k pass) else t.wins }

/-- A return of the record of an entry from stage k (R296, R301, R302). -/
def State.recordReturned (s : State) (core : Nat) (e : RecordEntry) (t : Token) (k : Nat) : State :=
  let set := e.set.toNat
  let seq := recordSeq t.payload
  let pass := recordPass t.payload
  let c := s.core core
  let s := match e.logAt, e.expect with
    | some i, none =>
      (s.routerStore core set (c.logAddr i) (bytesOf 4 (logEntry 0 pass k (stepOf e.tok.payload) set seq).toNat) none false).onCore core
        fun c => { c with router := { c.router with logDone := c.router.logDone + 1 } }
    | _, _ => s
  let side := ((c.member set k).map (·.2)).getD false
  let complete := (List.range (c.nst set)).all fun j => (recordDone t.payload).getLsbD j
  let s := s.onCore core fun c => (c.countReturn set seq k pass).stampNext
  let s := s.onCore core fun c => c.onEntry set seq fun e =>
    { e with tok := { t with tag := 0, round := 0, e := 0 }, out := none, since := c.router.stamp, logAt := none, expect := none,
             sides := if side && pass then e.sides ++ [(BitVec.ofNat 3 k, t.payload)] else e.sides, complete := complete && pass }
  if pass then s else s.dropRecord core set t.payload

/-- The stage that a returned record comes from: the DONE bit that its entry lacks. -/
def returnedStage (e : RecordEntry) (t : Token) : Nat :=
  ((List.range 8).find? fun k => (recordDone t.payload).getLsbD k && !(recordDone e.tok.payload).getLsbD k).getD
    ((e.out.map (·.toNat)).getD 0)

/-- ROUTER_RETURN: one return is taken (R296); a replayed return must have the pass bit of the log (R302, R303). -/
def execRouterReturn (s : State) : Out :=
  let core := s.cur.core
  let c := s.here
  match c.nextReturn with
  | none => .next s
  | some set =>
    match (c.stageSet set).rtq with
    | [] => .next s
    | t :: rest =>
      let taken := s.on fun c =>
        { c.onSet set fun q => { q with rtq := rest } with
            router := { (c.onSet set fun q => { q with rtq := rest }).router with turn := BitVec.ofNat 3 set } }
      if c.router.held then
        if c.sendersDone none then .next (taken.dropRecord core set t.payload) else .next s
      else
        match (c.records set).find? fun e => recordSeq e.tok.payload == recordSeq t.payload && e.out.isSome with
        | none => .next taken
        | some e =>
          let k := returnedStage e t
          if e.expect.any fun p => p != recordPass t.payload then
            .next (s.diverge core set (recordSeq t.payload) (BitVec.ofNat 3 k) (e.logAt.getD 0))
          else .next (taken.recordReturned core e t k)

/-! ### Exits and side stores (R297, R298) -/

/-- The address of a side store at the release of a record, whose payload holds the address field (R298; log entry 43). -/
def Core.sideAddr (c : Core) (set : Nat) (p : Payload) : Word :=
  let t := c.stageSet set
  let i := if c.byField set then (p.extractLsb' (32 * c.addressField set) 32).toNat else t.cur.toNat
  t.sbase.setWidth 64 + BitVec.ofNat 64 (32 * i)

/-- Releases one side entry of a record. -/
def State.releaseSide (s : State) (core set : Nat) (t : Token) (p : Payload) : State :=
  let c := s.core core
  let s := s.routerStore core set (c.sideAddr set t.payload) (bytesOf 32 p.toNat) (some (recordSeq t.payload)) t.taint
  if c.byField set then s else s.onCore core fun c => c.onSet set fun t => { t with cur := t.cur + 1 }

/-- Whether a released record waits for side stores: its own, and where it has none, those released before it exits (R297, R299). -/
def Core.awaitsStores (c : Core) (e : RecordEntry) : Bool :=
  c.router.stores.any fun x =>
    if e.releasing == some [] then x.seq.isSome else x.set == e.set && x.seq == some (recordSeq e.tok.payload)

/-- ROUTER_EXIT: the complete record of entry n of the turn's core releases its side entries, takes a slot in the EXIT port, and exits once its side
stores are performed (R297); a fault stops the releases (R298). -/
def execRouterExit (s : State) : Out :=
  let core := s.cur.core
  let c := s.here
  if c.router.held then .next s
  else
    match c.router.entries[s.cur.n]? with
    | none => .next s
    | some e =>
      let set := e.set.toNat
      let seq := recordSeq e.tok.payload
      if !e.complete || (c.ordered set && seq != (c.stageSet set).next) then .next s
      else if e.releasing.isNone then
        let inOrder := (List.range 8).flatMap fun k => (e.sides.filter fun x => x.1.toNat == k).map (·.2)
        if c.router.stopped && !inOrder.isEmpty then .next s
        else
          let s := inOrder.foldl (fun s p => s.releaseSide core set e.tok p) s
          .next (s.on fun c => c.onEntry set seq fun e => { e with releasing := some inOrder })
      else if !e.slotted then
        let port := c.setPort core set 2
        s.ifRoom [(port, 1)] <|
          .next ((s.onPort port fun p => { p with pend := p.pend + 1 }).on fun c => c.onEntry set seq fun e => { e with slotted := true })
      else if c.awaitsStores e then .next s
      else
        let t := { e.tok with tag := 0, round := 0, e := 0, kind := kindRecord }
        .next ((s.sendAllocated (.router core) (c.setPort core set 2) t).on fun c =>
          ((c.dropEntry set seq).onSet set fun q => { q with exits := q.exits + 1 }).leaves set seq)

/-- Counts an operation of the router of a deterministic launch to a base die (R428). -/
def Router.counted (r : Router) (die : Nat) : Router := if h : die < 8 then { r with owns := r.owns.set die (r.owns[die] + 1) } else r

/-- SIDE_STORE: the oldest store of the turn's router is performed at DEVICE scope, or stops the releases on a translation fault
(R298, R301). -/
def execSideStore (s : State) : Out :=
  let core := s.cur.core
  let c := s.here
  if c.router.stopped then .next s
  else
    match c.router.stores with
    | [] => .next s
    | x :: rest =>
      if x.holds.any fun i => s.checks.any fun k => k.id == i then .next s
      else
        match s.translate core c.ctxTag .write x.addr with
        | (t, .error code) => .next (if code = noAnswer then t else t.routerFault core x.set.toNat code x.addr)
        | (t, .ok a) =>
          if t.inWindow a x.data.length then .next s
          else
            let die := stackOf a
            t.overNetwork a <| t.sequenced die (t.seqNums core 9 ((c.router.owns[die]?).getD 0) false) fun t =>
              .next ({ t with mem := writeBytes t.mem a x.data }.on fun c =>
                { c with router := { c.router.counted die with stores := rest } })

/-! ### Drain (R300, R303) -/

/-- ROUTER_DRAIN: set `unit` of the turn's core, with no record left, sends DRAIN into its ports, and its last windows close; a held router
whose senders have all passed drops its records first (R294, R300, R303). -/
def execRouterDrain (s : State) : Out :=
  let core := s.cur.core
  let set := s.cur.unit
  let c := s.here
  if c.router.held && !c.sendersDone none then .next s
  else if c.router.held && c.router.entries.any (fun e => e.out.isNone) then
    .next ((c.router.entries.filter fun e => e.out.isNone).foldl (fun s e => s.dropRecord core e.set.toNat e.tok.payload) s)
  else if c.nst set = 0 || (c.stageSet set).drainSent || !c.sendersDone (some set) || !(c.records set).isEmpty ||
      !(c.stageSet set).rtq.isEmpty || !c.router.stores.isEmpty then .next s
  else
    let ports := (List.range (c.nst set)).map (fun k => c.setPort core set (8 + k)) ++ [c.setPort core set 2]
    s.ifRoom (ports.map fun d => (d, 1)) <|
      .next ((s.launchTokens (.router core) (ports.map fun d => (8, d)) [drainToken c.cfg.idx 0 0]).on fun c =>
        ((c.closeWindow set).closeWindow set).onSet set fun q => { q with drainSent := true })

/-- The router of a core has drained every used set (R300). -/
def Core.routerDrained (c : Core) : Bool :=
  (List.range 8).all (fun k => c.nst k == 0 || (c.stageSet k).drainSent) && c.router.stores.isEmpty

/-! ### RT instructions (R305–R309) -/

/-- RT.CFG (R306). -/
def execRtCfg (d a b : SReg) (p : PReg) (s : State) : Out :=
  s.guarded p <|
    let x := s.here.reg a
    let v := s.here.reg b
    let set := (x.extractLsb' 0 3).toNat
    let put (f : StageSet → StageSet) : Out :=
      if !(s.here.records set).isEmpty then s.answer s d 1 else s.answer (s.on fun c => c.onSet set f) d 0
    match (x.extractLsb' 8 4).toNat with
    | 0 => put fun t => { t with seed := v.setWidth 32 }
    | 1 => if v.toNat % 32 ≠ 0 || v.extractLsb' 55 9 != 0 then s.answer s d 2 else put fun t => { t with sbase := v.setWidth 55 }
    | 2 =>
      if v.extractLsb' 20 44 != 0 then s.answer s d 2
      else put fun t =>
        { t with seq0 := v.setWidth 20, next := v.setWidth 20, o := 0, wins := Vector.replicate 2 Window.reset,
                 p1 := Vector.replicate 8 128, p2 := Vector.replicate 8 128, gone := [] }
    | 3 => put fun t => { t with cur := v.setWidth 32 }
    | _ => s.answer s d 2

/-- A record whose dispatch a log gave, once the replay has ended. -/
def RecordEntry.unbound (e : RecordEntry) : RecordEntry := if e.expect.isSome then { e with logAt := none, expect := none } else e

/-- RT.MODE (R307); a deterministic launch refuses mode 2 (R425). -/
def execRtMode (d a b : SReg) (p : PReg) (s : State) : Out :=
  s.guarded p <|
    let set := ((s.here.reg a).extractLsb' 0 3).toNat
    let v := s.here.reg b
    let mode := v.extractLsb' 0 2
    let ends := v.getLsbD 4
    if mode = 3 || (mode = 2 && s.isDet s.cur.core) then s.answer s d 2
    else if s.here.nst set = 0 then s.answer s d 3
    else if !(s.here.records set).isEmpty && !ends then s.answer s d 1
    else
      s.answer (s.on fun c =>
        let c := c.onSet set fun t => { t with lmode := mode }
        if ends then
          { c with router := { c.router with held := false, log := if c.router.log = 2 then 0 else c.router.log,
                                             entries := c.router.entries.map RecordEntry.unbound } }
        else c) d 0

/-- Nine bits each of four pass rates, from stage k on. -/
def ratesFrom (v : Vector Nat 8) (k : Nat) : Word :=
  BitVec.ofNat 64 ((List.range 4).foldl (fun a i => a + ((v[k + i]?).getD 0) * 2 ^ (9 * i)) 0)

/-- RT.QRY (R308). -/
def execRtQry (d a : SReg) (p : PReg) (s : State) : Out :=
  s.guarded p <|
    let x := s.here.reg a
    let set := (x.extractLsb' 0 3).toNat
    let c := s.here
    let t := c.stageSet set
    let value : Word :=
      if c.nst set = 0 then BitVec.allOnes 64
      else
        match (x.extractLsb' 8 4).toNat with
        | 0 => BitVec.ofNat 64 (c.nst set + t.lmode.toNat * 2 ^ 4 + c.router.held.toNat * 2 ^ 6 + (c.ordered set).toNat * 2 ^ 7 +
            (c.records set).length * 2 ^ 8 + ((c.records set).foldl (fun n e => n + e.sides.length) 0) * 2 ^ 16 +
            c.router.log.toNat * 2 ^ 24 + t.admissions.toNat * 2 ^ 32)
        | 1 => ratesFrom t.p1 0
        | 2 => ratesFrom t.p1 4
        | 3 => BitVec.ofNat 64 (t.next.toNat + (t.seq0 + BitVec.ofNat 20 (t.o * c.window set)).toNat * 2 ^ 20)
        | 4 => t.drops ++ t.exits
        | 5 => BitVec.ofNat 64 (c.router.logDone % 2 ^ 25)
        | _ => BitVec.allOnes 64
    s.answer s d value

/-- RT.LOG (R309). -/
def execRtLog (d a b c : SReg) (p : PReg) (s : State) : Out :=
  s.guarded p <|
    let op := (s.here.reg a).extractLsb' 0 2
    let base := s.here.reg b
    let n := (s.here.reg c).toNat
    if op = 3 then s.answer s d 2
    else if op = 0 then s.answer (s.on fun c => { c with router := { c.router with logNext := none } }) d 0
    else if !s.variant.full then s.answer s d 7
    else if base.toNat % 4 ≠ 0 || base.extractLsb' 55 9 != 0 || n < (if op = 1 then 2 else 1) || 2 ^ 24 < n then s.answer s d 2
    else s.answer (s.on fun c => { c with router := { c.router with logNext := some (op, base.setWidth 55, n) } }) d 0

end Sys2Proof.Machine
end

