-- ==== Sys2Proof/Machine/Element.lean ====
section
/-! DEFINITION. The turn of an element: drains, rounds, discards and firings in the order of R174, and tokens on their way
(R15, R16, R172–R179, R218, R223, R240, R257, R261, R455). -/

namespace Sys2Proof.Machine

/-! ### Inputs of an element -/

/-- The bound inputs of an element. -/
def Core.boundInputs (c : Core) (ea : Nat) : List Nat := (List.range 4).filter fun i => binds c.cfg.active ea i

/-- The loop inputs of an operation (R223). -/
def loopInputs (op : Nat) (w : Eow) : List Nat :=
  match op with
  | 0x62 => inputsOf [w.sb, w.sc]
  | 0x64 => inputsOf [w.sc]
  | 0x6B => if w.sb.toNat < 4 then inputsOf [w.sa] else []
  | _ => []

/-- The inputs at which MARKs close a round: those named, but for loop inputs and MROW's loader (R175, R223, R249). -/
def roundInputs (op : Nat) (w : Eow) : List Nat :=
  (if op = 0x91 then inputsOf [w.sa, w.sb] else namedInputs w).filter fun i => !(loopInputs op w).contains i

/-- The first bound, open input whose head token satisfies a test. -/
def State.findHead (s : State) (is : List Nat) (test : Nat → Token → Bool) : Option (Nat × Token) :=
  is.findSome? fun i =>
    if (s.elem.port i).closed then none
    else match s.elem.head i with
      | some t => if test i t then some (i, t) else none
      | none => none

/-- Whether an operation's state lets it close a round or pass DRAIN (R223, R229, R230, R236, R239). -/
def Elem.idle (e : Elem) (op : Nat) : Bool :=
  match op with
  | 0x62 => !e.opst.loop
  | 0x64 => !e.opst.loop
  | 0x69 => !e.opst.any
  | 0x6A => e.opst.cnt == 0
  | 0x81 => !e.opst.fill
  | 0x84 => !e.opst.any
  | _ => true

/-- Whether the zero fill of a PWR, or the wait for its writes, keeps the element from any other action (R236). -/
def Elem.filling (e : Elem) (op : Nat) : Bool := op == 0x81 && e.opst.fill && !e.halted

/-- The operation word of the element whose turn it is. -/
def State.eow (s : State) : BitVec 64 := eowField s.here.cfg.active s.cur.unit

/-- Its opcode. -/
def State.opcode (s : State) : Nat := opcodeOf s.here.cfg.active s.cur.unit

/-- Its loop inputs that are bound. -/
def State.loops (s : State) : List Nat :=
  (loopInputs s.opcode (eowOf s.eow)).filter fun i => (s.here.boundInputs s.cur.unit).contains i

/-- Whether inputs are all closed. -/
def Elem.allClosed (e : Elem) (is : List Nat) : Bool := is.all fun i => (e.port i).closed

/-! ### Drains of the region that begin (R180) -/

/-- The lead core of a region tells its other cores that the drain after those already resolved has begun (R180). -/
def State.tellRegion (s : State) (lead : Nat) : State :=
  ((s.region lead).filter (· != lead)).foldl (fun s c => s.send lead c (.drainBegin (s.core lead).cfg.drains)) s

/-- A drain begins at a core: the lead core tells the others of the region, once it knows (R180). -/
def State.beginDrain (s : State) (core : Nat) : State :=
  if (s.core core).cfg.draining then s
  else
    let lead := s.lead core
    let s := s.onCore core fun c => { c with cfg := { c.cfg with draining := true, begun := true } }
    if core = lead then
      if (s.core core).cfg.noticed then s
      else (s.tellRegion core).onCore core fun c => { c with cfg := { c.cfg with noticed := true } }
    else s.send core lead (.drainBegin (s.core core).cfg.drains)

/-! ### DRAIN at an element (R177, R178, R218, R223, R240, R257) -/

/-- A DRAIN at the head of input i is dealt with; an element that has sent DRAIN has passed once its loop inputs are closed (R177,
R223). -/
def State.takeDrain (s : State) (i : Nat) (t : Token) : State :=
  let s := s.acceptDrain i t
  let loops := s.loops
  s.onElem fun e => if e.sentDrain && e.allClosed loops then { e with passed := true } else e

/-- A step of the flush before DRAIN, or none where the state is flushed. -/
def State.flushStep (s : State) : Option Out :=
  let op := s.opcode
  let w := eowOf s.eow
  let o := s.elem.opst
  match op with
  | 0x53 => if o.any then some (s.accRelease w) else none
  | 0x54 => if o.any then some (s.amaxRelease w) else none
  | 0x42 => if 0 < o.cnt then some (s.qntRelease w) else none
  | _ => match s.flushPoolOp op w with
    | some r => some r
    | none => s.matrixRelease op true

/-- The counts that an element holds for receivers in other cores go back to them (R177), whose senders get none before a swap (R181). -/
def State.returnCounts (s : State) (rs : List (Nat × Dest)) : State :=
  let far := rs.filter fun r => r.2.core != s.cur.core
  let t := { s with credits := s.credits ++ far.map fun r => { dst := r.2, final := true, dest := r.2.core } }
  far.foldl (fun t r => t.onCore r.2.core fun c =>
    { c with cfg := { c.cfg with returned := s.cur.core :: c.cfg.returned.filter (· != s.cur.core) } }) t

/-- The slots that an element holds for tokens that it has not written: PRQ for its replies, PWR, PPUB and LUT for a result. -/
def State.heldOutputs (s : State) : Nat :=
  if s.opcode = 0x83 then s.elem.prq.length
  else if [0x81, 0x82, 0x84].contains s.opcode && s.elem.opst.any then 1 else 0

/-- Tokens that a halted element will not write give the link slots taken for them back. -/
def State.dropReplies (s : State) : State :=
  let s := (List.replicate s.heldOutputs ()).foldl (fun s _ => s.returnLinks (s.here.allReceivers s.cur.unit)) s
  s.onElem fun e => { e with prq := [] }

/-- The element sends DRAIN on every enabled output; it has passed once its loop inputs have closed (R177, R223). DEQ frees its held
scale token; a halted element leaves its state as it stands (R218). -/
def State.passDrain (s : State) : Out :=
  let w := eowOf s.eow
  s.whenRoom (s.bothOuts w) <|
    let t := drainToken s.here.cfg.idx s.elem.rnd w.vco
    let loops := s.loops
    let u := (s.dropReplies.emitBoth w t).returnCounts (s.outs w 0 ++ s.outs w 1)
    let u := u.onElem fun e =>
      { e with sentDrain := true, passed := e.allClosed loops, flushing := false,
               opst := if e.halted then e.opst else { e.opst with held := none } }
    .next (u.beginDrain s.cur.core)

/-- Whether every bound input that is not a loop input is closed; an element that binds none has been told by CFG.DRN (R123, R177). -/
def State.inputsClosed (s : State) : Bool :=
  let bound := s.here.boundInputs s.cur.unit
  if bound.isEmpty then s.here.cfg.drained else s.elem.allClosed (bound.filter fun i => !s.loops.contains i)

/-- ELEMENT_DRAIN_PASS: a DRAIN at a head of the turn's element closes its input; with every input closed the element flushes and
passes DRAIN (R174, R177, R178). -/
def execElementDrainPass (s : State) : Out :=
  let p := s.here.cfg.active
  if !enabled p s.cur.unit || s.elem.passed || s.elem.filling s.opcode then .next s
  else
    match s.findHead (s.here.boundInputs s.cur.unit) fun _ t => t.kind == kindDrain with
    | some (i, t) => .next (s.takeDrain i t)
    | none =>
      if s.elem.sentDrain || !s.inputsClosed then .next s
      else if s.elem.halted then s.passDrain
      else if !s.elem.idle s.opcode then .next s
      else match s.flushStep with
        | some r => r
        | none => s.passDrain

/-! ### Discards (R178, R223) -/

/-- HALTED_DISCARD: a halted element, or one that has passed DRAIN at its loop inputs, consumes and discards a token; a halted element
frees its partial sums too (R178, R223, R243). -/
def execHaltedDiscard (s : State) : Out :=
  let bound := s.here.boundInputs s.cur.unit
  let from_ := if s.elem.halted then bound else if s.elem.sentDrain then s.loops else []
  if !enabled s.here.cfg.active s.cur.unit then .next s
  else
    match s.findHead from_ fun _ t => t.kind != kindDrain with
    | some (i, t) =>
      .next ((s.consume i 1).discards t)
    | none => .next (if s.elem.halted then s.onElem fun e => { e with psums := e.psums.drop 1 } else s)

/-! ### Rounds (R174–R176, R223, R229) -/

/-- A MARK at a loop input is one that the element has sent round: the oldest outstanding there, or a round skew (R223). -/
def State.loopMark (s : State) (i : Nat) (t : Token) : State :=
  let owed := if h : i < 4 then s.elem.owed[i] else []
  match owed with
  | r :: rest =>
    if r = t.round then
      (s.consume i 1).onElem fun e => if h : i < 4 then { e with owed := e.owed.set i rest } else e
    else s.skew (maskOf [i])
  | [] => s.skew (maskOf [i])

/-- Whether MARKs stand at every input that closes a round. -/
def State.marksReady (s : State) : Bool :=
  let is := roundInputs s.opcode (eowOf s.eow)
  !is.isEmpty && is.all fun i => !(s.elem.port i).closed && (s.elem.head i).any fun t => t.kind == kindMark

/-- What an element releases before it forwards a MARK: a step of it, or none (R175, R216, R217, R257). -/
def State.releaseStep (s : State) : Option Out :=
  let op := s.opcode
  let w := eowOf s.eow
  let e := s.elem
  match op with
  | 0x53 => if e.flushing then none else some (s.accRelease w)
  | 0x54 => if e.flushing then none else some (s.amaxRelease w)
  | 0x83 => if e.prq.isEmpty then none else some (.next s)
  | _ => s.matrixRelease op false

/-- The TAG that a forwarded MARK carries: that of a checkpoint MARK, if one stands among them; of two with different checkpoints, that of the first
input: DESIGN CHOICE (R175; log entry 57). -/
def State.markTag (s : State) (is : List Nat) : BitVec 12 :=
  ((is.findSome? fun i => (s.elem.head i).bind fun t => if t.isCheckpoint then some t.tag else none)).getD 0

/-- The checkpoint entries of a core, every marked input, in ascending element address (R138, R185). -/
def Core.checkpointEntries (c : Core) (core : Nat) : List Dest :=
  let p := c.cfg.active
  (List.range 64).flatMap fun ea =>
    ((List.range 4).filter fun i => (fieldOf p ea 0x3E).getLsbD i).map fun i => Dest.port core ea i

/-- Whether every element of a core has forwarded a checkpoint MARK since the request (R390). -/
def Core.marksPassed (c : Core) : Bool := (List.range 64).all fun ea => !enabled c.cfg.active ea || (c.elem ea).ckpt.isSome

/-- A core of a PENDING region that has no checkpoint entry pauses its streams once its elements have forwarded the MARK (R389). -/
def State.pauseAtMark (s : State) (core : Nat) : State :=
  let c := s.core core
  if !(c.checkpointEntries core).isEmpty || !c.marksPassed then s
  else
    { s with launches := s.launches.map fun l =>
        if l.placed && l.pending && (l.cores s.variant).contains core && !l.pausedCores.contains core then
          { l with pausedCores := l.pausedCores ++ [core] }
        else l }

/-- A CKPT that has injected its markers in a PENDING region: its sequencer is held at the next instruction boundary, and its streams
pause (R389). -/
def State.holdAtCheckpoint (s : State) (core : Nat) : State :=
  { s with launches := s.launches.map fun l =>
      if l.placed && l.pending && (l.cores s.variant).contains core then
        { l with heldCores := l.heldCores ++ [core], pausedCores := l.pausedCores ++ [core] }
      else l }

/-- The MARKs are consumed and one is forwarded (R175, R389, R398). -/
def State.forwardMark (s : State) : Out :=
  let w := eowOf s.eow
  let is := roundInputs s.opcode w
  s.whenRoom (s.bothOuts w) <|
    let tag := s.markTag is
    let rnd := s.elem.rnd
    let loops := s.loops
    let u := (s.consumeAll is 1).emitBoth w (markToken rnd w.vco tag)
    let u := u.onElem fun e =>
      { e with rnd := rnd + 1, flushing := false,
               ckpt := if tag.getLsbD 8 then some (tag.extractLsb' 0 8) else e.ckpt,
               owed := Vector.ofFn fun i => if loops.contains i.val then e.owed[i] ++ [rnd] else e.owed[i],
               opst := if s.opcode = 0x69 then { e.opst with cnt := 0 } else e.opst }
    .next (if tag.getLsbD 8 then u.pauseAtMark s.cur.core else u)

/-- ROUND_CLOSE: a MARK at a loop input of the turn's element is taken up; with MARKs of round RND at every named input the element
releases and forwards a MARK. A MARK of another round among them is a skew of all of them, each having a MARK at its head (R175, R176,
R223). -/
def execRoundClose (s : State) : Out :=
  let p := s.here.cfg.active
  if !enabled p s.cur.unit || s.elem.passed || s.elem.halted || s.elem.sentDrain || s.elem.filling s.opcode then .next s
  else
    match s.findHead s.loops fun _ t => t.kind == kindMark with
    | some (i, t) => .next (s.loopMark i t)
    | none =>
      if !s.marksReady || !s.elem.idle s.opcode then .next s
      else
        let is := roundInputs s.opcode (eowOf s.eow)
        if is.any s.elem.wrongRound then .next (s.skew (maskOf is))
        else match s.releaseStep with
          | some r => r
          | none => s.forwardMark

/-! ### The turn (R174) -/

/-- What the element whose turn it is does (R168, R174, R178): a drain, a discard, a round, an insertion, or its operation. -/
def State.elementAction (s : State) : Option Instr :=
  let p := s.here.cfg.active
  let e := s.elem
  let bound := s.here.boundInputs s.cur.unit
  if !enabled p s.cur.unit then none
  else if e.halted && !e.psums.isEmpty then some .haltedDiscard
  else if e.passed then none
  else if e.filling s.opcode then decodeEow s.eow
  else if (s.findHead bound fun _ t => t.kind == kindDrain).isSome then some .elementDrainPass
  else if e.halted || e.sentDrain then
    if (s.findHead (if e.halted then bound else s.loops) fun _ t => t.kind != kindDrain).isSome then some .haltedDiscard
    else if !e.sentDrain && s.inputsClosed then some .elementDrainPass
    else none
  else if (s.findHead s.loops fun _ t => t.kind == kindMark).isSome then some .roundClose
  else if s.opcode = 0x69 && e.opst.any then some .mkgnMarkInsert
  else if s.inputsClosed && e.idle s.opcode then some .elementDrainPass
  else if s.marksReady && e.idle s.opcode then some .roundClose
  else decodeEow s.eow

/-! ### Tokens on their way (R15, R16, R173, R179, R455) -/

/-- Whether flight n is behind another of the same sender and receiver that it may not overtake. -/
def State.flightBehind (s : State) (n : Nat) (f : Flight) : Bool :=
  (s.flights.take n).any fun g => g.src == f.src && g.dst == f.dst &&
    (g.tok.vc == f.tok.vc || !g.tok.isWork || !f.tok.isWork)

/-- What a token meets on its way: nothing that stops it, a link without a permit, a box that does not carry it on, or, where it has not
crossed every box yet, the next box with the entry to use there and the side it comes in from. -/
inductive Path where
  | clear
  | denied (dir : Nat)
  | broken (core ea : Nat)
  | underWay (core ea entry side : Nat)
  deriving DecidableEq, Repr

/-- A token crosses boxes, `fuel` of them at most, each by the entry that its active plane holds now, to an input port (R403, R455). -/
def State.cross (s : State) (dst : Dest) : Nat → Nat → Nat → Nat → Nat → Path
  | 0, core, ea, entry, side => .underWay core ea entry side
  | fuel + 1, core, ea, entry, side =>
    let e := fieldOf (s.activePlane core) ea (0x40 + entry)
    let out := (e.extractLsb' 9 3).toNat
    if !e.getLsbD 15 || (e.extractLsb' 12 3).toNat != side then .broken core ea
    else if 4 ≤ out then (if dst = .port core ea (out - 4) then .clear else .broken core ea)
    else
      match neighbour s.variant core ea out with
      | none => .broken core ea
      | some (c, x) =>
        if c ≠ core && !s.fabricPermit core out c then .denied out
        else s.cross dst fuel c x (e.extractLsb' 6 3).toNat (opposite out)

/-- Whether a stream engine's output still feeds a port: its binding, and the EN of the output (R140, R185, R187). -/
def State.feeds (s : State) (core k c ea i : Nat) : Bool :=
  let p := s.activePlane c
  c == core && enabled p ea && bindKind p ea i == 3 && bindEngine p ea i == k && (fieldOf p 0xF0 (0x18 + k)).getLsbD 15

/-- The path of a flight over its next `fuel` boxes (R173, R455). -/
def State.pathFor (s : State) (fuel : Nat) (f : Flight) : Path :=
  match f.src, f.dst with
  | .elem core ea out, .port _ _ _ =>
    if f.entry = 8 then .clear
    else
      match f.pos with
      | none => s.cross f.dst fuel core ea f.entry (4 + out)
      | some (c, x, e, d) => s.cross f.dst fuel c x e d
  | .stream core k, .port c ea i => if s.feeds core k c ea i then .clear else .broken c ea
  | _, _ => .clear

/-- The path of a flight to its end; a route uses no entry of a box twice. -/
def State.pathOf (s : State) (f : Flight) : Path :=
  match s.pathFor 196608 f with
  | .underWay c ea _ _ => .broken c ea
  | p => p

/-- Takes flight n off the fabric. -/
def State.takeFlight (s : State) (n : Nat) : State := { s with flights := s.flights.eraseIdx n }

/-- A token that reaches its slot; one on a closed input is a stray, kept in the slot (R179). -/
def State.deliverToken (s : State) (f : Flight) : State :=
  let closed := (s.portAt f.dst).closed
  match f.dst, closed with
  | .port c ea i, true => if (s.core c).cfg.reported then s else s.onCore c fun k => k.onElem ea fun e => e.strayAt i
  | _, true => s
  | d, false =>
    let u := s.onPort d fun p => { p with pend := p.pend - 1, toks := p.toks ++ [⟨f.tok, f.src.core⟩] }
    match d with
    | .port c ea i => u.residualArrives c ea i f.tok
    | _ => u

/-- A token that is dropped: its slot returns to FREE (R173, R455). -/
def State.dropFlight (s : State) (n : Nat) (f : Flight) : State :=
  (s.takeFlight n).onPort f.dst fun p => { p with pend := p.pend - 1 }

/-- Whether a flight ends at the take port with a DRAIN (R261). -/
def Flight.isTakeDrain (f : Flight) : Bool :=
  match f.dst with
  | .take _ => f.tok.kind == kindDrain
  | _ => false

/-- TOKEN_ARRIVAL: flight n crosses the boxes left on its way and reaches the slot allocated for it (R15, R16, R177, R179); with the
turn's flag it crosses at most m boxes of them (log entry 57). A MARK or DRAIN is delivered even where the boxes no longer carry its
route (R455). -/
def execTokenArrival (s : State) : Out :=
  match s.flights[s.cur.n]? with
  | none => .next s
  | some f =>
    if s.flightBehind s.cur.n f || f.isTakeDrain then .next s
    else
      match if s.cur.flag then s.pathFor s.cur.m f else s.pathOf f with
      | .clear => .next ((s.takeFlight s.cur.n).deliverToken f)
      | .denied _ => .next s
      | .broken _ _ => if f.tok.isWork then .next s else .next ((s.takeFlight s.cur.n).deliverToken f)
      | .underWay c ea e d => .next { s with flights := s.flights.set s.cur.n { f with pos := some (c, ea, e, d) } }

/-- TAKE_PORT_DRAIN: a DRAIN that reaches the take port is consumed on arrival (R261). -/
def execTakePortDrain (s : State) : Out :=
  match s.flights[s.cur.n]? with
  | none => .next s
  | some f =>
    if s.flightBehind s.cur.n f || !f.isTakeDrain then .next s
    else .next ((s.takeFlight s.cur.n).onPort f.dst fun p => { p with pend := p.pend - 1, closed := true })

/-- A packet of the memory network that would cross a link without a permit is dropped there, and PERMIT_DENY is recorded: with the host, by
the tag of the packet (R18, R403, R437; log entry 26); one that its receiver refuses is taken out, since
nothing reports it (R27, R402, R410). -/
def State.dropPacket (s : State) (n : Nat) : State :=
  match s.net[n]? with
  | none => s
  | some p =>
    match s.fate p.src p.dst with
    | .denied core dir => { s with net := s.net.eraseIdx n }.recordDeny (.denied core dir) p.tag
    | .astray => s
    | .arrives => if s.accepts p then s else { s with net := s.net.eraseIdx n }

/-- PERMIT_DENY_DROP: flight n crosses a link without a permit; its sender halts and its sequencer traps (R173). With the turn's flag set
it is packet n of the memory network that cannot arrive (R18, R402, R403, R410). -/
def execPermitDenyDrop (s : State) : Out :=
  if s.cur.flag then .next (s.dropPacket s.cur.n)
  else
  match s.flights[s.cur.n]? with
  | none => .next s
  | some f =>
    if s.flightBehind s.cur.n f then .next s
    else
      match s.pathOf f, f.src with
      | .denied dir, .elem core ea _ =>
        .next (((s.dropFlight s.cur.n f).halt core ea).raise core 0x26 1 ea (BitVec.ofNat 64 dir))
      | _, _ => .next s

/-- A stream engine whose token has been dropped halts; the beat that halts is the next one, and FADDR is not stated (log entry 14). -/
def State.haltSender (s : State) (core k : Nat) : State :=
  match ((s.core core).engine k).job with
  | some j => s.haltStream core k j.next 0x27 (Config.unstated k)
  | none => s

/-- ROUTE_BROKEN: flight n, a DATA or RECORD token, meets a box whose active entry does not carry it: it is dropped, its sender halts and
the sender's sequencer traps (R158, R455). -/
def execRouteBroken (s : State) : Out :=
  match s.flights[s.cur.n]? with
  | none => .next s
  | some f =>
    if s.flightBehind s.cur.n f || !f.tok.isWork then .next s
    else
      match s.pathOf f, f.src with
      | .broken box ea, .elem core src _ =>
        .next (((s.dropFlight s.cur.n f).halt core src).raise core 0x27 1 src (BitVec.ofNat 64 (box + ea * 2 ^ 16)))
      | .broken box ea, .stream core k =>
        .next (((s.dropFlight s.cur.n f).haltSender core k).raise core 0x27 2 k (BitVec.ofNat 64 (box + ea * 2 ^ 16)))
      | _, _ => .next s

/-- FREE_COUNT_RETURN: count n reaches the core it travels to (R172, R177). -/
def execFreeCountReturn (s : State) : Out :=
  match s.credits[s.cur.n]? with
  | none => .next s
  | some k =>
    let t := { s with credits := s.credits.eraseIdx s.cur.n }
    if k.final then
      if s.flights.any fun f => f.dst == k.dst then .next s else .next t
    else .next (t.onPort k.dst fun p => { p with back := p.back - 1 })

end Sys2Proof.Machine
end

