-- ==== Sys2Proof/Machine/SealOps.lean ====
section
/-! DEFINITION. The operation word of an element as the seal checks it: sources, types, modes, AUX and IMM, rates and formats (R189,
R190, R199, R220, R222, R244–R248). -/

namespace Sys2Proof.Machine

/-- What a source field admits. -/
inductive Src where
  /-- Must be 7. -/
  | none
  /-- An input or a constant. -/
  | value
  /-- An input. -/
  | token
  /-- An input, or 7. -/
  | optional
  /-- An input, or 6 (WLD). -/
  | accumulator
  deriving DecidableEq, Repr

/-- Whether a source code is admitted. -/
def Src.admits : Src → Nat → Bool
  | .none, c => c == 7
  | .value, c => decide (c ≤ 5)
  | .token, c => decide (c ≤ 3)
  | .optional, c => decide (c ≤ 3) || c == 7
  | .accumulator, c => decide (c ≤ 3) || c == 6

/-- What MOD admits (R53, R199): zero; a rounding mode with SAT; SAT alone; or the second for a float type and the third otherwise. -/
inductive ModRule where
  | zero
  | round
  | sat
  | byType
  deriving DecidableEq, Repr

/-- Whether a MOD is admitted. -/
def ModRule.admits : ModRule → Nat → Nat → Bool
  | .zero, _, m => m == 0
  | .round, _, m => decide (m % 8 ≤ 4)
  | .sat, _, m => m % 8 == 0
  | .byType, ty, m => if ty ≤ 2 then decide (m % 8 ≤ 4) else m % 8 == 0

/-- A row of the master tables: types, MOD, sources, and the bits of AUX and IMM that an entry names. -/
structure OpRule where
  tys : List Nat
  md : ModRule
  sa : Src
  sb : Src
  sc : Src
  aux : Nat
  imm : Nat
  deriving DecidableEq, Repr

abbrev floatTys : List Nat := [0, 1, 2]
abbrev intTys : List Nat := [3, 4, 5, 6, 7, 8]
abbrev signedTys : List Nat := [3, 4, 5]
abbrev allTys : List Nat := [0, 1, 2, 3, 4, 5, 6, 7, 8]

/-- A row with one, two or three operands. -/
def row1 (tys : List Nat) (md : ModRule) : OpRule := ⟨tys, md, .value, .none, .none, 0, 0⟩
/-- Two operands. -/
def row2 (tys : List Nat) (md : ModRule) : OpRule := ⟨tys, md, .value, .value, .none, 0, 0⟩
/-- Three operands. -/
def row3 (tys : List Nat) (md : ModRule) : OpRule := ⟨tys, md, .value, .value, .value, 0, 0⟩
/-- An operation of R220. -/
def control (sa sb sc : Src) (aux imm : Nat) : OpRule := ⟨[0], .zero, sa, sb, sc, aux, imm⟩

/-- The master table of the arithmetic and lane operations (R199). -/
def arithmeticRule : Nat → Option OpRule
  | 0x00 => some (row2 floatTys .round)
  | 0x01 => some (row2 floatTys .round)
  | 0x02 => some (row2 floatTys .round)
  | 0x03 => some (row3 floatTys .round)
  | 0x04 => some (row3 floatTys .round)
  | 0x05 => some (row3 floatTys .round)
  | 0x06 => some (row2 floatTys .zero)
  | 0x07 => some (row2 floatTys .zero)
  | 0x08 => some (row1 floatTys .zero)
  | 0x09 => some (row1 floatTys .zero)
  | 0x0A => some (row2 floatTys .zero)
  | 0x0B => some (row1 floatTys .zero)
  | 0x0C => some (row1 floatTys .zero)
  | 0x0D => some (row1 floatTys .zero)
  | 0x0E => some (row1 floatTys .zero)
  | 0x0F => some (row1 floatTys .zero)
  | 0x10 => some { row2 floatTys .zero with aux := 7 }
  | 0x11 => some (row1 floatTys .zero)
  | 0x20 => some (row2 intTys .sat)
  | 0x21 => some (row2 intTys .sat)
  | 0x22 => some { row2 intTys .sat with imm := 0x1F }
  | 0x23 => some { row2 intTys .sat with imm := 0x1F }
  | 0x24 => some (row2 intTys .zero)
  | 0x25 => some (row2 intTys .zero)
  | 0x26 => some (row3 intTys .sat)
  | 0x27 => some { row2 intTys .sat with imm := 0x1F }
  | 0x28 => some (row2 intTys .zero)
  | 0x29 => some (row2 intTys .zero)
  | 0x2A => some (row1 signedTys .sat)
  | 0x2B => some (row2 intTys .zero)
  | 0x2C => some (row2 intTys .zero)
  | 0x2D => some (row2 intTys .zero)
  | 0x2E => some (row1 intTys .zero)
  | 0x2F => some (row2 intTys .zero)
  | 0x30 => some (row2 intTys .zero)
  | 0x31 => some (row2 signedTys .zero)
  | 0x32 => some { row2 intTys .zero with aux := 7 }
  | 0x33 => some (row1 intTys .zero)
  | 0x40 => some ⟨allTys, .round, .value, .none, .none, 0xFF, 0⟩
  | 0x41 => some ⟨[1], .zero, .token, .token, .none, 0xFF, 0⟩
  | 0x42 => some ⟨[0], .round, .token, .none, .none, 0xFF, 0⟩
  | 0x43 => some (row3 allTys .zero)
  | 0x44 => some (row3 allTys .zero)
  | 0x45 => some (row1 allTys .zero)
  | 0x46 => some { row1 allTys .zero with imm := 0x1F }
  | 0x47 => some { row1 allTys .zero with imm := 0x1F }
  | 0x48 => some { row2 allTys .zero with imm := 0x3F }
  | 0x49 => some ⟨intTys, .zero, .token, .none, .none, 0, 0⟩
  | 0x50 => some (row1 allTys .byType)
  | 0x51 => some (row1 allTys .zero)
  | 0x52 => some (row1 allTys .zero)
  | 0x53 => some { row1 [0, 1, 2, 3] .byType with aux := 0x1F }
  | 0x54 => some (row1 allTys .zero)
  | 0x55 => some (row2 allTys .byType)
  | _ => none

/-- The table of the token-control, record and pool operations (R220). -/
def controlRule : Nat → Option OpRule
  | 0x60 => some (control .token .token .none 0 0)
  | 0x61 => some (control .token .token .token 0 0)
  | 0x62 => some (control .token .token .token 0 0)
  | 0x63 => some (control .token .token .none 0 0)
  | 0x64 => some (control .token .none .token 0 0)
  | 0x65 => some (control .token .none .none 0 0)
  | 0x66 => some (control .token .none .none 0 0)
  | 0x67 => some (control .token .none .none 0 0)
  | 0x68 => some (control .token .none .none 0 0)
  | 0x69 => some (control .token .none .none 7 0xFFFF)
  | 0x6A => some (control .token .none .none 1 0xFFFF)
  | 0x6B => some (control .token .optional .none 0 0)
  | 0x70 => some (control .token .none .none 0 0)
  | 0x71 => some (control .token .none .none 7 0)
  | 0x72 => some (control .token .token .none 7 0)
  | 0x73 => some (control .token .none .none 7 0)
  | 0x74 => some (control .token .optional .none 0 0)
  | 0x80 => some (control .optional .none .none 15 0)
  | 0x81 => some (control .token .token .none 0 0)
  | 0x82 => some (control .token .none .none 0 0xFF)
  | 0x83 => some (control .token .none .none 1 0)
  | 0x84 => some (control .token .token .none 0x1F 0)
  | _ => none

/-- The table of the matrix operations (R248). -/
def matrixRule (sa : Nat) : Nat → Option OpRule
  | 0x90 =>
    if sa = 6 then some ⟨[1], .round, .accumulator, .token, .none, 0x18, 0⟩
    else some ⟨[1], .zero, .accumulator, .none, .none, 7, 0⟩
  | 0x91 => some ⟨[1], .round, .token, .optional, .optional, 7, 0⟩
  | 0x92 => some ⟨[0], .round, .token, .optional, .none, 0, 0⟩
  | 0x93 => some ⟨[0], .round, .token, .optional, .none, 0, 0⟩
  | _ => none

/-- The row of an opcode, for a word with source SA. -/
def opRule (op sa : Nat) : Option OpRule :=
  if op < 0x60 then arithmeticRule op else if op < 0x90 then controlRule op else matrixRule sa op

/-- An element as a seal sees it. -/
structure Sealed where
  ea : Nat
  op : Nat
  w : Eow
  deriving DecidableEq, Repr

/-- An element of a plane. -/
def sealedOf (p : Plane) (ea : Nat) : Sealed :=
  { ea := ea, op := (fieldOf p ea 3 >>> 8).toNat, w := eowOf (eowField p ea) }

/-- AUX bits 7:4 and 3:0. -/
def auxHigh (w : Eow) : Nat := w.aux.toNat / 16
/-- AUX bits 3:0. -/
def auxLow (w : Eow) : Nat := w.aux.toNat % 16

/-- The ROLE of an element's matrix control (R244). -/
def roleOf (p : Plane) (ea : Nat) : Nat := (fieldOf p ea 0x38).toNat % 4

/-- Whether an operation drains an accumulator bank (R246). -/
def drainsBank (p : Plane) (e : Sealed) : Bool := (e.op == 0x91 && decide (2 ≤ roleOf p e.ea)) || e.op == 0x92 || e.op == 0x93

/-- RES of the drain fusion. -/
def residual (p : Plane) (ea : Nat) : Bool := (fieldOf p ea 0x3A).getLsbD 0

/-- The type that CVT, DEQ and QNT must hold in TY (R199). -/
def convertTy (w : Eow) : Nat := if auxHigh w ≤ 8 then auxHigh w else 0

/-- RIN as an operation requires it (R195, R208, R210, R248). -/
def rinOk (e : Sealed) : Bool :=
  let i := e.w.rin.toNat
  match e.op with
  | 0x40 => decide (i ≤ 2)
  | 0x42 => i == (if auxLow e.w = 0 then 3 else 2)
  | 0x93 => i == 1
  | _ => i == 0

/-- ROUT as an operation requires it; of CVT, whose RIN − ROUT is fixed, both fields are at fault where only the difference is wrong. -/
def routOk (e : Sealed) : Bool :=
  let o := e.w.rout.toNat
  match e.op with
  | 0x40 => decide (o ≤ 2)
  | 0x41 => o == 2
  | _ => o == 0

/-- RIN − ROUT of CVT (R208). -/
def groupOk (e : Sealed) : Bool :=
  e.op != 0x40 || !rinOk e || !routOk e ||
    laneWidth (auxHigh e.w) * 2 ^ e.w.rin.toNat == laneWidth (auxLow e.w) * 2 ^ e.w.rout.toNat

/-- MOD as a conversion between integer formats requires it (R208). -/
def modOk (e : Sealed) (r : OpRule) : Bool :=
  r.md.admits e.w.ty.toNat e.w.md.toNat &&
    !(e.op == 0x40 && intTys.contains (auxHigh e.w) && intTys.contains (auxLow e.w) && e.w.md.toNat % 8 != 0)

/-- TY as an operation requires it. -/
def tyOk (e : Sealed) (r : OpRule) : Bool :=
  if e.op = 0x40 then e.w.ty.toNat == convertTy e.w else r.tys.contains e.w.ty.toNat

/-- OE as an operation requires it (R210, R220). -/
def outputsOk (e : Sealed) : Bool :=
  match e.op with
  | 0x42 => e.w.oe == 3
  | 0x65 => e.w.oe == 0
  | 0x73 => e.w.oe == 0
  | 0x74 => e.w.oe == 0
  | _ => true

/-- AUX as an operation requires it. -/
def auxOk (p : Plane) (e : Sealed) (r : OpRule) : Bool :=
  let a := e.w.aux.toNat
  let hi := auxHigh e.w
  let lo := auxLow e.w
  a &&& (255 - r.aux) == 0 &&
    (match e.op with
    | 0x10 => decide (a % 8 ≤ 4)
    | 0x32 => decide (a % 8 ≤ 5)
    | 0x40 => decide (hi ≤ 0xA) && decide (lo ≤ 0xA) && hi != lo
    | 0x41 => hi == 1 && (lo == 0xB || lo == 0xC)
    | 0x42 => (hi == 0xB || hi == 0xC) && (lo == 0 || lo == 1)
    | 0x53 =>
      let lp := a / 2 % 8
      let wide := e.w.ty.toNat == 1 || e.w.ty.toNat == 2 || vcFormat p e.ea e.w.vco.toNat == some 1 ||
        vcFormat p e.ea e.w.vco.toNat == some 2
      decide (lp ≤ 5) && !(wide && lp == 0)
    | 0x69 => a % 2 == 1 || a / 2 % 4 == 0
    | 0x72 => a % 8 != 7
    | 0x84 => decide (lo ≤ 8)
    | 0x91 => decide (roleOf p e.ea < 2) || a % 8 == 0
    | _ => true)

/-- IMM as an operation requires it. -/
def immOk (e : Sealed) (r : OpRule) : Bool :=
  let v := e.w.imm.toNat
  let lw := laneWidth e.w.ty.toNat
  v &&& (65535 - r.imm) == 0 &&
    (match e.op with
    | 0x22 => decide (v % 32 < lw)
    | 0x23 => decide (v % 32 < lw)
    | 0x27 => decide (v % 32 < lw)
    | 0x48 => decide (v % 64 ≤ 256 / lw)
    | 0x69 => if e.w.aux.toNat % 2 = 0 then v != 0 else v == 0
    | 0x6A => e.w.aux.toNat % 2 == 0 || v == 0
    | _ => true)

/-- The sources as an operation requires them; a residual input is bound exactly when RES is 1 (R248). -/
def sourcesOk (p : Plane) (e : Sealed) (r : OpRule) : Bool :=
  r.sa.admits e.w.sa.toNat && r.sb.admits e.w.sb.toNat && r.sc.admits e.w.sc.toNat &&
    (e.op < 0x91 || ((e.w.sb.toNat != 7) == (drainsBank p e && residual p e.ea)))

/-- The fields 0x38–0x3A as an operation requires them (R244–R246); their reserved bits are checked with every field (`fieldMask`). -/
def matrixFaults (p : Plane) (e : Sealed) : List Nat :=
  let m := fieldOf p e.ea 0x38
  let a := fieldOf p e.ea 0x39
  let f := fieldOf p e.ea 0x3A
  let usesM := e.op == 0x90 || e.op == 0x91
  let d := drainsBank p e
  (if if usesM then (e.op == 0x91 && decide (2 ≤ roleOf p e.ea) && m.extractLsb' 2 2 != 0) else m != 0 then [0x38] else []) ++
  (if if d then a.extractLsb' 0 2 == 3 else a != 0 then [0x39] else []) ++
  (if !d && f != 0 then [0x3A] else [])

/-- The fields of an enabled element's operation that check 1 rejects. ROUT lies in FN 1 and FN 2, and both are named, so that the one of the lower
command is reported: DESIGN CHOICE (R189; log entry 63). -/
def operationFaults (p : Plane) (e : Sealed) : List Nat :=
  match opRule e.op e.w.sa.toNat with
  | none => [3]
  | some r =>
    (if tyOk e r && modOk e r then [] else [3]) ++
    (if sourcesOk p e r && outputsOk e then [] else [2]) ++
    (if rinOk e then [] else [2]) ++
    (if routOk e && groupOk e then [] else [2, 1]) ++
    (if auxOk p e r then [] else [1]) ++
    (if immOk e r then [] else [0]) ++
    (if e.op = 0x70 && (fieldOf p e.ea 5).extractLsb' 4 12 != 0 then [5] else []) ++
    (if e.op = 0x70 && (fieldOf p e.ea 7).extractLsb' 4 12 != 0 then [7] else []) ++
    matrixFaults p e

/-! ### Rates (R182, R209, R210, R216, R217, R222, R248) -/

/-- Sixteenths of a token that a firing takes at an input; none where the link imposes no equation. -/
def inputRate (e : Sealed) (i : Nat) : Option Nat :=
  let a := e.w.sa.toNat == i
  let b := e.w.sb.toNat == i
  let c := e.w.sc.toNat == i
  if !(a || b || c) then none
  else
    match e.op with
    | 0x41 => if a then some 16 else some 1
    | 0x61 => if c then some 16 else none
    | 0x62 => none
    | 0x64 => none
    | 0x6A => none
    | 0x6B => if e.w.sb.toNat < 4 && a then none else some 16
    | 0x73 => none
    | 0x74 => none
    | 0x80 => none
    | 0x81 => none
    | 0x83 => none
    | 0x84 => if b then none else some 16
    | 0x90 => if e.w.sa.toNat = 6 then some 16 else none
    | 0x91 => if a then some 16 else none
    | 0x92 => if a then some 16 else none
    | 0x93 => if a then some 32 else none
    | _ => some (16 * 2 ^ e.w.rin.toNat)

/-- The rate of an output: so many sixteenths a firing, so many tokens a round, or no equation. -/
inductive OutRate where
  | perFiring (n : Nat)
  | perRound (n : Nat)
  | free
  deriving DecidableEq, Repr

/-- The rate of an output. That of AMAX, for which its entry R217 declares none, counts as one token a round (log entry 46). -/
def outputRate (p : Plane) (e : Sealed) (o : Nat) : OutRate :=
  match e.op with
  | 0x42 => if o = 0 then .perFiring 16 else .perFiring 1
  | 0x53 =>
    let n := 2 ^ (e.w.aux.toNat / 2 % 8)
    .perRound (match vcFormat p e.ea e.w.vco.toNat with
      | some 1 => n / 2
      | some 2 => n / 2
      | _ => n)
  | 0x54 => .perRound 1
  | 0x60 => .free
  | 0x62 => .free
  | 0x64 => .free
  | 0x6A => .free
  | 0x81 => .free
  | 0x83 => .free
  | 0x90 => .free
  | 0x91 => if o = 0 then .perFiring 16 else .free
  | 0x92 => .free
  | 0x93 => .free
  | _ => .perFiring (16 * 2 ^ e.w.rout.toNat)

/-! ### Formats (R62, R182, R196, R219, R248) -/

/-- The formats that the output VC of an operation may have, if it needs one. -/
def outputFormats (e : Sealed) : Option (List Nat) :=
  let ty := e.w.ty.toNat
  match e.op with
  | 0x40 => some [auxHigh e.w]
  | 0x41 => some [1]
  | 0x42 => some [auxHigh e.w]
  | 0x53 => some (if ty = 3 then [3] else [0, 1, 2])
  | 0x55 => some [if ty ≤ 2 then 0 else if ty ≤ 5 then 3 else 6]
  | 0x6A => some [3]
  | 0x6B => some (List.range 16)
  | 0x71 => some [0, 3, 6, 0xF]
  | 0x80 => some [0xF]
  | 0x81 => some [0xF]
  | 0x84 => some [auxLow e.w]
  | 0x91 => some [0, 1, 2]
  | 0x92 => some [0, 1, 2]
  | 0x93 => some [0, 1, 2]
  | op => if op < 0x60 then some [ty] else none

/-- Whether the output VC of an enabled element is not bound to a format that its operation has, whatever OE holds (R219, R248). -/
def outputUnbound (p : Plane) (e : Sealed) : Bool :=
  let wants := if e.op = 0x91 && !drainsBank p e then none else outputFormats e
  match wants, vcFormat p e.ea e.w.vco.toNat with
  | none, _ => false
  | some _, none => true
  | some fs, some f => !fs.contains f

/-- The formats that operand k (0 SA, 1 SB, 2 SC) accepts, if the operation decodes its lanes. -/
def operandFormats (p : Plane) (e : Sealed) (k : Nat) : Option (List Nat) :=
  let res := match vcFormat p e.ea e.w.vco.toNat with
    | some 0 => [0]
    | _ => [1, 2]
  match e.op, k with
  | 0x40, 0 => some [auxLow e.w]
  | 0x41, 0 => some [auxLow e.w]
  | 0x41, 1 => some [0xD]
  | 0x42, 0 => some [auxLow e.w]
  | 0x90, 0 => some [1]
  | 0x91, 0 => some [1]
  | 0x91, 1 => some res
  | 0x91, 2 => some [1]
  | 0x92, 1 => some res
  | 0x93, 0 => some [0]
  | 0x93, 1 => some res
  | op, _ => if op < 0x60 then some [e.w.ty.toNat] else none

/-- Whether the tokens of an output may carry FOV = 1, so that check 5 passes over its links. -/
def mayOverride (p : Plane) (e : Sealed) (o : Nat) : Bool :=
  match e.op with
  | 0x42 => o == 1
  | 0x60 => true
  | 0x61 => true
  | 0x62 => true
  | 0x63 => true
  | 0x64 => true
  | 0x66 => true
  | 0x67 => true
  | 0x68 => true
  | 0x69 => true
  | 0x6B => true
  | 0x71 => o == 1
  | 0x82 => true
  | 0x83 => true
  | 0x90 => true
  | 0x91 => o == 0 || !drainsBank p e
  | _ => false

end Sys2Proof.Machine
end

