-- ==== Sys2Proof/Machine/Seal.lean ====
section
/-! DEFINITION. The checks of a seal in their order (R29, R43, R122, R170, R171, R182–R188, R233, R234, R243, R264, R288–R290). -/

namespace Sys2Proof.Machine

/-- The codes of the checks (R182). -/
abbrev cfgBadOp : BitVec 8 := 0x20
abbrev cfgZeroLoop : BitVec 8 := 0x21
abbrev cfgSlotBudget : BitVec 8 := 0x22
abbrev cfgRate : BitVec 8 := 0x23
abbrev fmtMismatch : BitVec 8 := 0x25
abbrev permitDeny : BitVec 8 := 0x26

/-- A failure of a check: the target, the command's index, the field and the detail bit (R122). -/
structure Failure where
  ea : Nat
  index : Nat
  fn : Nat
  detail : Bool
  deriving DecidableEq, Repr

/-- The index of a field that an earlier stream wrote, or of a whole-graph check. -/
abbrev noIndex : Nat := 0xFFFF_FFFF

/-- A route that begins at an output of the core, as traced at the seal. -/
structure Route where
  ea : Nat
  out : Nat
  t : Trace
  deriving DecidableEq, Repr

/-- What a seal looks at: the plane, the routes that begin in the core, and its enabled elements. -/
structure SealView where
  core : Nat
  plane : Plane
  routes : List Route
  elems : List Sealed
  deriving DecidableEq, Repr

/-- The view of a core's shadow plane; boxes of other cores are read from their shadow planes (R182). -/
def State.sealView (s : State) (core : Nat) : SealView :=
  let p := s.shadowPlane core
  { core := core, plane := p,
    routes := (List.range 64).flatMap fun ea => (List.range 2).flatMap fun o =>
      (receiverEntries p ea o).map fun e => ⟨ea, o, trace s.variant s.shadowPlane core ea o e⟩,
    elems := ((List.range 64).filter fun ea => enabled p ea).map (sealedOf p) }

/-- The element of an enabled address. -/
def SealView.elem? (v : SealView) (ea : Nat) : Option Sealed := v.elems.find? fun e => e.ea == ea

/-! ### Check 1: fields (R182, R184–R188, R263, R264, R288, R289) -/

/-- The bits that a field of a target may hold, for the fields that its table lists. -/
def fieldMask (ea fn : Nat) : Option (BitVec 16) :=
  if ea < 0x40 then
    if fn < 8 then some 0xFFFF
    else if fn < 0xC then some 0x03FF
    else if fn < 0xE then some 0xFFFF
    else if fn < 0x10 then some 0
    else if fn < 0x38 then some 0x00FF
    else if fn = 0x38 then some 0x7FFF
    else if fn = 0x39 then some 0x0BFF
    else if fn = 0x3A then some 0x3FFF
    else if fn = 0x3B then some 0x001F
    else if fn = 0x3C then some 0x0FFF
    else if fn < 0x3F then some 0x000F
    else if fn = 0x3F then some 0x003F
    else if fn < 0x48 then some 0xFFC0
    else none
  else if ea < 0x50 then
    match fn with
    | 0 => some 0x0FFF
    | 1 => some 0x003F
    | 2 => some 0xFFFF
    | 3 => some 0x03FF
    | _ => none
  else if ea < 0x58 then
    match fn with
    | 0 => some 0x7FFF
    | 1 => some 0x7F7F
    | 2 => some 0x00FF
    | _ => if 8 ≤ fn && fn < 0x10 then some 0x00FF else if 0x10 ≤ fn && fn < 0x18 then some 0x7F7F else none
  else if ea < 0x60 then (if fn = 0 then some 0x007F else none)
  else if ea = 0xF0 then
    if fn ≤ 0x10 then some 0x807F else if 0x18 ≤ fn && fn < 0x20 then some 0x8000 else none
  else none

/-- Whether a route entry is malformed in itself (R186). -/
def badEntry (e : BitVec 16) : Bool :=
  let i := (e.extractLsb' 12 3).toNat
  let o := (e.extractLsb' 9 3).toNat
  if e.getLsbD 15 then decide (6 ≤ i) || (decide (4 ≤ o) && e.extractLsb' 6 3 != 0) else e != 0

/-- Whether a listed field holds a value that check 1 rejects. -/
def badField (ea fn : Nat) (v : BitVec 16) : Bool :=
  match fieldMask ea fn with
  | none => true
  | some m =>
    v &&& ~~~m != 0 ||
      (decide (ea < 0x40) &&
        ((8 ≤ fn && fn < 0xC && (decide (4 ≤ (v.extractLsb' 4 3).toNat) || (v.extractLsb' 7 3 != 0 && v.extractLsb' 4 3 != 3))) ||
          (0x10 ≤ fn && fn < 0x30 && v.extractLsb' 0 4 == 0xE) || (fn = 0x39 && v.extractLsb' 0 2 == 3) || (0x40 ≤ fn && fn < 0x48 && badEntry v)))

/-- The fields of a used pool descriptor that check 1 rejects (R264). -/
def poolBad (p : Plane) (n : Nat) : List Nat :=
  if poolSlots p n = 0 then []
  else
    (if 2048 < poolSlots p n then [0] else []) ++ (if poolSsz p n < 9 || 16 < poolSsz p n then [1] else []) ++
      (if fieldOf p (0x40 + n) 2 = 0 then [2] else [])

/-- NST, LW and MODE of a stage-set descriptor of a plane. -/
def setStages (p : Plane) (k : Nat) : Nat := ((fieldOf p (0x50 + k) 0).extractLsb' 0 4).toNat

/-- The fields of a stage-set descriptor that check 1 rejects (R289). -/
def setBad (p : Plane) (k : Nat) : List Nat :=
  let f := fieldOf p (0x50 + k) 0
  let n := setStages p k
  let lw := (f.extractLsb' 6 4).toNat
  if n = 0 then []
  else
    (if n = 1 || 8 < n || f.extractLsb' 4 2 == 3 || lw < 2 || 12 < lw || f.extractLsb' 12 3 == 7 then [0] else []) ++
      ((List.range 8).flatMap fun j =>
        if n ≤ j then [8 + j, 0x10 + j].filter fun fn => fieldOf p (0x50 + k) fn != 0 else [])

/-- Whether a route reaches a port at all. -/
def Route.ends (r : Route) : Bool := r.t.port.isSome

/-- The failures of check 1: target and field. -/
def SealView.badOps (v : SealView) : List (Nat × Nat) :=
  let p := v.plane
  (p.filterMap fun e => if badField (e.1 / 256) (e.1 % 256) e.2 then some (e.1 / 256, e.1 % 256) else none) ++
  (v.elems.flatMap fun e => (operationFaults p e).map fun fn => (e.ea, fn)) ++
  ((v.routes.filter fun r => !r.ends).map fun r => (r.ea, 0xC + r.out)) ++
  ((List.range 16).flatMap fun n => (poolBad p n).map fun fn => (0x40 + n, fn)) ++
  ((List.range 8).flatMap fun k => (setBad p k).map fun fn => (0x50 + k, fn))

/-! ### Check 2: slots (R29, R171, R182, R185, R188, R264, R289) -/

/-- Whether a route ends at a port that does not take one: unbound, of another KIND, or without slots. -/
def State.badEnd (s : State) (r : Route) : Bool :=
  match r.t.port with
  | none => false
  | some (c, ea, i) =>
    let p := s.shadowPlane c
    !enabled p ea || bindKind p ea i != 1 || bindSlots p ea i == 0

/-- The core settings that name an output. -/
def endpointCount (p : Plane) (ea out : Nat) : Nat := (boundEndpoints p 0 ea out).length

/-- The lines that a pool occupies in each of its banks (R263). -/
def poolLines (p : Plane) (n : Nat) : Nat :=
  let sl := 2 ^ poolSsz p n / 64
  let b := (poolBanks p n).length
  if poolBySlot p n then (poolSlots p n + b - 1) / b * sl else poolSlots p n * sl / b

/-- The fields of a used pool descriptor that check 2 rejects (R264). -/
def poolBudget (p : Plane) (n : Nat) : List Nat :=
  if poolSlots p n = 0 then []
  else
    let sl := 2 ^ poolSsz p n / 64
    let meets (m : Nat) : Bool :=
      m != n && poolSlots p m != 0 && ((poolBanks p m).any fun b => (poolBanks p n).contains b) &&
        decide (poolBase p m < poolBase p n + poolLines p n) && decide (poolBase p n < poolBase p m + poolLines p m)
    (if !poolBySlot p n && poolSlots p n * sl % (poolBanks p n).length != 0 then [0] else []) ++
      (if 1024 < poolBase p n + poolLines p n then [3] else []) ++ (if (List.range 16).any meets then [2, 3] else [])

/-- CAP of a stage set. -/
def setCapacity (p : Plane) (k : Nat) : Nat := if setStages p k = 0 then 0 else ((fieldOf p (0x50 + k) 1).extractLsb' 0 7).toNat

/-- The members of stage j of set k: the elements with its SET and INDEX and a COST (R290). -/
def SealView.members (v : SealView) (k j : Nat) : List Sealed :=
  v.elems.filter fun e =>
    let f := fieldOf v.plane e.ea 0x3C
    (f.extractLsb' 0 3).toNat == k && (f.extractLsb' 3 3).toNat == j && f.extractLsb' 6 4 != 0

/-- The SIDE stages of a set. -/
def SealView.sideStages (v : SealView) (k : Nat) : Nat :=
  ((List.range (setStages v.plane k)).filter fun j =>
    (v.members k j).any fun e => (fieldOf v.plane e.ea 0x3C).getLsbD 10).length

/-- Whether an ENTRY or EXIT field names a port that the injection path does not feed (R289). -/
def badSetPort (p : Plane) (f : BitVec 16) : Bool :=
  let ea := (f.extractLsb' 0 6).toNat
  let i := (f.extractLsb' 6 2).toNat
  !enabled p ea || bindKind p ea i != 2 || bindSlots p ea i == 0

/-- The failures of check 2. -/
def State.slotBudget (s : State) (v : SealView) : List (Nat × Nat) :=
  let p := v.plane
  let caps := (List.range 8).map (setCapacity p)
  let sides := (List.range 8).map fun k => setCapacity p k * v.sideStages k
  let usedSets := (List.range 8).filter fun k => setStages p k != 0
  ((List.range 64).flatMap fun ea =>
    ((List.range 4).filter fun i => decide (8 < bindSlots p ea i)).map (fun i => (ea, 8 + i)) ++
    (if 32 < ((List.range 4).map (bindSlots p ea)).foldl (· + ·) 0 then
      ((List.range 4).filter fun i => bindSlots p ea i != 0).map fun i => (ea, 8 + i) else []) ++
    ((List.range 4).filter fun i => enabled p ea && bindKind p ea i == 3 && bindSlots p ea i == 0).map (fun i => (ea, 8 + i)) ++
    (((List.range 2).filter fun o => decide (4 < (receiverEntries p ea o).length + endpointCount p ea o)).map fun o => (ea, 0xC + o))) ++
  ((v.routes.filter s.badEnd).map fun r => (r.ea, 0xC + r.out)) ++
  (((List.range 8).filter fun n => decide (64 < (fieldOf p (0x58 + n) 0).toNat)).map fun n => (0x58 + n, 0)) ++
  ((List.range 16).flatMap fun n => (poolBudget p n).map fun fn => (0x40 + n, fn)) ++
  (if 64 < caps.foldl (· + ·) 0 || 64 < sides.foldl (· + ·) 0 then usedSets.map fun k => (0x50 + k, 1) else []) ++
  (usedSets.flatMap fun k =>
    ((2 :: (List.range (setStages p k)).map (8 + ·)).filter fun fn => badSetPort p (fieldOf p (0x50 + k) fn)).map fun fn => (0x50 + k, fn))

/-! ### Check 3: cycles through CARRY (R43) -/

/-- An edge of the link graph: producer, consumer, the slots of the link and the tokens of a firing. -/
structure Edge where
  src : Nat
  dst : Nat
  slots : Nat
  toks : Nat
  deriving DecidableEq, Repr

/-- The links that begin at a node, 64 × core + element, in the shadow planes of the cores as they stand at the seal. -/
def State.linksFrom (s : State) (node : Nat) : List Edge :=
  let core := node / 64
  let ea := node % 64
  let p := s.shadowPlane core
  if !enabled p ea then []
  else
    (List.range 2).flatMap fun o => (receiverEntries p ea o).filterMap fun e =>
      match (trace s.variant s.shadowPlane core ea o e).port with
      | some (c, x, i) =>
        if enabled (s.shadowPlane c) x then
          some ⟨node, 64 * c + x, bindSlots (s.shadowPlane c) x i, 2 ^ (sealedOf p ea).w.rout.toNat⟩
        else none
      | none => none

/-- The simple cycles through a node, each as its edges. -/
def cyclesFrom (links : Nat → List Edge) (start : Nat) : Nat → Nat → List Edge → List (List Edge)
  | 0, _, _ => []
  | fuel + 1, at_, path =>
    (links at_).flatMap fun e =>
      if e.dst = start then [path ++ [e]]
      else if path.any fun x => x.dst == e.dst then []
      else cyclesFrom links start fuel e.dst (path ++ [e])

/-- The element of a node, as its core's shadow plane holds it. -/
def State.nodeAt (s : State) (node : Nat) : Sealed := sealedOf (s.shadowPlane (node / 64)) (node % 64)

/-- Whether a permit pool of a core that the cycle passes bounds it: its PRMI and PRMO lie on the cycle, and the slots of the cycle
exceed its size times the tokens of a firing of each producer (R43). -/
def State.bounded (s : State) (cyc : List Edge) : Bool :=
  let slots := (cyc.map (·.slots)).foldl (· + ·) 0
  let t := (cyc.map (·.toks)).foldl (· + ·) 0
  let has (core op n : Nat) : Bool := cyc.any fun e =>
    e.src / 64 == core && (s.nodeAt e.src).op == op && (fieldOf (s.shadowPlane core) (e.src % 64) 0x3D).toNat == 8 + n
  ((cyc.map fun e => e.src / 64).eraseDups).any fun core => (List.range 8).any fun n =>
    has core 0x67 n && has core 0x68 n && decide ((fieldOf (s.shadowPlane core) (0x58 + n) 0).toNat % 128 * t < slots)

/-- The first elements, among those of the core, of the cycles through the core and a CARRY that no permit pool bounds (R43). -/
def State.zeroLoops (s : State) (v : SealView) : List Nat :=
  (v.elems.flatMap fun e => (cyclesFrom s.linksFrom (64 * v.core + e.ea) 24576 (64 * v.core + e.ea) []).filter fun c =>
      (c.any fun x => (s.nodeAt x.src).op == 0x62) && !s.bounded c).map fun c =>
    ((c.filter fun x => x.src / 64 == v.core).map fun x => x.src % 64).foldl min 64

/-! ### Check 4: rates (R170, R182, R187–R189, R228, R233, R234, R243, R289, R290) -/

/-- An equation of firing counts: node `a` times `x` equals node `b` times `y`; node 0 fires once a round. -/
structure RateEq where
  a : Nat
  x : Nat
  b : Nat
  y : Nat
  ea : Nat
  deriving DecidableEq, Repr

/-- The node of an element of a core. -/
def rateNode (core ea : Nat) : Nat := 1 + 64 * core + ea

/-- The equations of the links that begin in the core. -/
def State.rateEqs (s : State) (v : SealView) : List RateEq :=
  v.routes.filterMap fun r =>
    match v.elem? r.ea, r.t.port with
    | some e, some (c, ea, i) =>
      let p := s.shadowPlane c
      if !enabled p ea then none
      else
        match outputRate v.plane e r.out, inputRate (sealedOf p ea) i with
        | .free, _ => none
        | _, none => none
        | .perFiring n, some m => some ⟨rateNode v.core r.ea, n, rateNode c ea, m, r.ea⟩
        | .perRound n, some m => some ⟨0, 16 * n, rateNode c ea, m, r.ea⟩
    | _, _ => none

/-- A firing count, as a fraction. -/
abbrev Count := Nat × Nat

/-- The count of a node, if it has one. -/
def countOf (cs : List (Nat × Count)) (n : Nat) : Option Count := (cs.find? fun c => c.1 == n).map (·.2)

/-- Gives counts to nodes, one equation at a time: the next node that an equation with one known side fixes, or a fresh node. -/
def assignCounts (eqs : List RateEq) : Nat → List (Nat × Count) → List (Nat × Count)
  | 0, cs => cs
  | fuel + 1, cs =>
    let known (n : Nat) : Bool := (countOf cs n).isSome
    match eqs.find? fun q => known q.a != known q.b with
    | some q =>
      match countOf cs q.a, countOf cs q.b with
      | some (n, d), _ => assignCounts eqs fuel ((q.b, (n * q.x, d * q.y)) :: cs)
      | none, some (n, d) => assignCounts eqs fuel ((q.a, (n * q.y, d * q.x)) :: cs)
      | none, none => cs
    | none =>
      match eqs.find? fun q => !known q.a with
      | some q => assignCounts eqs fuel ((q.a, (1, 1)) :: cs)
      | none => cs

/-- The producers of links whose equations no firing counts meet. -/
def inconsistent (eqs : List RateEq) : List Nat :=
  let cs := assignCounts eqs (2 * eqs.length) [(0, (1, 1))]
  (eqs.filter fun q =>
    match countOf cs q.a, countOf cs q.b with
    | some (n, d), some (m, c) => n * q.x * c != m * q.y * d
    | _, _ => false).map (·.ea)

/-- The element next to one in a direction, within its core. -/
def insideNeighbour (ea dir : Nat) : Option Nat :=
  match dir with
  | 0 => if ea < 8 then none else some (ea - 8)
  | 1 => if ea % 8 = 7 then none else some (ea + 1)
  | 2 => if 56 ≤ ea then none else some (ea + 8)
  | _ => if ea % 8 = 0 then none else some (ea - 1)

/-- The successor of a head or middle element (R243). -/
def SealView.successor (v : SealView) (e : Sealed) : Option Sealed :=
  (insideNeighbour e.ea ((fieldOf v.plane e.ea 0x38).extractLsb' 2 2).toNat).bind v.elem?

/-- The elements whose chain is broken (R243). -/
def SealView.badChains (v : SealView) : List Nat :=
  let rows := v.elems.filter fun e => e.op == 0x91
  let gives := rows.filter fun e => decide (roleOf v.plane e.ea < 2)
  let takes (e : Sealed) : Bool := roleOf v.plane e.ea == 1 || roleOf v.plane e.ea == 2
  ((gives.filter fun e => match v.successor e with
    | some n => !(n.op == 0x91 && takes n)
    | none => true) ++
   (rows.filter fun e => takes e && (gives.filter fun g => (v.successor g).any fun n => n.ea == e.ea).length != 1)).map (·.ea)

/-- The fields of an element that check 4 rejects. -/
def SealView.elementRates (v : SealView) (e : Sealed) : List Nat :=
  let p := v.plane
  let named (i : Nat) : Bool := e.w.sa.toNat == i || e.w.sb.toNat == i || e.w.sc.toNat == i
  let pf := fieldOf p e.ea 0x3D
  let st := fieldOf p e.ea 0x3C
  let set := (st.extractLsb' 0 3).toNat
  let idx := (st.extractLsb' 3 3).toNat
  let member := st.extractLsb' 6 4 != 0
  let rw := fieldOf p (0x50 + set) (0x10 + idx)
  ((List.range 4).filter fun i => bindKind p e.ea i != 0 &&
      (!named i || (bindKind p e.ea i == 3 && !(fieldOf p 0xF0 (0x18 + bindEngine p e.ea i)).getLsbD 15))).map (8 + ·) ++
  ((List.range 2).filter fun o => e.w.oe.getLsbD o && (receiverEntries p e.ea o).isEmpty && endpointCount p e.ea o == 0).map (0xC + ·) ++
  (if pf.getLsbD 3 && fieldOf p (0x58 + (pf.extractLsb' 0 3).toNat) 0 == 0 then [0x3D] else []) ++
  (if (e.op == 0x67 || e.op == 0x68) && !pf.getLsbD 3 then [0x3D] else []) ++
  (if e.op == 0x73 && setStages p (e.w.aux.toNat % 8) == 0 then [1] else []) ++
  (if e.op == 0x74 && !member then [0x3C] else []) ++
  (if e.op == 0x80 && poolSlots p (auxLow e.w) == 0 then [1] else []) ++
  (if member && decide (setStages p set ≤ idx) then [0x3C] else []) ++
  (if member && (v.members set idx).any (fun m => (fieldOf p m.ea 0x3C).extractLsb' 6 5 != st.extractLsb' 6 5) then [0x3C] else []) ++
  (if member && e.op == 0x71 && (e.w.aux.toNat % 8 == 7 || !rw.getLsbD (e.w.aux.toNat % 8)) then [1] else []) ++
  (if member && e.op == 0x72 && !rw.getLsbD (8 + e.w.aux.toNat % 8) then [1] else [])

/-- The fields of a stage set that check 4 rejects (R289). -/
def SealView.setRates (v : SealView) (k : Nat) : List Nat :=
  let p := v.plane
  let stages := List.range (min 8 (setStages p k))
  let rm (j : Nat) : BitVec 7 := (fieldOf p (0x50 + k) (0x10 + j)).extractLsb' 0 7
  let wm (j : Nat) : BitVec 7 := (fieldOf p (0x50 + k) (0x10 + j)).extractLsb' 8 7
  (stages.filter fun j => stages.any fun i => i != j && wm j &&& (rm i ||| wm i) != 0).map (0x10 + ·) ++
    (stages.filter fun j => !(v.members k j).any fun e => e.op == 0x74).map (8 + ·)

/-- The failures of check 4 that have a field. -/
def SealView.rates (v : SealView) : List (Nat × Nat) :=
  (v.elems.flatMap fun e => (v.elementRates e).map fun fn => (e.ea, fn)) ++
  (v.badChains.map fun ea => (ea, 0x38)) ++
  ((List.range 8).flatMap fun k => (v.setRates k).map fun fn => (0x50 + k, fn))

/-! ### Check 5: formats (R182, R196, R219, R248) -/

/-- The operands that take an input. -/
def operandsAt (e : Sealed) (i : Nat) : List Nat :=
  (List.range 3).filter fun k => (match k with | 0 => e.w.sa.toNat | 1 => e.w.sb.toNat | _ => e.w.sc.toNat) == i

/-- Whether a receiver's binding of a VC is not accepted by the operands that take a port (R62). -/
def unaccepted (p : Plane) (ea i vc : Nat) : Bool :=
  let e := sealedOf p ea
  (operandsAt e i).any fun k =>
    match operandFormats p e k, vcFormat p ea vc with
    | none, _ => false
    | some _, none => true
    | some fs, some f => !fs.contains f

/-- The failures of check 5; for a receiver in another core, at the producer's output. -/
def State.formats (s : State) (v : SealView) : List (Nat × Nat) :=
  ((v.elems.filter (outputUnbound v.plane)).map fun e => (e.ea, 0x10 + e.w.vco.toNat)) ++
  (v.routes.filterMap fun r =>
    match v.elem? r.ea, r.t.port with
    | some e, some (c, ea, i) =>
      let p := s.shadowPlane c
      if enabled p ea && !mayOverride v.plane e r.out && unaccepted p ea i e.w.vco.toNat then
        some (if c = v.core then (ea, 0x10 + e.w.vco.toNat) else (r.ea, 0xC + r.out))
      else none
    | _, _ => none)

/-! ### Check 6: permits (R173, R182, R264) -/

/-- The owner tag of a core, and of one of its banks (R401). -/
def State.coreTag (s : State) (core : Nat) : BitVec 6 := Sparse.get 0 s.ctag core
/-- BTAG. -/
def State.bankTag (s : State) (core b : Nat) : BitVec 6 := Sparse.get 0 s.btag (16 * core + b)

/-- The failures of check 6. -/
def State.denials (s : State) (v : SealView) : List (Nat × Nat) :=
  let tag := (s.core v.core).ctxTag
  ((v.routes.filter fun r =>
      r.t.crossings.any (fun x => !s.fabricPermit x.1 x.2.1 x.2.2) || r.t.boxes.any fun b => s.coreTag b.1 != tag).map fun r =>
    (r.ea, 0xC + r.out)) ++
  (((List.range 16).filter fun n => poolSlots v.plane n != 0 &&
      (poolBanks v.plane n).any fun b => s.bankTag v.core b != tag || Sparse.get false s.reserve (16 * v.core + b)).map fun n => (0x40 + n, 2))

/-! ### The seal (R122, R182) -/

/-- The failures of fields, with the index of the command that wrote each. -/
def Core.failuresAt (c : Core) (fs : List (Nat × Nat)) : List Failure :=
  fs.map fun f => ⟨f.1, Sparse.get noIndex c.cfg.writers (256 * f.1 + f.2), f.2, false⟩

/-- The failures of a whole-graph check; its FN is not stated (log entry 14). -/
def failuresOf (detail : Bool) (eas : List Nat) : List Failure :=
  eas.map fun ea => ⟨ea, noIndex, (Config.unstated ea).toNat % 256, detail⟩

/-- The failures of each check, in the order of R182. -/
def State.sealFailures (s : State) (core : Nat) : List (BitVec 8 × List Failure) :=
  let c := s.core core
  let v := s.sealView core
  [ (cfgBadOp, c.failuresAt v.badOps ++ c.cfg.bad.map fun b => ⟨b.2.2, b.1, b.2.1, false⟩),
    (cfgSlotBudget, c.failuresAt (s.slotBudget v)),
    (cfgZeroLoop, failuresOf true (s.zeroLoops v)),
    (cfgRate, c.failuresAt v.rates ++ failuresOf false (inconsistent (s.rateEqs v))),
    (fmtMismatch, c.failuresAt (s.formats v)),
    (permitDeny, c.failuresAt (s.denials v)) ]

/-- The failure at the lowest target and command index; of two that share both, as fields that earlier streams wrote do, the earlier of the list: DESIGN
CHOICE (R182, R183; log entry 63). -/
def firstFailure : List Failure → Option Failure
  | [] => none
  | f :: fs =>
    match firstFailure fs with
    | none => some f
    | some g => if g.ea < f.ea || (g.ea = f.ea && g.index < f.index) then some g else some f

/-- The first check of a list that fails. -/
def firstCheck : List (BitVec 8 × List Failure) → Option (BitVec 8 × Failure)
  | [] => none
  | (code, fs) :: rest =>
    match firstFailure fs with
    | some f => some (code, f)
    | none => firstCheck rest

/-- TVAL of a failing check (R122). -/
def Failure.tval (f : Failure) : Word :=
  BitVec.ofNat 64 (f.index * 2 ^ 32 + f.detail.toNat * 2 ^ 16 + f.fn * 2 ^ 8 + f.ea)

/-- The code and TVAL of the failing check of a core's shadow plane, if one fails. -/
def State.sealFault (s : State) (core : Nat) : Option (BitVec 8 × Word) :=
  (firstCheck (s.sealFailures core)).map fun r => (r.1, r.2.tval)

end Sys2Proof.Machine
end

