-- ==== Sys2Proof/Machine/JournalCore.lean ====
section
/-! DEFINITION. The journal engine: keys and scopes (R345, R346), records and their copies (R348, R359), states (R349), application at
drains with conditional writes (R350–R353), progress (R354, R355), dependences and reverts (R356), and the shape digest (R361). -/

namespace Sys2Proof.Machine

/-! ### Virtual memory of an engine (R317, R320) -/

/-- Translates for a unit of a core, or for the management complex, which walks the tables without holding the translation. -/
def State.translateBy (s : State) (core : Option Nat) (tag : BitVec 6) (need : Need) (va : Word) : State × Except (BitVec 8) Nat :=
  match core with
  | some c => s.translate c tag need va
  | none =>
    if va.extractLsb' 55 9 != 0#9 then (s, .error xlateNp)
    else
      match s.walk tag va.toNat with
      | none => (s, .error xlateNp)
      | some e => (s, s.reach tag need va.toNat e)

/-- Bytes of a virtual range that lie in one 4 KiB granule of the physical map, which is contiguous there whatever the page's interleave
(R315). -/
def granuleLeft (va : Word) : Nat := 4096 - va.toNat % 4096

/-- Granules that `n` bytes can lie in. -/
def granulesFor (n : Nat) : Nat := n / 4096 + 2

/-- Reads bytes at a virtual address over the memory network from port die 0, granule by granule; a fault gives its code and address, and what is dropped
has no answer (R18). The first argument bounds the granules. -/
def State.readVirtual (core : Option Nat) (tag : BitVec 6) : Nat → State → Word → Nat → State × Except (BitVec 8 × Word) (List Byte)
  | 0, s, _, _ => (s, .ok [])
  | fuel + 1, s, va, n =>
    if n = 0 then (s, .ok [])
    else
      let k := min n (granuleLeft va)
      match s.translateBy core tag .read va with
      | (s, .error e) => (s, .error (e, va))
      | (s, .ok a) =>
        if s.portFate a != .arrives then (s.recordDeny (s.portFate a) tag, .error (noAnswer, va))
        else
        let s := s.applyPending a k
        match State.readVirtual core tag fuel s (va + BitVec.ofNat 64 k) (n - k) with
        | (t, .error e) => (t, .error e)
        | (t, .ok bs) => (t, .ok (readBytes s.mem a k ++ bs))

/-- Writes bytes at a virtual address, granule by granule; a fault gives its code and address and leaves the granules before it written. -/
def State.writeVirtual (core : Option Nat) (tag : BitVec 6) : Nat → State → Word → List Byte → State × Option (BitVec 8 × Word)
  | 0, s, _, _ => (s, none)
  | fuel + 1, s, va, bs =>
    if bs.isEmpty then (s, none)
    else
      let k := granuleLeft va
      match s.translateBy core tag .write va with
      | (s, .error e) => (s, some (e, va))
      | (s, .ok a) =>
        if s.portFate a != .arrives then (s.recordDeny (s.portFate a) tag, some (noAnswer, va))
        else
        let s := s.applyPending a (min k bs.length)
        State.writeVirtual core tag fuel { s with mem := writeBytes s.mem a (bs.take k) } (va + BitVec.ofNat 64 k) (bs.drop k)

/-- Reads `n` bytes. -/
def State.fetchBytes (s : State) (core : Option Nat) (tag : BitVec 6) (va : Word) (n : Nat) :
    State × Except (BitVec 8 × Word) (List Byte) :=
  State.readVirtual core tag (granulesFor n) s va n

/-- Writes bytes. -/
def State.putBytes (s : State) (core : Option Nat) (tag : BitVec 6) (va : Word) (bs : List Byte) : State × Option (BitVec 8 × Word) :=
  State.writeVirtual core tag (granulesFor bs.length) s va bs

/-- The qwords of some bytes. -/
def qwordsOf (bs : List Byte) : List Word :=
  (List.range (bs.length / 8)).map fun i => BitVec.ofNat 64 (bytesNat ((bs.drop (8 * i)).take 8))

/-! ### Keys (R345, R346) -/

/-- KT. -/
def keyType (k : BitVec 32) : Nat := (k.extractLsb' 30 2).toNat
/-- The core index. -/
def keyCore (k : BitVec 32) : Nat := (k.extractLsb' 21 9).toNat
/-- The first EA. -/
def keyFirst (k : BitVec 32) : Nat := (k.extractLsb' 13 8).toNat
/-- The last EA. -/
def keyLast (k : BitVec 32) : Nat := (k.extractLsb' 5 8).toNat
/-- The group. -/
def keyGroup (k : BitVec 32) : Nat := (k.extractLsb' 2 3).toNat
/-- CORE of a KT 1 key. -/
def keyIsCore (k : BitVec 32) : Bool := k.getLsbD 16
/-- The bank of a KT 1 key. -/
def keyBank (k : BitVec 32) : Nat := (k.extractLsb' 17 4).toNat
/-- The partition of a KT 2 key. -/
def keyPart (k : BitVec 32) : BitVec 5 := k.extractLsb' 16 5
/-- The policy id of a KT 2 key. -/
def keyPolicy (k : BitVec 32) : Nat := (k.extractLsb' 0 16).toNat
/-- The elements or targets of a KT 0 key. -/
def keyRange (k : BitVec 32) : List Nat := (List.range (keyLast k + 1 - keyFirst k)).map (keyFirst k + ·)

/-- Whether two keys overlap (R346). -/
def keysOverlap (a b : BitVec 32) : Bool :=
  keyType a == keyType b &&
    match keyType a with
    | 0 => keyCore a == keyCore b && keyGroup a == keyGroup b && decide (keyFirst a ≤ keyLast b) && decide (keyFirst b ≤ keyLast a)
    | 1 => keyCore a == keyCore b && (keyIsCore a || keyIsCore b || keyBank a == keyBank b)
    | 2 => keyPart a == keyPart b && keyPolicy a == keyPolicy b
    | _ => keyCore a == keyCore b

/-- Whether two transactions have keys that overlap. -/
def TxRecord.meets (t u : TxRecord) : Bool := t.entries.any fun e => u.entries.any fun f => keysOverlap e.key f.key

/-! ### Scopes (R344, R346, R348) -/

/-- PART. -/
def scopePart (sc : BitVec 40) : BitVec 5 := sc.extractLsb' 0 5
/-- OX. -/
def scopeX (sc : BitVec 40) : Nat := (sc.extractLsb' 8 8).toNat
/-- OY. -/
def scopeY (sc : BitVec 40) : Nat := (sc.extractLsb' 16 8).toNat
/-- EX; zero for the whole partition. -/
def scopeW (sc : BitVec 40) : Nat := (sc.extractLsb' 24 8).toNat
/-- EY. -/
def scopeH (sc : BitVec 40) : Nat := (sc.extractLsb' 32 8).toNat

/-- A scope from its fields. -/
def scopeOf (part : BitVec 5) (x y w h : Nat) : BitVec 40 :=
  BitVec.ofNat 40 (part.toNat + x % 256 * 2 ^ 8 + y % 256 * 2 ^ 16 + w % 256 * 2 ^ 24 + h % 256 * 2 ^ 32)

/-- The scope of a whole partition. -/
def partScope (part : BitVec 5) : BitVec 40 := scopeOf part 0 0 0 0

/-- Whether a core lies in a scope. -/
def State.inScope (s : State) (sc : BitVec 40) (core : Nat) : Bool :=
  decide (core < s.variant.coreCount) &&
    if scopeW sc = 0 then s.partOf core == some (scopePart sc)
    else
      let x := s.variant.cx core
      let y := s.variant.cy core
      decide (scopeX sc ≤ x) && decide (x < scopeX sc + scopeW sc) && decide (scopeY sc ≤ y) && decide (y < scopeY sc + scopeH sc)

/-- The cores of a scope, in ascending index. -/
def State.scopeCores (s : State) (sc : BitVec 40) : List Nat := (List.range s.variant.coreCount).filter (s.inScope sc)

/-- The lead core of a scope: its origin, or the lowest core of the partition (R344). -/
def State.scopeLead (s : State) (sc : BitVec 40) : Nat :=
  if scopeW sc = 0 then ((s.scopeCores sc).head?).getD 0 else s.variant.coreAt (scopeX sc) (scopeY sc)

/-- Whether a key lies in a scope (R346). -/
def State.keyTouches (s : State) (sc : BitVec 40) (k : BitVec 32) : Bool :=
  if keyType k = 2 then scopeW sc == 0 && keyPart k == scopePart sc else s.inScope sc (keyCore k)

/-- Whether a transaction touches a scope (R346). -/
def State.touches (s : State) (t : TxRecord) (sc : BitVec 40) : Bool := t.entries.any fun e => s.keyTouches sc e.key

/-- The refusal of a scope operand, if it is refused (R364): OPERAND for a reserved bit or an empty rectangle, DENIED for one outside
the partition. -/
def State.scopeRefusal (s : State) (part : BitVec 5) (v : Word) : Option Nat :=
  let sc : BitVec 40 := v.extractLsb' 0 40
  if v.extractLsb' 40 24 != 0 || v.extractLsb' 5 3 != 0 || (scopeW sc != 0 && scopeH sc == 0) then some 2
  else if scopePart sc != part then some 3
  else if scopeW sc = 0 then none
  else
    let inside := decide (scopeX sc + scopeW sc ≤ s.variant.columns) && decide (scopeY sc + scopeH sc ≤ 12) &&
      (s.scopeCores sc).all fun c => s.partOf c == some part
    if inside then none else some 3

/-! ### Records (R344, R348) -/

/-- The codes of KIND, REASON and ORIGIN that the model names. -/
abbrev kindRevert : BitVec 4 := 4
/-- LOADED. -/
abbrev kindLoaded : BitVec 4 := 5

/-- The code of a state. -/
def TxState.code : TxState → Nat
  | .proposed => 0
  | .pending => 1
  | .applying => 2
  | .trial => 3
  | .confirmed => 4
  | .reverted => 5
  | .refused => 6

/-- Whether a transaction is in flight (R344). -/
def TxState.inFlight (st : TxState) : Bool := st.code < 3

/-- Whether a transaction stands: TRIAL or CONFIRMED. -/
def TxState.stands : TxState → Bool
  | .trial => true
  | .confirmed => true
  | _ => false

/-- A record by its number. -/
def State.tx (s : State) (n : Nat) : Option TxRecord := s.journal.records.find? fun t => t.num == n

/-- Changes a record in place. -/
def State.onTx (s : State) (n : Nat) (f : TxRecord → TxRecord) : State :=
  { s with journal := { s.journal with records := s.journal.records.map fun t => if t.num = n then f t else t } }

/-- The deltas of PAR. -/
def parentBits (n : Nat) (ps : List Nat) : Nat :=
  ((List.range 4).map fun i => match ps[i]? with
    | some p => (n - p) % 2 ^ 15 * 2 ^ (15 * i)
    | none => 0).foldl (· + ·) 0

/-- The qwords of a record as a copy holds them, BIMG and AIMG zero (R348). -/
def TxRecord.qwords (t : TxRecord) (gap : Nat) : List Nat :=
  let e : ImageEntry := (t.entries.head?).getD ⟨0, 0, 0, 0⟩
  [ t.num + t.kind.toNat * 2 ^ 48 + t.state.code * 2 ^ 52 + t.reason.toNat * 2 ^ 56 + t.origin.toNat * 2 ^ 60,
    t.scope.toNat,
    parentBits t.num t.parents + t.ovf.toNat * 2 ^ 63,
    if t.img then 2 ^ 63 else e.key.toNat + e.fn.toNat * 2 ^ 32,
    if t.img then t.entries.length % 256 * 2 ^ 56 else e.before.toNat + e.after.toNat * 2 ^ 32,
    min t.pbef 0xFFFFFF + min t.paft 0xFFFFFF * 2 ^ 24 + t.trial % 65536 * 2 ^ 48,
    t.odev.toNat + t.onum.toNat * 2 ^ 16,
    t.digest.toNat + t.aidx.toNat * 2 ^ 32 + min gap 0xFFFF * 2 ^ 48 ]

/-- The 64 bytes of a copy of a record. -/
def TxRecord.bytes (t : TxRecord) (gap : Nat) : List Byte := (t.qwords gap).flatMap fun q => bytesOf 8 q

/-! ### Subscriptions (R359, R373) -/

/-- Changes a subscription. -/
def State.onSub (s : State) (tag : BitVec 6) (n : Nat) (f : Subscription → Subscription) : State :=
  s.onCtx tag fun c => { c with subs := match Sparse.find c.subs n with
    | some b => Sparse.put c.subs n (f b)
    | none => c.subs }

/-- A translation fault on B or C ends a subscription and traps at its sequencer. -/
def State.endSub (s : State) (tag : BitVec 6) (n : Nat) (core : Nat) (code : BitVec 8) (va : Word) : State :=
  (s.onCtx tag fun c => { c with subs := Sparse.drop c.subs n }).raise core code 6 n va

/-- A copy is skipped and counted in GAP: the ring is full, or the copy is dropped on its way (R359; log entry 59). -/
def State.skipCopy (s : State) (tag : BitVec 6) (n : Nat) : State := s.onSub tag n fun b => { b with gap := b.gap + 1 }

/-- Delivers a copy of a record to a subscription; WC − RC ≥ N, on unbounded integers, finds the ring full (R8, R359). -/
def State.deliverCopy (s : State) (tag : BitVec 6) (n : Nat) (t : TxRecord) : State :=
  match Sparse.find (s.ctx tag).subs n with
  | none => s
  | some b =>
    match s.translate b.core tag .write b.c with
    | (s, .error e) => if e = noAnswer then s.skipCopy tag n else s.endSub tag n b.core e b.c
    | (s, .ok a) =>
      if s.portFate a != .arrives then (s.recordDeny (s.portFate a) tag).skipCopy tag n
      else
      let s := s.applyPending a 16
      let wc := readMem s.mem a 8
      let rc := readMem s.mem (a + 8) 8
      if rc + 2 ^ b.logn ≤ wc then s.skipCopy tag n
      else
        let va := b.b + BitVec.ofNat 64 (64 * (wc % 2 ^ b.logn))
        match s.translate b.core tag .write va with
        | (s, .error e) => if e = noAnswer then s.skipCopy tag n else s.endSub tag n b.core e va
        | (s, .ok r) =>
          if s.portFate r != .arrives then (s.recordDeny (s.portFate r) tag).skipCopy tag n
          else
          let s := s.applyPending r 64
          let mem := writeBytes s.mem r (t.bytes b.gap)
          let s := { s with mem := writeBytes mem a (bytesOf 8 ((wc + 1) % 2 ^ 64)) }
          (s.onSub tag n fun b => { b with gap := 0 }).send b.core b.core .event

/-- The subscriptions of the device. -/
def State.subscriptions (s : State) : List (BitVec 6 × Nat × Subscription) :=
  s.ctxs.flatMap fun c => c.2.subs.map fun b => (BitVec.ofNat 6 c.1, b.1, b.2)

/-- A record enters a state, and every subscription whose mask names the state and whose scope it touches gets a copy. -/
def State.changeTx (s : State) (n : Nat) (st : TxState) (reason : BitVec 4) : State :=
  let s := s.onTx n fun t => { t with state := st, reason := reason }
  match s.tx n with
  | none => s
  | some t =>
    (s.subscriptions.filter fun b => b.2.2.mask.getLsbD st.code && s.touches t b.2.2.scope).foldl
      (fun s b => s.deliverCopy b.1 b.2.1 t) s

/-! ### Policy words (R344, R345, R377, R387) -/

/-- A policy word that no transaction has written: TOL and TRIALDEF 0x10, else 0 (R344; log entry 2). -/
def policyDefault (id : Nat) : BitVec 32 := if id < 2 then 0x10 else 0

/-- A policy word. -/
def State.policy (s : State) (part : BitVec 5) (id : Nat) : BitVec 32 :=
  Sparse.get (policyDefault id) s.journal.policy (65536 * part.toNat + id)

/-- TRIALDEF of a partition, not below TRIALMIN. -/
def State.trialDefault (s : State) (part : BitVec 5) : Nat := max s.journal.trialMin.toNat ((s.policy part 1).toNat % 65536)

/-- TOL of a partition. -/
def State.tolerance (s : State) (part : BitVec 5) : Nat := (s.policy part 0).toNat % 256

/-! ### Ownership (R274, R347, R353, R401, R403) -/

/-- The partition of a pool bank: that of its core unless a transaction has given it to another. -/
def State.bankPartOf (s : State) (core b : Nat) : BitVec 5 :=
  (Sparse.find s.bankPart (16 * core + b)).getD ((s.partOf core).getD 0)

/-- The KT 1 value of a bank. -/
def State.bankValue (s : State) (core b : Nat) : BitVec 32 :=
  BitVec.ofNat 32 ((s.bankPartOf core b).toNat + (Sparse.get false s.reserve (16 * core + b)).toNat * 128)

/-- The owner tag of the live context of a partition; 0 where there is none. -/
def State.tagOfPart (s : State) (part : BitVec 5) : BitVec 6 :=
  match s.ctxs.find? fun c => c.2.live && c.2.part == part with
  | some c => BitVec.ofNat 6 c.1
  | none => 0

/-- PERMIT of every core as CTAG and service give it: bits 0–3 the token fabric north, east, south and west, bits 4–7 the memory
network (R403). -/
def State.rewritePermits (s : State) : State :=
  let tag (c : Nat) : BitVec 6 := Sparse.get 0 s.ctag c
  let bit (c dir : Nat) : Nat := match s.variant.beside c dir with
    | none => 0
    | some d =>
      (tag c != 0 && tag c == tag d).toNat * 2 ^ dir + (s.inService c && s.inService d).toNat * 2 ^ (4 + dir)
  let put (m : Sparse (BitVec 8)) (c : Nat) : Sparse (BitVec 8) :=
    Sparse.set 0 m c (BitVec.ofNat 8 (bit c 0 + bit c 1 + bit c 2 + bit c 3))
  { s with permit := (List.range s.variant.coreCount).foldl put s.permit }

/-- A core goes to another partition at a launch completion: its scratch is zeroised, its tag and permits follow, and the handles of the
old owner that name it are no longer valid; its banks stay where they are (R72, R82, R353). What scopes have retired since an application is
as it was (R355). -/
def State.moveCore (s : State) (core : Nat) (part : BitVec 5) : State :=
  let old := (s.partOf core).getD 0
  let keep (m : Sparse (BitVec 5)) (b : Nat) : Sparse (BitVec 5) := Sparse.put m (16 * core + b) (s.bankPartOf core b)
  let void (c : Context) : Context :=
    if c.part = old then
      { c with handles := c.handles.map fun h => if h.2.core.toNat = core then (h.1, { h.2 with valid := false }) else h }
    else c
  let u := { s with bankPart := (List.range 16).foldl keep s.bankPart, corePart := Sparse.set 0 s.corePart core part,
                    unowned := s.unowned.filter (· != core), ctag := Sparse.set 0 s.ctag core (s.tagOfPart part),
                    ctxs := s.ctxs.map fun (c : Nat × Context) => (c.1, void c.2) }
  let units : Int := (s.core core).units
  let recount (t : TxRecord) : TxRecord :=
    { t with unitsAt := t.unitsAt + (if u.inScope t.scope core then units else 0) - (if s.inScope t.scope core then units else 0) }
  let u := { u with journal := { u.journal with records := u.journal.records.map recount } }
  (u.onCore core fun c => { c with scratch := [] }).rewritePermits

/-- A pool whose descriptor changes: every slot FREE, presence bits, reservations and ABFLT cleared, GEN as it stands (R265). -/
def Pool.reclaim (p : Pool) : Pool :=
  { p with slots := p.slots.map fun e => (e.1, { e.2.free with pres := [], byElem := false }), rsv := [], abflt := 0 }

/-- Writes a field of a plane. -/
def planeWrite (p : Plane) (ea fn : Nat) (v : BitVec 16) : Plane := Sparse.set (fieldDefault ea fn) p (256 * ea + fn) v

/-- A bank whose move has completed is its new owner's: every pool of the old owner that names it becomes unused, its reservations are
cleared, the fence is lifted, and its tag is that of its owner at this step (R274, R402). -/
def State.giveBank (s : State) (core b : Nat) (v : BitVec 32) : State :=
  let named := (List.range 16).filter fun n => (poolBanks (s.activePlane core) n).contains b
  let s := s.onCore core fun c =>
    (named.foldl (fun c n => { c.onPool n Pool.reclaim with cfg := { c.cfg with active := planeWrite c.cfg.active (0x40 + n) 0 0 } }) c).onBank b
      fun k => { k with bfnc := false, zeroising := false }
  { s with bankPart := Sparse.put s.bankPart (16 * core + b) (v.extractLsb' 0 5),
           reserve := Sparse.set false s.reserve (16 * core + b) (v.getLsbD 7),
           btag := Sparse.set 0 s.btag (16 * core + b) (s.tagOfPart (v.extractLsb' 0 5)) }

/-- The moves of a transaction that is refused are called off: the fences are lifted, and a bank that had been given its new tag gets the
old one back (R274, R353). -/
def State.cancelMoves (s : State) (n : Nat) : State :=
  (s.moves.filter fun m => m.txn == n).foldl
    (fun s m =>
      { s.onCore m.core (fun c => c.onBank m.bank fun k => { k with bfnc := false, zeroising := false }) with
          btag := Sparse.set 0 s.btag (16 * m.core + m.bank)
            (if m.done then s.tagOfPart (s.bankPartOf m.core m.bank) else Sparse.get 0 s.btag (16 * m.core + m.bank)) })
    { s with moves := s.moves.filter fun m => m.txn != n }

/-! ### Connected cores and retirement (R19, R441) -/

/-- Cores of some reached from others, by steps of the grid. -/
def State.spread (s : State) (cs : List Nat) : Nat → List Nat → List Nat
  | 0, r => r
  | fuel + 1, r =>
    let near (a b : Nat) : Bool :=
      let dx := max (s.variant.cx a) (s.variant.cx b) - min (s.variant.cx a) (s.variant.cx b)
      let dy := max (s.variant.cy a) (s.variant.cy b) - min (s.variant.cy a) (s.variant.cy b)
      dx + dy == 1
    let more := cs.filter fun c => !r.contains c && r.any (near c)
    if more.isEmpty then r else s.spread cs fuel (r ++ more)

/-- Whether some cores are connected, and not none. -/
def State.connected (s : State) (cs : List Nat) : Bool :=
  match cs with
  | [] => false
  | c :: _ => (s.spread cs cs.length [c]).length == cs.length

/-- Takes cores out of a partition: they are unowned, untagged, and the handles of its context that name them are no longer valid
(R82, R402, R441). -/
def State.dropCores (s : State) (part : BitVec 5) (cs : List Nat) : State :=
  let void (c : Context) : Context :=
    if c.part = part then
      { c with handles := c.handles.map fun h => if cs.contains h.2.core.toNat then (h.1, { h.2 with valid := false }) else h }
    else c
  let keep (m : Sparse (BitVec 5)) (c : Nat) : Sparse (BitVec 5) :=
    (List.range 16).foldl (fun m b => Sparse.put m (16 * c + b) (s.bankPartOf c b)) m
  { s with bankPart := cs.foldl keep s.bankPart, unowned := s.unowned ++ cs, ctag := s.ctag.filter fun e => !cs.contains e.1,
           ctxs := s.ctxs.map fun (c : Nat × Context) => (c.1, void c.2) }

/-- A core whose fault is lasting leaves its partition, which shrinks to the connected part that holds its lowest-indexed remaining core; the rest
becomes unowned. It is untagged, and never placed again (R441). -/
def State.retireCore (s : State) (core : Nat) : State :=
  let s := { s with lasting := s.lasting.filter (· != core), retired := s.retired ++ [core] }
  match s.partOf core with
  | none => { s with ctag := s.ctag.filter fun e => e.1 != core }.rewritePermits
  | some part =>
    let left := (List.range s.variant.coreCount).filter fun c => s.partOf c == some part && c != core
    let stay := match left with
      | [] => []
      | c :: _ => s.spread left left.length [c]
    (s.dropCores part (core :: left.filter fun c => !stay.contains c)).rewritePermits

/-! ### The shape digest (R361) -/

/-- The journaled fields of a target. -/
def journaledFields (ea : Nat) : List Nat :=
  if ea < 0x40 then (List.range 48).map (8 + ·) ++ (List.range 8).map (0x40 + ·)
  else if ea < 0x50 then List.range 4
  else if ea < 0x58 then [0, 1, 2] ++ (List.range 16).map (8 + ·)
  else []

/-- One step of the digest. -/
def digestStep (h : BitVec 32) (w : Nat) : BitVec 32 := mix32 (h ^^^ BitVec.ofNat 32 w)

/-- The digest of one core at a relative place. -/
def State.digestCore (s : State) (part : BitVec 5) (rel core : Nat) (h : BitVec 32) : BitVec 32 :=
  let p := s.activePlane core
  let h := (List.range 0x58).foldl (fun h ea =>
    (journaledFields ea).foldl (fun h fn => digestStep (digestStep h (rel * 65536 + ea * 256 + fn)) (fieldOf p ea fn).toNat) h) h
  (List.range 16).foldl (fun h b =>
    let st := if s.bankPartOf core b != part then 0 else if Sparse.get false s.reserve (16 * core + b) then 2 else 1
    digestStep h (rel * 65536 ||| 0xF000 ||| b * 16 ||| st)) h

/-- The rectangle of a scope: its own, or the bounding rectangle of the partition. -/
def State.scopeRect (s : State) (sc : BitVec 40) : Nat × Nat × Nat × Nat :=
  if scopeW sc ≠ 0 then (scopeX sc, scopeY sc, scopeW sc, scopeH sc)
  else
    let cs := s.scopeCores sc
    let xs := cs.map s.variant.cx
    let ys := cs.map s.variant.cy
    let x := xs.foldl min 32
    let y := ys.foldl min 12
    if cs.isEmpty then (0, 0, 0, 0) else (x, y, xs.foldl max 0 + 1 - x, ys.foldl max 0 + 1 - y)

/-- The shape digest of a scope; cores outside its partition are skipped. -/
def State.shapeDigest (s : State) (sc : BitVec 40) : BitVec 32 :=
  let (x, y, w, h) := s.scopeRect sc
  (List.range h).foldl (fun d ry => (List.range w).foldl (fun d rx =>
    let c := s.variant.coreAt (x + rx) (y + ry)
    if x + rx < s.variant.columns && y + ry < 12 && s.partOf c == some (scopePart sc) then
      s.digestCore (scopePart sc) (ry * 32 + rx) c d
    else d) d) 0

/-! ### Progress (R354, R355) -/

/-- The windows of a lead core. -/
def State.leadWindows (s : State) (core : Nat) : LeadWindows := Sparse.get { index := 0, snaps := [] } s.journal.windows core

/-- The units that the cores of a scope have retired. -/
def State.scopeUnits (s : State) (sc : BitVec 40) : Nat := ((s.scopeCores sc).map fun c => (s.core c).units).foldl (· + ·) 0

/-- The units that the cores of a scope had retired at a window's end. -/
def State.snapUnits (s : State) (sc : BitVec 40) (snap : Sparse Nat) : Nat :=
  ((s.scopeCores sc).map fun c => Sparse.get 0 snap c).foldl (· + ·) 0

/-- B and PBEF of a scope now: how many of the last four windows are complete, and the mean over them. -/
def State.progressBefore (s : State) (sc : BitVec 40) : Nat × Nat :=
  let w := s.leadWindows (s.scopeLead sc)
  let b := min 4 w.index
  let snaps := w.snaps ++ [[]]
  if b = 0 then (0, 0)
  else (b, (s.snapUnits sc ((snaps[0]?).getD []) - s.snapUnits sc ((snaps[b]?).getD [])) / b)

/-! ### Versions, pins and dependences (R350, R356, R358) -/

/-- The version of a scope. -/
def State.versionOf (s : State) (sc : BitVec 40) : Nat :=
  let held := (s.journal.records.filter fun t => t.state.stands && s.touches t sc).map (·.num)
  let folded := (s.journal.base.filter fun e => s.keyTouches sc e.2.key).map (·.1)
  (held ++ folded).foldl max 0

/-- Whether a pin of any context, or of another context than `tag`, holds a scope that some transactions touch. -/
def State.pinned (s : State) (other : Option (BitVec 6)) (ts : List TxRecord) : Bool :=
  s.journal.pins.any fun p => other != some p.2.tag && ts.any fun t => s.touches t p.2.scope

/-- The transactions that T depends on as it enters APPLYING, the nearest first. -/
def State.dependences (s : State) (t : TxRecord) : List Nat :=
  ((s.journal.records.filter fun u =>
      decide (u.num < t.num) && (u.state == .applying || u.state.stands) && u.meets t).map (·.num)).reverse

/-- Whether T depends on U: as its record says once it has entered APPLYING; as its keys say while it waits. A REVERT depends on its members
besides, and what OVF adds is reckoned from the last parent of either. -/
def State.dependsOn (s : State) (t u : TxRecord) : Bool :=
  if t.deps.contains u.num || t.members.contains u.num then true
  else if t.state = .pending then (s.dependences t).contains u.num
  else
    t.parents.contains u.num ||
      (t.ovf && decide (((t.parents.getLast?).getD 0) ≤ u.num) && decide (u.num < t.num) &&
        (u.state == .applying || u.state.stands) && s.touches u (partScope (scopePart t.scope)))

/-- Whether a transaction can be caught in a closure. -/
def TxState.closes (st : TxState) : Bool := st == .pending || st == .applying || st.stands

/-- The closure of R356, by as many rounds as there are records. -/
def State.closure (s : State) : Nat → List TxRecord → List TxRecord
  | 0, c => c
  | fuel + 1, c =>
    let low := (c.map (·.num)).foldl min (2 ^ 48)
    let more := s.journal.records.filter fun v =>
      decide (low < v.num) && v.state.closes && !(c.any fun x => x.num == v.num) && c.any fun u => s.dependsOn v u
    if more.isEmpty then c else s.closure fuel (c ++ more)

/-! ### Application (R351–R353) -/

/-- Whether a transaction affects a launch. -/
def State.affectsLaunch (s : State) (t : TxRecord) (l : Launch) : Bool :=
  let plane := t.entries.filter fun e => keyType e.key != 2
  if plane.isEmpty then t.entries.any fun e => (l.cores s.variant).any fun c => s.partOf c == some (keyPart e.key)
  else plane.any fun e => (l.cores s.variant).contains (keyCore e.key)

/-- The lead cores of the running launches that a transaction affects, and of the saved ones: a save is no drain point, so what waits for
one goes on waiting until the launch has been restored and has drained (R395), but for a retirement, for which a save is enough (R441). -/
def State.affected (s : State) (t : TxRecord) : List Nat :=
  ((s.launches.filter fun l => l.placed && !(t.retires && l.saved) && s.affectsLaunch t l) ++
    s.savedLaunches.filter fun l => !t.retires && s.affectsLaunch t l && !(s.launches.any fun m => m.placed && m.id == l.id)).map s.launchLead

/-- Whether an entry changes a pool's GEOM.IL. -/
def ImageEntry.isGeom (e : ImageEntry) : Bool := keyType e.key == 0 && keyGroup e.key == 5 && e.fn == 1

/-- Whether a transaction is a core move that the service-target controller proposed (R387). -/
def TxRecord.isServiceMove (t : TxRecord) : Bool :=
  t.kind == 0 && t.origin == 1 && t.entries.any fun e => keyType e.key == 1 && keyIsCore e.key

/-- Whether what must come before an entry's drain point has come: its bank zeroised, its core without a launch, and after a launch completion
where the service-target controller moves it (R387; log entry 51), the slots of its pools FREE. -/
def State.entryReady (s : State) (t : TxRecord) (e : ImageEntry) : Bool :=
  if keyType e.key = 1 && keyIsCore e.key then !(if t.retires then s.runsOn (keyCore e.key) else (s.launchOf (keyCore e.key)).isSome) && (!t.isServiceMove || t.completed)
  else if keyType e.key = 1 then
    s.moves.all fun m => m.txn != t.num || m.core != keyCore e.key || m.bank != keyBank e.key || m.done
  else if e.isGeom then
    (keyRange e.key).all fun ea => ((s.core (keyCore e.key)).pool (ea - 0x40)).slots.all fun p => p.2.state == slotFree
  else true

/-- Whether what must come before a transaction's drain point has come. -/
def State.prepared (s : State) (t : TxRecord) : Bool :=
  (s.moves.all fun m => m.txn != t.num || m.done) && t.entries.all (s.entryReady t)

/-- Whether a transaction is due at a drain point. -/
def State.isDue (s : State) (t : TxRecord) : Bool := t.state == .applying && s.prepared t

/-- The conditional write of an entry on a plane (R352). -/
def overlayEntry (p : Plane) (e : ImageEntry) : Plane :=
  (keyRange e.key).foldl
    (fun p ea =>
      if fieldOf p ea e.fn.toNat = e.before.setWidth 16 then planeWrite p ea e.fn.toNat (e.after.setWidth 16) else p) p

/-- The conditional writes of entries on the plane of one core. -/
def overlayEntries (core : Nat) (p : Plane) (es : List ImageEntry) : Plane :=
  (es.filter fun e => keyType e.key == 0 && keyCore e.key == core).foldl overlayEntry p

/-- The bits that a POLICY change may alter: MODE and LW, or IL (R347). -/
def policyMask (fn : BitVec 16) : BitVec 16 := if fn = 0 then 0x03F0 else 0x0020

/-- Applies one entry of a transaction: the entry with BEFORE recorded, or the reason of the refusal, which at application is always CHECK
(R349; log entry 51). A bank changes hands only by a move (R274). -/
def State.applyEntry (s : State) (t : TxRecord) (e : ImageEntry) : Except (BitVec 4) (State × ImageEntry) :=
  let c := keyCore e.key
  match keyType e.key with
  | 0 =>
    let p := s.activePlane c
    let fn := e.fn.toNat
    let now := fieldOf p (keyFirst e.key) fn
    let e' := if t.kind = kindRevert then e else { e with before := now.setWidth 32 }
    if t.kind ≠ kindRevert && (keyRange e.key).any (fun ea => fieldOf p ea fn != now) then .error 2
    else if t.kind = 3 && (e'.before ^^^ e'.after).setWidth 16 &&& ~~~policyMask e.fn != 0 then .error 2
    else
      .ok (s.onCore c fun k =>
        let k := if e.isGeom && e'.before != e'.after then (keyRange e.key).foldl (fun k ea => k.onPool (ea - 0x40) Pool.reclaim) k else k
        { k with cfg := { k.cfg with active := overlayEntry k.cfg.active e',
                                     shadow := if k.cfg.armed && k.cfg.overlaid then overlayEntry k.cfg.shadow e' else k.cfg.shadow } }, e')
  | 1 =>
    if t.retires then .ok (s.retireCore c, { e with before := BitVec.ofNat 32 ((s.partOf c).getD 0).toNat })
    else if keyIsCore e.key then
      .ok (s.moveCore c (e.after.extractLsb' 0 5), { e with before := BitVec.ofNat 32 ((s.partOf c).getD 0).toNat })
    else
      let moved := s.moves.any fun m => m.txn == t.num && m.core == c && m.bank == keyBank e.key
      .ok (if moved then s.giveBank c (keyBank e.key) e.after else s, { e with before := s.bankValue c (keyBank e.key) })
  | 2 =>
    let k := 65536 * (keyPart e.key).toNat + keyPolicy e.key
    .ok ({ s with journal := { s.journal with policy := Sparse.put s.journal.policy k e.after } },
      { e with before := s.policy (keyPart e.key) (keyPolicy e.key) })
  | _ => .ok ({ s with paths := Sparse.put s.paths c e.after }, { e with before := Sparse.get 0 s.paths c })

/-- Applies the entries that a test picks, in order; the others stay as they are. -/
def State.applyEntries (s : State) (t : TxRecord) (pick : ImageEntry → Bool) : List ImageEntry → Except (BitVec 4) (State × List ImageEntry)
  | [] => .ok (s, [])
  | e :: es =>
    match if pick e then s.applyEntry t e else .ok (s, e) with
    | .error r => .error r
    | .ok (s, e) =>
      match s.applyEntries t pick es with
      | .error r => .error r
      | .ok (s, es) => .ok (s, e :: es)

/-- Whether an entry changes a core that is among some. -/
def ImageEntry.on (e : ImageEntry) (cs : List Nat) : Bool := keyType e.key != 2 && cs.contains (keyCore e.key)

/-- The cores on which the entries of a transaction apply ahead of any drain, whatever its other cores still wait for: they run no launch, none of
theirs is saved, their own entries are ready, and they have not taken it yet (R351, R395). -/
def State.idleCores (s : State) (t : TxRecord) : List Nat :=
  ((t.entries.filter fun e => keyType e.key != 2).map fun e => keyCore e.key).filter fun c =>
    (s.launchOf c).isNone && !(s.savedLaunches.any fun l => (l.cores s.variant).contains c) && !t.taken.contains c &&
      t.entries.all fun e => !e.on [c] || s.entryReady t e

/-- What some cores have taken of a transaction is undone, the last entry first. -/
def State.untakeTx (s : State) (t : TxRecord) : State :=
  (t.entries.filter fun e => e.on t.taken).reverse.foldl (fun s e =>
    match s.applyEntry { t with kind := kindRevert } { e with before := e.after, after := e.before } with
    | .ok (s, _) => s
    | .error _ => s) s

/-- A transaction is refused: nothing of it applies, and the engine looks again for what it held up (R351). -/
def State.refuseTx (s : State) (n : Nat) (reason : BitVec 4) : State :=
  let s := match s.tx n with
    | some t => (s.untakeTx t).onTx n fun t => { t with taken := [] }
    | none => s
  ({ s.cancelMoves n with journal := { (s.cancelMoves n).journal with unsettled := true } }).changeTx n .refused reason

/-! ### Connected partitions (R19) -/

/-- Whether the partitions between which entries move cores are connected once they have moved, and none that a context owns is left without
cores; a retired core is moved no more (R19, R441; log entry 51). -/
def State.keepsPartitions (s : State) (es : List ImageEntry) : Bool :=
  let moves := es.filter fun e => keyType e.key == 1 && keyIsCore e.key
  let u := { s with corePart := moves.foldl (fun m (e : ImageEntry) => Sparse.set 0 m (keyCore e.key) (e.after.extractLsb' 0 5)) s.corePart,
                    unowned := s.unowned.filter fun c => !(moves.any fun e => keyCore e.key == c) }
  moves.all fun e => !s.retired.contains (keyCore e.key) && ([(s.partOf (keyCore e.key)).getD 0, e.after.extractLsb' 0 5]).all fun p =>
    let cs := u.scopeCores (partScope p)
    if cs.isEmpty then s.tagOfPart p == 0 else s.connected cs

/-- The state whose shadow planes are its active planes, in which a seal would check what is active. -/
def State.asShadow (s : State) : State :=
  { s with cores := s.cores.map fun e =>
      (e.1, { e.2 with cfg := { e.2.cfg with shadow := e.2.cfg.active, writers := [], bad := [] } }) }

/-- The cores whose planes a transaction's application concerns: those of its keys, and those of the regions it affects. -/
def State.concerned (s : State) (t : TxRecord) : List Nat :=
  ((t.entries.filter fun e => keyType e.key == 0).map fun e => keyCore e.key) ++
    if t.entries.any fun e => keyType e.key == 0 then
      (s.launches.filter fun l => l.placed && (s.affected t).contains (s.variant.coreAt l.ox l.oy)).flatMap fun l => l.cores s.variant
    else []

/-- Whether the overlaid planes of some cores pass checks 1–6: the active ones, and the armed shadows. -/
def State.planesPass (s : State) (cs : List Nat) : Bool :=
  (cs.all fun c => (s.asShadow.sealFault c).isNone) && cs.all fun c => !(s.core c).cfg.armed || (s.sealFault c).isNone

/-- The receivers of outputs traced again under the planes as they stand (R182). -/
def State.retrace (s : State) (cs : List Nat) : State :=
  let s := cs.foldl (fun s c => s.onCore c fun k => { k with cfg := { k.cfg with dests := allReceivers s.variant s.activePlane c } }) s
  (cs.filter fun c => (s.core c).cfg.armed).foldl
    (fun s c => s.onCore c fun k => { k with cfg := { k.cfg with shadowDests := allReceivers s.variant s.shadowPlane c } }) s

/-- Whether an entry changes a route. -/
def ImageEntry.isRoute (e : ImageEntry) : Bool := keyType e.key == 0 && (keyGroup e.key == 1 || keyGroup e.key == 4)

/-- A transaction applies on the cores that run no launch, at once; on the others it waits for their drain, and is undone where it is then
refused (R351; log entry 50). -/
def State.takeTx (s : State) (t : TxRecord) : State :=
  let idle := s.idleCores t
  if t.kind = kindRevert && s.pinned (some t.tag) [t] then s.refuseTx t.num 5
  else if !t.retires && !s.keepsPartitions t.entries then s.refuseTx t.num 2
  else
    match s.applyEntries t (fun e => e.on idle) t.entries with
    | .error r => s.refuseTx t.num r
    | .ok (u, es) =>
      let cs := ((t.entries.filter fun e => keyType e.key == 0).map fun e => keyCore e.key).filter idle.contains
      if !u.planesPass cs then s.refuseTx t.num 2
      else
        let u := if es.any (·.isRoute) then u.retrace cs else u
        u.onTx t.num fun x => { x with entries := es, taken := x.taken ++ idle }

/-- A transaction applies: whole, or refused with nothing of it. Cores that have taken it already keep it. -/
def State.applyTx (s : State) (t : TxRecord) : State :=
  if t.kind = kindRevert && s.pinned (some t.tag) [t] then s.refuseTx t.num 5
  else if !t.retires && !s.keepsPartitions t.entries then s.refuseTx t.num 2
  else
    match s.applyEntries t (fun e => !e.on t.taken) t.entries with
    | .error r => s.refuseTx t.num r
    | .ok (u, es) =>
      let cs := s.concerned t
      if !u.planesPass cs then s.refuseTx t.num 2
      else
        let u := if es.any (·.isRoute) then u.retrace cs else u
        let (b, pbef) := s.progressBefore t.scope
        let lead := s.scopeLead t.scope
        let u := { u with moves := u.moves.filter fun m => m.txn != t.num }
        let u := u.onTx t.num fun x =>
          { x with entries := es, taken := [], pbef := pbef, before := b, window := (s.leadWindows lead).index + 1, unitsAt := s.scopeUnits t.scope,
                   det := s.launches.any (fun l => l.placed && l.det && (l.cores s.variant).any (s.inScope t.scope)),
                   digest := u.shapeDigest t.scope, aidx := (s.core lead).cfg.idx }
        let undone := t.members.filter fun m => match u.tx m with
          | some x => x.state.stands
          | none => false
        let u := undone.foldl
          (fun u m => u.changeTx m .reverted (if t.members.head? = some m then (if t.auto then 6 else 7) else 8)) u
        u.changeTx t.num (if t.kind = kindRevert || t.trial = 0 then .confirmed else .trial) 0

/-! ### States (R349) -/

/-- Whether nothing keeps a transaction from APPLYING. -/
def State.unblocked (s : State) (t : TxRecord) : Bool :=
  !s.pinned none [t] &&
    !(s.journal.records.any fun u => u.num != t.num && u.state == .applying && u.meets t) &&
    !(s.moves.any fun m => m.txn != t.num && t.entries.any fun e =>
      keyType e.key == 1 && keyCore e.key == m.core && (keyIsCore e.key || keyBank e.key == m.bank))

/-- The moves of the banks that entries name, one a bank, to the value that the last entry of the bank gives it. -/
def movesTo (n : Nat) : List ImageEntry → List PartMove
  | [] => []
  | e :: es =>
    if es.any fun x => keyCore x.key == keyCore e.key && keyBank x.key == keyBank e.key then movesTo n es
    else ⟨n, keyCore e.key, keyBank e.key, e.after, false⟩ :: movesTo n es

/-- The bank moves that a transaction asks for: where it moves a bank, those of every bank it names (R353, R372). -/
def State.movesOf (s : State) (t : TxRecord) : List PartMove :=
  let ms := movesTo t.num (t.entries.filter fun e => keyType e.key == 1 && !keyIsCore e.key)
  if ms.any fun m => s.bankValue m.core m.bank != m.dest then ms else []

/-- A transaction enters APPLYING: its dependences are recorded, and the banks it moves are fenced. -/
def State.enterTx (s : State) (t : TxRecord) : State :=
  let ps := s.dependences t
  let ms := s.movesOf t
  let w := (s.leadWindows (s.scopeLead t.scope)).index + 1
  let s := s.onTx t.num fun x =>
    if t.kind = kindRevert then { x with window := w, deps := ps }
    else { x with window := w, parents := ps.take 4, ovf := decide (4 < ps.length) }
  let s := ms.foldl (fun s m => s.onCore m.core fun c => c.onBank m.bank fun k => { k with bfnc := true }) { s with moves := s.moves ++ ms }
  s.changeTx t.num .applying 0

/-- Transactions in the order in which they apply at one drain: every REVERT, then the others, in ascending number (R351). -/
def applyOrder (ts : List TxRecord) : List TxRecord :=
  (ts.filter fun t => t.kind == kindRevert) ++ ts.filter fun t => t.kind != kindRevert

/-- One move of the engine that waits for no drain: the first transaction that nothing keeps from APPLYING enters it; else the first
that is due and affects no running region applies; else the first that can applies on cores that run no launch. -/
def State.journalMove (s : State) : Option State :=
  match s.journal.records.find? fun t => t.state == .pending && s.unblocked t with
  | some t => some (s.enterTx t)
  | none =>
    match (applyOrder s.journal.records).find? fun t => s.isDue t && (s.affected t).isEmpty with
    | some t => some (s.applyTx t)
    | none => ((applyOrder s.journal.records).find? fun t => t.state == .applying && !(s.idleCores t).isEmpty).map s.takeTx

/-- The moves that wait for no drain, until none is left; a transaction makes at most four, and 64 are in flight. -/
def State.settleBy : Nat → State → State
  | 0, s => s
  | fuel + 1, s =>
    match s.journalMove with
    | some s => State.settleBy fuel s
    | none => s

/-- The journal after every move that waits for no drain. -/
def State.settleJournal (s : State) : State := State.settleBy 256 s

/-- A record that has been proposed goes on: to APPLYING or to PENDING (R349). -/
def State.proceedTx (s : State) (n : Nat) : State :=
  match s.tx n with
  | none => s
  | some t => (if s.unblocked t then s.enterTx t else s.changeTx n .pending 0).settleJournal

/-! ### New records (R348) -/

/-- Whether a record can fold, and what BASE takes of it. -/
def TxRecord.folds (t : TxRecord) : Option (List (Nat × ImageEntry)) :=
  match t.state with
  | .confirmed => some (t.entries.map fun e => (t.num, e))
  | .reverted => some []
  | .refused => some []
  | _ => none

/-- Makes room for one record: the oldest folds when 65,536 are held; none where it cannot. -/
def State.foldOldest (s : State) : Option State :=
  match s.journal.records with
  | [] => some s
  | t :: ts =>
    if s.journal.records.length < 65536 then some s
    else (t.folds).map fun es =>
      { s with journal := { s.journal with records := ts, base := s.journal.base ++ es, oldest := t.num + 1 } }

/-- Transactions in flight. -/
def State.inFlight (s : State) : Nat := (s.journal.records.filter fun t => t.state.inFlight).length

/-- Room for a transaction: an in-flight entry, a number with one after it, and a place for the record; none is FULL. -/
def State.roomForTx (s : State) : Option State :=
  if 64 ≤ s.inFlight || 0xFFFF_FFFF_FFFF ≤ s.journal.nextNum then none else s.foldOldest

/-- A record with nothing but its number. -/
def TxRecord.blank (n : Nat) : TxRecord :=
  { num := n, kind := 0, state := .proposed, reason := 0, origin := 0, scope := 0, parents := [], ovf := false, img := false,
    bimg := Config.imageOffset (2 * n), aimg := Config.imageOffset (2 * n + 1), entries := [], pbef := 0, paft := 0,
    trial := 0, odev := Config.deviceNumber, onum := BitVec.ofNat 48 n, digest := 0, aidx := 0, members := [],
    auto := false, deps := [], taken := [], tag := 0, age := 0, units := 0, windows := 0, before := 0, window := 0, unitsAt := 0, det := false,
    isOver := false, completed := false, retires := false }

/-- Records a proposal under the next number, in a state; the copies of its first state are delivered. -/
def State.recordTx (s : State) (st : TxState) (f : TxRecord → TxRecord) : State :=
  let n := s.journal.nextNum
  ({ s with journal := { s.journal with nextNum := n + 1, records := s.journal.records ++ [f (TxRecord.blank n)] } }).changeTx n st 0

/-- A core whose fault is lasting and on which no launch runs is to leave its partition: firmware proposes a PART of it, with no trial, once there is room
for its record (R440, R441; log entry 32). -/
def State.startRetirement (s : State) (core : Nat) : State :=
  if !s.lasting.contains core || s.runsOn core ||
      s.journal.records.any (fun t => t.retires && t.state.inFlight && t.entries.any fun e => keyCore e.key == core) then s
  else
    match s.partOf core, s.roomForTx with
    | none, _ => s.retireCore core
    | _, none => s
    | some part, some u =>
      let n := u.journal.nextNum
      let key : BitVec 32 := BitVec.ofNat 32 (2 ^ 30 + core * 2 ^ 21 + 2 ^ 16)
      (u.recordTx .proposed fun x =>
        { x with scope := scopeOf part 0 0 0 0, retires := true,
                 entries := [⟨key, 0, 0, (Config.unstated key.toNat).setWidth 32⟩] }).proceedTx n

/-! ### Reverts (R356, R369) -/

/-- The REVERT of a transaction: its number, or the refusal. Its entries undo the members', the last applied first. -/
def State.revertTx (s : State) (t : TxRecord) (tag : BitVec 6) (origin : BitVec 3) (auto : Bool) : Except Nat (State × Nat) :=
  let c := s.closure (s.journal.records.length + 1) [t]
  let live := c.filter fun u => u.state.stands
  let members := ((s.journal.records.filter fun u => live.any fun x => x.num == u.num).map (·.num)).reverse
  if s.pinned (if auto then none else some tag) live then .error 9
  else
    match s.roomForTx with
    | none => .error 1
    | some s =>
      let s := { s with journal := { s.journal with
        pins := s.journal.pins.filter fun p => !(live.any fun u => s.touches u p.2.scope) } }
      let s := (c.filter fun u => !u.state.stands).foldl (fun s u => s.refuseTx u.num 4) s
      let es := (members.filterMap s.tx).flatMap fun u => u.entries.reverse.map fun e => { e with before := e.after, after := e.before }
      let n := s.journal.nextNum
      let s := s.recordTx .proposed fun x =>
        { x with kind := kindRevert, origin := origin, scope := t.scope, parents := members.take 4, ovf := decide (4 < members.length),
                 img := decide (1 < es.length), entries := es, members := t.num :: members.filter (· != t.num), auto := auto, tag := tag }
      .ok (s.proceedTx n, n)

/-! ### The end of a trial (R354, R355) -/

/-- Whether a REVERT in flight undoes a transaction. -/
def State.beingReverted (s : State) (n : Nat) : Bool :=
  s.journal.records.any fun t => t.kind == kindRevert && t.state.inFlight && t.members.contains n

/-- PAFT of the complete windows of a trial. -/
def TxRecord.progressAfter (t : TxRecord) : Nat := if t.windows = 0 then 0 else t.units / t.windows

/-- The trial of a transaction ends, on the complete windows so far: confirmed, or reverted for want of progress. Where a REVERT in flight undoes it
already, or there is no room for one, its trial is over and it stands until a REVERT undoes it (R354; log entry 52). -/
def State.endTrial (s : State) (n : Nat) : State :=
  match s.tx n with
  | none => s
  | some t =>
    if t.state ≠ .trial then s
    else
      let s := s.onTx n fun t => { t with paft := t.progressAfter }
      let falls := !t.det && decide (1 ≤ t.before) && decide (1 ≤ t.windows) &&
        decide (t.progressAfter * 256 < t.pbef * (256 - s.tolerance (scopePart t.scope)))
      let ended := s.onTx n fun t => { t with isOver := true }
      if !falls then (s.changeTx n .confirmed 0).settleJournal
      else if s.beingReverted n then ended
      else
        match s.revertTx t t.tag 0 true with
        | .ok (s, _) => s.onTx n fun t => { t with isOver := true }
        | .error 9 => (s.changeTx n .confirmed 5).settleJournal
        | .error _ => ended

/-- The trials of deterministic launches that end at a drain point of some cores (R355). -/
def State.endCountedTrials (s : State) (cs : List Nat) : State :=
  (s.journal.records.filter fun t => t.state == .trial && t.det && cs.any (s.inScope t.scope) &&
      decide ((65536 * t.trial : Int) ≤ s.scopeUnits t.scope - t.unitsAt)).foldl (fun s t => s.endTrial t.num) s

/-! ### Drain points (R351, R352, R373) -/

/-- The standing changes to planes, in ascending number. -/
def State.standing (s : State) : List (List ImageEntry) :=
  s.journal.base.map (fun e => [e.2]) ++ (s.journal.records.filter fun t => t.state.stands).map (·.entries)

/-- One standing change overlays the incoming planes of some cores; a plane that then fails a check is left without it. -/
def State.overlayChange (cs : List Nat) (s : State) (es : List ImageEntry) : State :=
  let u := cs.foldl (fun u c => u.onCore c fun k => { k with cfg := { k.cfg with shadow := overlayEntries c k.cfg.shadow es } }) s
  (cs.filter fun c => (s.core c).cfg.shadow != (u.core c).cfg.shadow && (u.sealFault c).isSome).foldl
    (fun v c => v.onCore c fun k => { k with cfg := { k.cfg with shadow := (s.core c).cfg.shadow } }) u

/-- Every standing change overlays the incoming planes of some cores. -/
def State.overlayCores (s : State) (cs : List Nat) : State :=
  let u := s.standing.foldl (State.overlayChange cs) s
  if u = s then s
  else cs.foldl (fun u c => u.onCore c fun k => { k with cfg := { k.cfg with shadowDests := allReceivers u.variant u.shadowPlane c } }) u

/-- The held regions that wait for another region: those of a due transaction not all of whose regions have resolved, and those joined
to them by other due transactions. -/
def State.waitingRegions (s : State) (held : List Nat) (due : List TxRecord) : Nat → List Nat → List Nat
  | 0, w => w
  | fuel + 1, w =>
    let more := held.filter fun r => !w.contains r && due.any fun t =>
      let a := s.affected t
      a.contains r && a.any fun x => w.contains x || !held.contains x
    if more.isEmpty then w else s.waitingRegions held due fuel (w ++ more)

/-- The decision of a region's drain goes to each of its cores (R180). -/
def State.sendResolution (s : State) (r : RegionDrain) : State :=
  (s.region r.lead).foldl (fun s c => s.send r.lead c (.resolution r.stray)) s

/-- A drain point of the regions whose drains have resolved: the standing changes overlay the incoming planes, transactions apply to the
active planes and to those, and the regions that wait for no other go on. A plane that is armed only after this waits for the next drain
(R25, R352; log entry 49). -/
def State.drainPoint (s : State) : State :=
  let held := s.regions.map (·.lead)
  let due := s.journal.records.filter s.isDue
  let waiting := s.waitingRegions held due held.length []
  let go := held.filter fun r => !waiting.contains r
  let here (s : State) (t : TxRecord) : Bool :=
    let a := s.affected t
    s.isDue t && !a.isEmpty && a.all fun r => go.contains r
  let cores := go.flatMap s.region
  let armed := cores.filter fun c => (s.core c).cfg.armed && !(s.core c).cfg.overlaid
  let s := armed.foldl (fun s c => s.onCore c fun k => { k with cfg := { k.cfg with overlaid := true } }) (s.overlayCores armed)
  let s := (applyOrder (due.filter (here s))).foldl
    (fun s t => match s.tx t.num with
      | some t => if here s t then s.applyTx t else s
      | none => s) s
  let s := s.endCountedTrials cores
  let s := (s.regions.filter fun r => go.contains r.lead).foldl State.sendResolution s
  { s with regions := s.regions.filter fun r => !go.contains r.lead }.settleJournal

/-- A launch has completed on some cores: the trials of their scopes end, what was due at its drain applies, and a core that the service-target
controller moves between two partitions, one of which held some of these, may go (R351, R354, R387). -/
def State.launchDrainPoint (s : State) (cs : List Nat) : State :=
  let parts (t : TxRecord) : List (BitVec 5) := t.entries.flatMap fun e => [(s.partOf (keyCore e.key)).getD 0, e.after.extractLsb' 0 5]
  let mark (t : TxRecord) : TxRecord :=
    if t.state = .applying && t.isServiceMove && cs.any (fun c => (parts t).any fun p => s.partOf c == some p) then { t with completed := true } else t
  let s := { s with journal := { s.journal with records := s.journal.records.map mark } }
  let s := (s.journal.records.filter fun t => t.state == .trial && cs.any (s.inScope t.scope)).foldl (fun s t => s.endTrial t.num) s
  (s.settleJournal).drainPoint

/-- The engine looks again for what is due after a launch has ended or a transaction has been refused: held regions go on, idle cores take what they
may, and a trial that is over is reverted where no REVERT in flight does so any more (R351, R354). -/
def State.journalPoint (s : State) : State :=
  if !s.journal.unsettled then s
  else
    let s := { s with journal := { s.journal with unsettled := false } }.settleJournal.drainPoint
    (s.journal.records.filter fun t => t.state == .trial && t.isOver && !s.beingReverted t.num).foldl (fun s t => s.endTrial t.num) s

/-- A context is torn down: its transactions that have not applied are refused, its pins are released and its subscriptions end
(R349, R358). -/
def State.journalTeardown (s : State) (tag : BitVec 6) : State :=
  let s := (s.journal.records.filter fun t => t.tag == tag && (t.state == .pending || t.state == .applying)).foldl
    (fun s t => s.refuseTx t.num 9) s
  let s := { s with journal := { s.journal with
    pins := s.journal.pins.filter (fun p => p.2.tag != tag), calls := s.journal.calls,
    jobs := s.journal.jobs.filter fun j => j.tag != tag } }
  (s.onCtx tag fun c => { c with subs := [] }).settleJournal

end Sys2Proof.Machine
end

