-- ==== Sys2Proof/Machine/StreamIssue.lean ====
section
/-! DEFINITION. SHP.MK and the stream instructions (R143, R146–R149, R154, R156, R159–R161). -/

namespace Sys2Proof.Machine

/-! ### SHP.MK (R143) -/

/-- Fault codes of shapes (R157). -/
abbrev shapeAlign : BitVec 8 := 0x40
abbrev shapeExtent : BitVec 8 := 0x41
/-- GATHER_ALIGN (R157). -/
abbrev gatherAlign : BitVec 8 := 0x43

/-- Whether EXTk is wrong for the number of dimensions. -/
def Shape.badExtent (r : Shape) (k : Nat) : Bool := if k < r.dims then r.ext k == 0 else r.ext k != 0

/-- Whether ORGM names a dimension that is not used. -/
def Shape.badOrigins (r : Shape) : Bool := [1, 2, 3].any fun k => decide (r.dims ≤ k) && r.offsetBy k

/-- The tile bytes that the extents give. -/
def Shape.tileBytes (r : Shape) : Nat := 32 * ((List.range (r.tdim + 1)).map r.ext).foldl (· * ·) 1

/-- Whether TILE is wrong: not 0 and not 9–16, or other than the extents give. -/
def Shape.badTile (r : Shape) : Bool :=
  r.tile != 0 && (decide (r.tile < 9) || decide (16 < r.tile) || 2 ^ r.tile != r.tileBytes)

/-- The checks of a stride field at an offset, for dimension k. -/
def Shape.strideFault (r : Shape) (k : Nat) : Option (BitVec 8) :=
  let off := 8 + 8 * k
  if k < r.dims && r.bits off 0 40 % 32 != 0 then some shapeAlign
  else if (decide (r.dims ≤ k) && r.bits off 0 40 != 0) || r.bits (off + 5) 0 24 != 0 then some shapeExtent
  else none

/-- The checks of SHP.MK in their order: the offset of the field and the code. -/
def Shape.faults (r : Shape) : List (Nat × BitVec 8) :=
  ((List.range 4).filter r.badExtent).map (fun k => (4 * k, shapeExtent)) ++
  ([1, 2, 3].filterMap fun k => (r.strideFault k).map fun c => (8 + 8 * k, c)) ++
  (if r.fmt == 0xE || decide (r.dims ≤ r.tdim) || r.badOrigins || r.bits 0x28 13 4 != 0 || r.bits 0x28 20 12 != 0 then
    [(0x28, shapeExtent)] else []) ++
  (if r.badTile || r.bits 0x2C 5 27 != 0 then [(0x2C, shapeExtent)] else []) ++
  (if r.bits 0x34 4 28 != 0 then [(0x34, shapeExtent)] else []) ++
  (if r.bits 0x38 0 64 != 0 then [(0x38, shapeExtent)] else [])

/-- SHP.MK (R143). -/
def execShpMk (d a b : SReg) (p : PReg) (s : State) : Out :=
  s.guarded p <|
    let addr := s.here.reg a
    match scratchFault addr 64 64 with
    | some code => .next (s.precise code addr)
    | none =>
      let r : Shape := BitVec.ofNat 512 (readScratch s.here addr.toNat 64)
      match r.faults with
      | (off, code) :: _ => .next (s.precise code (BitVec.ofNat 64 off))
      | [] =>
        let n := (s.here.reg b).toNat % 32
        s.answer (s.on fun c => { c with shapes := Sparse.put c.shapes n r }) d 0

/-! ### The checks of an issue (R148, R149) -/

/-- The sources that an instruction accepts. -/
def StreamOp.accepts : StreamOp → Nat → Bool
  | .ld, k => k == 0
  | .sv, k => k == 1 || k == 2
  | .cp, _ => true
  | .ga, k => k == 0
  | .sc, k => k == 1 || k == 2
  | .upd, k => k == 1 || k == 2

/-- Whether the kinds and the number of destinations are allowed. -/
def StreamOp.delivers (op : StreamOp) (kinds : List Nat) : Bool :=
  match op with
  | .ld => !kinds.isEmpty && kinds.all fun k => k == 1 || k == 2
  | .ga => !kinds.isEmpty && kinds.all fun k => k == 1 || k == 2
  | .cp => !kinds.isEmpty && kinds.all fun k => decide (k ≤ 4)
  | _ => kinds == [3]

/-- The bits of an entry that its kind uses. -/
def entryMask (kind : Nat) : BitVec 128 :=
  let port : BitVec 128 := 0x303F#128 <<< 64
  match kind with
  | 1 => port
  | 2 => port ||| (0x0000_FFFF_8000_0000#128 <<< 64)
  | 3 => 0x007F_FFFF_FFFF_FFFF#128
  | 4 => 0x007F_FFFF_FFFF_FFFF#128 ||| (0xFFFF_0000_0000_0000#128 <<< 64)
  | _ => 0

/-- Whether a reserved bit of an entry is set. -/
def entryReserved (e : BitVec 128) : Bool := (e &&& ~~~(entryMask (destKind e) ||| (7#128 <<< 61))) != 0

/-- The operation that a UOP names (R94, R154). -/
def uopOf : Nat → Option AmoOp
  | 0x0 => some .add
  | 0x1 => some .fadd
  | 0x2 => some .badd
  | 0x3 => some .min
  | 0x4 => some .max
  | 0x5 => some .minn
  | 0x6 => some .maxn
  | 0x7 => some .and
  | 0x8 => some .or
  | 0x9 => some .xor
  | 0xA => some .swap
  | 0xC => some .incw
  | _ => none

/-- Whether a UOP fits the shape's format (R154). -/
def uopFits (uop fmt : Nat) : Bool :=
  match uopOf uop with
  | none => false
  | some .fadd => fmt == 0
  | some .badd => fmt == 1
  | some _ => fmt == 3 || fmt == 6

/-- The first fifth check of R149: kinds, reserved bits and fields that the instruction does not take. -/
def kindFault (op : StreamOp) (base ctl : Word) (sh : Shape) (dests : Vector (BitVec 128) 4) : Bool :=
  let used := dests.toList.filter fun e => destKind e != 0
  let src := ctlSource ctl
  !op.accepts src || !op.delivers (used.map destKind) || dests.toList.any entryReserved ||
    ctl.extractLsb' 14 2 != 0 || ctl.extractLsb' 36 28 != 0 ||
    (op != .upd && (ctlOrd ctl || ctlUop ctl != 0)) || (ctlCons ctl && src != 2) || (ctlDevice ctl != 0 && src != 3) ||
    (op == .upd && !uopFits (ctlUop ctl) sh.fmt) || (used.any fun e => destKind e == 2 && destReads e == 0) ||
    ((src == 0 || src == 3) && base.extractLsb' 55 9 != 0)

/-- Whether a remote device may be named by the context of a core (R149, R413). -/
def State.peerAllowed (s : State) (core : Nat) (device : BitVec 16) : Bool :=
  let x := s.ctx (s.core core).ctxTag
  x.peers.contains device && (!x.prot || (Sparse.find x.peerKeys device.toNat).isSome)

/-- Check 7: a pool's core outside the partition, or a device outside the peer set. -/
def State.streamDenied (s : State) (ctl : Word) (used : List (BitVec 128)) : Bool :=
  let core := s.cur.core
  used.any (fun e => (destKind e == 2 && !s.inPartition core (destCore e)) ||
      (destKind e == 4 && !s.peerAllowed core (destDevice e))) ||
    (ctlSource ctl == 3 && !s.peerAllowed core (ctlDevice ctl))

/-- Check 8. -/
def alignFault (op : StreamOp) (base ctl : Word) (used : List (BitVec 128)) : Bool :=
  ((ctlSource ctl == 0 || ctlSource ctl == 3) && base.toNat % 32 != 0) ||
    used.any fun e => (destKind e == 3 || destKind e == 4) && (destAddr e).toNat % (if op = .upd then 4 else 32) != 0

/-- Check 9. -/
def State.sizeFault (s : State) (ctl : Word) (sh : Shape) (used : List (BitVec 128)) : Bool :=
  let pools := used.filter fun e => destKind e == 2
  (sh.tile == 0 && (ctlSource ctl == 2 || !pools.isEmpty)) ||
    pools.any fun e =>
      let c := s.core (destCore e)
      c.poolSize sh.pool == 0 || poolSsz c.cfg.active sh.pool != sh.tile

/-- Check 10. -/
def State.noRoute (s : State) (ctl : Word) (used : List (BitVec 128)) : Bool :=
  let rs := s.here.streamReceivers (ctlEngine ctl)
  used.any fun e => (destKind e == 1 || destKind e == 2) &&
    !rs.any fun r => r.2 == Dest.port s.cur.core (destElem e) (destPort e)

/-- The status of an issue, 0 where the stream starts: checks 5 to 10 of R149. -/
def State.issueStatus (s : State) (op : StreamOp) (base ctl : Word) (sh : Shape) (dests : Vector (BitVec 128) 4) : Nat :=
  let used := dests.toList.filter fun e => destKind e != 0
  if kindFault op base ctl sh dests then 5
  else if (s.here.engine (ctlEngine ctl)).state != 0 then 1
  else if s.streamDenied ctl used then 8
  else if alignFault op base ctl used then 2
  else if s.sizeFault ctl sh used then 3
  else if s.noRoute ctl used then 6
  else 0

/-- The stores and AMOs that a stream with REL waits for (R162). -/
def Core.unperformedStores (c : Core) : List Nat :=
  (c.accesses.filter fun a => a.reply.isNone && (match a.kind with
    | .load _ => false
    | _ => true)).map (·.id)

/-- The engine with a stream that starts (check 11). -/
def Core.startStream (c : Core) (op : StreamOp) (base ctl : Word) (sh : Shape) (dests : Vector (BitVec 128) 4) : Core :=
  (c.onEngine (ctlEngine ctl) fun e =>
    { e with
        state := 1, result := 4, beats := 0, pos := Vector.replicate 4 0,
        job := some
          { op := op, base := base, ctl := ctl, shape := sh, dests := dests, org := c.org.map fun w => w.setWidth 32,
            after := if ctlRel ctl then c.unperformedStores else [], next := 0, beats := [],
            grants := Vector.replicate 4 none, reqs := Vector.replicate 4 none, opened := [], unpub := [], late := e.drainAsked,
            linked := false, owns := Vector.replicate 10 0,
            handles := [], offsets := [], taken := none, ending := none } }).count 0x14

/-- A stream instruction (R146–R149). -/
def State.stream (s : State) (op : StreamOp) (d a b c : SReg) (p : PReg) : Out :=
  s.guarded p <|
    let at_ := s.here.reg c
    let ctl := s.here.reg b
    let base := s.here.reg a
    match scratchFault at_ 64 64 with
    | some code => .next (s.precise code at_)
    | none =>
      if op = .upd && !s.variant.full then s.answer s d 7
      else
        match Sparse.find s.here.shapes (ctlShape ctl) with
        | none => s.answer s d 4
        | some sh =>
          let dests : Vector (BitVec 128) 4 :=
            Vector.ofFn fun i => BitVec.ofNat 128 (readScratch s.here (at_.toNat + 16 * i.val) 16)
          match s.issueStatus op base ctl sh dests with
          | 0 => s.answer (s.on fun k => k.startStream op base ctl sh dests) d 0
          | n => s.answer s d (BitVec.ofNat 64 n)

/-- STRM.LD. -/
def execStrmLd (d a b c : SReg) (p : PReg) (s : State) : Out := s.stream .ld d a b c p
/-- STRM.SV. -/
def execStrmSv (d a b c : SReg) (p : PReg) (s : State) : Out := s.stream .sv d a b c p
/-- STRM.CP. -/
def execStrmCp (d a b c : SReg) (p : PReg) (s : State) : Out := s.stream .cp d a b c p
/-- STRM.GA. -/
def execStrmGa (d a b c : SReg) (p : PReg) (s : State) : Out := s.stream .ga d a b c p
/-- STRM.SC. -/
def execStrmSc (d a b c : SReg) (p : PReg) (s : State) : Out := s.stream .sc d a b c p
/-- STRM.UPD. -/
def execStrmUpd (d a b c : SReg) (p : PReg) (s : State) : Out := s.stream .upd d a b c p

/-- STRM.ORG (R156). -/
def execStrmOrg (d a b : SReg) (p : PReg) (s : State) : Out :=
  s.guarded p <|
    let low (w : Word) : Word := (w.extractLsb' 0 32).setWidth 64
    let high (w : Word) : Word := (w.extractLsb' 32 32).setWidth 64
    let x := s.here.reg a
    let y := s.here.reg b
    s.answer (s.on fun c => { c with org := #v[low x, high x, low y, high y] }) d 0

/-! ### Waiting, querying, resuming, killing (R159–R161) -/

/-- The engine that a register names. -/
def engineIn (v : Word) : Nat := v.toNat % 8

/-- A halted stream is reported at STRM.WT (R159). -/
def State.reportHalt (s : State) (k : Nat) : State :=
  let e := s.here.engine k
  (s.on fun c => { c.onEngine k fun e => { e with state := 0, result := 2 } with wait := .none }).preciseFrom
    s.cur.core e.fcode 2 k e.faddr

/-- STRM.WT (R159). -/
def execStrmWt (d a : SReg) (p : PReg) (s : State) : Out :=
  s.guarded p <|
    let k := engineIn (s.here.reg a)
    let e := s.here.engine k
    if e.state = 0 then s.answer s d (e.result.setWidth 64)
    else if e.state = 3 then .next (s.reportHalt k)
    else .next (s.on fun c => { c with wait := .stream d k })

/-- STRM_WT_RETURN: the engine that the sequencer waits for has changed its state (R159, R161). -/
def execStrmWtReturn (s : State) : Out :=
  match s.here.wait with
  | .stream d k =>
    let e := s.here.engine k
    if e.state = 0 then .next (s.finishWait d (e.result.setWidth 64))
    else if e.state = 3 then .next (s.reportHalt k)
    else .next s
  | _ => .next s

/-- The value of STRM.QRY (R160). -/
def Engine.query (e : Engine) (sel : Nat) : Word :=
  match sel with
  | 0 => BitVec.ofNat 64 (e.state.toNat + e.result.toNat * 4 + e.fcode.toNat * 2 ^ 8 + e.beats.toNat * 2 ^ 16)
  | 1 => e.faddr
  | 2 => e.pos[1] ++ e.pos[0]
  | _ => e.pos[3] ++ e.pos[2]

/-- STRM.QRY (R160). -/
def execStrmQry (d a : SReg) (p : PReg) (s : State) : Out :=
  s.guarded p <|
    let v := s.here.reg a
    s.answer s d ((s.here.engine (engineIn v)).query ((v.extractLsb' 8 2).toNat))

/-- STRM.RSM (R160): the walk goes on at the faulting beat, which is translated again when it is issued. -/
def execStrmRsm (d a : SReg) (p : PReg) (s : State) : Out :=
  s.guarded p <|
    let k := engineIn (s.here.reg a)
    if (s.here.engine k).state = 2 then
      s.answer (s.on fun c => c.onEngine k fun e => { e with state := 1 }) d 0
    else s.answer s d 1

/-- STRM.KIL (R161): beats already issued are performed, but for those whose reads are parked (R45). -/
def execStrmKil (d a : SReg) (p : PReg) (s : State) : Out :=
  s.guarded p <|
    let k := engineIn (s.here.reg a)
    let e := s.here.engine k
    if e.state = 0 then s.answer s d 1
    else
      match e.job with
      | none => s.answer (s.on fun c => c.onEngine k fun e => { e with state := 0, result := 1 }) d 0
      | some j =>
        s.answer ((s.endWalk s.cur.core k j.next 1).dropParked s.cur.core k) d 0

end Sys2Proof.Machine
end

