-- ==== Sys2Proof/Machine/Streams.lean ====
section
/-! DEFINITION. The walk of a stream: allocation, inputs, translation, source reads, delivery, performance, completion and its DRAIN
(R41, R150–R155, R158, R161–R165, R414, R415, R428). The turn's unit is the engine. -/

namespace Sys2Proof.Machine

/-! ### The stream of a turn -/

/-- Runs a body on the job of an engine. -/
def State.withJob (s : State) (k : Nat) (body : Engine → StreamJob → Out) : Out :=
  let e := s.here.engine k
  match e.job with
  | none => .next s
  | some j => body e j

/-- Changes the job of an engine of the core whose turn it is. -/
def State.onJob (s : State) (k : Nat) (f : StreamJob → StreamJob) : State :=
  s.on fun c => c.onEngine k fun e => { e with job := e.job.map f }

/-- Whether the walk goes on: beats are left, and nothing has ended it. -/
def StreamJob.walks (j : StreamJob) : Bool := j.ending.isNone && decide (j.next < j.shape.beats)

/-- Whether an engine is held at a checkpoint: one with FABRIC or POOL destinations issues no beat, and none does in a stopped region
(R389, R393). -/
def State.isPaused (s : State) (j : StreamJob) : Bool :=
  ((s.launches.any fun l => l.placed && l.pausedCores.contains s.cur.core) && !(j.entriesOf 1 ++ j.entriesOf 2).isEmpty) ||
    s.isStopped s.cur.core

/-! ### What a beat needs of the inputs (R152–R154) -/

/-- Whether a handle names a pool of the partition whose slots are not of the tile's size (R152). -/
def State.wrongSlot (s : State) (j : StreamJob) (h : BitVec 32) : Bool :=
  let c := s.core (handleCore h)
  s.inPartition s.cur.core (handleCore h) && c.poolSize (handlePool h) != 0 &&
    poolSsz c.cfg.active (handlePool h) != j.shape.tile

/-- Whether the offset in use stops the stream (R153). -/
def StreamJob.badOffset (j : StreamJob) : Bool :=
  (j.op == .ga || j.op == .sc) && (match j.offsets with
    | o :: _ => o != nullOffset && o.toNat % 32 != 0
    | [] => false)

/-- Whether what beat `next` needs from DI0 and DI1 is at hand. -/
def StreamJob.fed (j : StreamJob) : Bool :=
  (!(j.usesData && ctlSource j.ctl == 1) || j.taken.isSome) && (!(j.usesData && ctlSource j.ctl == 2) || !j.handles.isEmpty) &&
    (!j.op.usesOffsets || !j.offsets.isEmpty)

/-- The tokens that the walk still needs from an input, at least: none where what is at hand is enough (R152). -/
def StreamJob.needsMore (j : StreamJob) (i : Nat) : Bool :=
  let left := j.shape.beats - j.next
  j.walks &&
    (if i = 0 then
      j.usesData && (if ctlSource j.ctl = 1 then j.taken.isNone || decide (1 < left)
        else decide (j.handles.length * j.shape.tileBeats.getD 1 < left + j.sector j.next))
    else
      match j.op with
      | .ga => decide (j.offsets.length * j.shape.extent 0 < left + j.shape.index j.next 0)
      | .sc => decide (j.offsets.length * j.shape.extent 0 < left + j.shape.index j.next 0)
      | .upd => j.offsets.isEmpty || decide (1 < left)
      | _ => false)

/-- Whether nothing from an input is at hand. -/
def StreamJob.empty (j : StreamJob) (i : Nat) : Bool :=
  if i = 0 then (if ctlSource j.ctl = 1 then j.taken.isNone else j.handles.isEmpty) else j.offsets.isEmpty

/-- The 32-bit lanes of a payload. -/
def lanes32 (p : Payload) : List (BitVec 32) := (List.range 8).map fun k => p.extractLsb' (32 * k) 32

/-- Takes a DATA or RECORD token for the walk. -/
def StreamJob.take (j : StreamJob) (i : Nat) (t : Token) : StreamJob :=
  if i = 0 then
    if ctlSource j.ctl = 1 then { j with taken := some t } else { j with handles := payloadHandles t.payload }
  else { j with offsets := lanes32 t.payload }

/-- Consumes the token at the head of an input: a MARK is discarded, a DATA or RECORD token is taken where the walk needs it. -/
def State.inputHead (s : State) (k : Nat) (place : Dest) (head : Option Token) (j : StreamJob) : Out :=
  match head with
  | none => .next s
  | some t =>
    if t.kind = kindMark then .next (s.freeHeads place 1)
    else if t.kind = kindDrain || !j.needsMore s.cur.n || !j.empty s.cur.n || 1 < s.cur.n ||
        (s.cur.n = 0 && ctlSource j.ctl = 1 && !j.linked) then .next s
    else .next ((s.freeHeads place 1).onJob k fun j => j.take s.cur.n t)

/-- STREAM_INPUT_TOKEN: a token at data input n of the turn's engine is consumed; an offset that is not a multiple of 32, or a handle
of another slot size, halts the stream at the beat that would use it (R31, R152–R154, R158). -/
def execStreamInputToken (s : State) : Out :=
  let k := s.cur.unit
  let place := Dest.data s.cur.core k s.cur.n
  match (s.portAt place).toks.head?.map (·.tok), (s.here.engine k).state == 1, (s.here.engine k).job with
  | head, true, some j =>
    if j.walks && j.badOffset then
      .next (s.haltStream s.cur.core k j.next gatherAlign (j.address (if j.op = .ga then j.base else
        ((j.entriesOf 3).head?.map fun p => destAddr p.2).getD 0) j.next))
    else
      match j.walks && j.sector j.next == 0, j.handles with
      | true, h :: _ =>
        if s.wrongSlot j h then .next (s.slotFault (.stream s.cur.core k 4) j.next 0 h staleHandle)
        else s.inputHead k place head j
      | _, _ => s.inputHead k place head j
  | some t, _, _ => if t.kind = kindMark then .next (s.freeHeads place 1) else .next s
  | none, _, _ => .next s

/-- STREAM_DRAIN_INPUT: a DRAIN at data input n of the turn's engine closes it; while the walk still needs its tokens, the stream ends
there with RESULT SHORT (R152). A stream issued after the DRAIN of an input that it needs was consumed waits there, and does not end SHORT: DESIGN
CHOICE (log entry 63). -/
def execStreamDrainInput (s : State) : Out :=
  let k := s.cur.unit
  let place := Dest.data s.cur.core k s.cur.n
  let e := s.here.engine k
  let close (s : State) : State := (s.freeHeads place 1).onPort place fun p => { p with closed := true }
  match (s.portAt place).toks.head?.map (·.tok) with
  | none => .next s
  | some t =>
    if t.kind ≠ kindDrain then .next s
    else
      match e.job with
      | none => .next (close s)
      | some j =>
        if !j.needsMore s.cur.n then .next (close s)
        else if e.state = 1 && j.empty s.cur.n then .next (close (s.endWalk s.cur.core k j.next 3))
        else .next s

/-! ### Allocation and issue (R41, R150, R158) -/

/-- What issuing beat `next` finds. -/
inductive Attempt where
  /-- Something it needs is not there yet. -/
  | wait
  /-- A translation faults, at an address, or has no answer. -/
  | fault (s : State) (code : BitVec 8) (addr : Word)
  /-- The beat, with its translations done. -/
  | ok (s : State) (b : Beat)
  deriving DecidableEq, Repr

/-- Translates a list of addresses for writes. -/
def State.translateWrites (s : State) (core : Nat) (t : BitVec 6) : List Word → State × Except (BitVec 8 × Word) (List Nat)
  | [] => (s, .ok [])
  | a :: as =>
    match s.translate core t .write a with
    | (s, .error e) => (s, .error (e, a))
    | (s, .ok p) =>
      match s.translateWrites core t as with
      | (s, .error e) => (s, .error e)
      | (s, .ok ps) => (s, .ok (p :: ps))

/-- The lanes that an update of beat `next` writes, with their addresses (R154). -/
def StreamJob.updateLanes (j : StreamJob) : List (Nat × Word) :=
  match (j.entriesOf 3).head? with
  | none => []
  | some (_, e) =>
    ((j.offsets.take 8).zipIdx.filter fun p => p.1 != 0xFFFF_FFFF).map fun p =>
      (p.2, destAddr e + 4 * p.1.setWidth 64)

/-- Whether beat `next` belongs to a run with a null offset (R153). -/
def StreamJob.isNull (j : StreamJob) : Bool := (j.op == .ga || j.op == .sc) && j.offsets.head? == some nullOffset

/-- The addresses in device memory that beat `next` writes. -/
def StreamJob.memWrites (j : StreamJob) : List Word :=
  match j.op with
  | .upd => j.updateLanes.map (·.2)
  | .sc => if j.isNull then [] else (j.entriesOf 3).map fun p => j.address (destAddr p.2) j.next
  | _ => (j.entriesOf 3).map fun p => j.address (destAddr p.2) j.next

/-- Counts an operation of a deterministic stream to a memory interface (R428). -/
def StreamJob.counted (j : StreamJob) (die : Nat) : StreamJob :=
  if h : die < 10 then { j with owns := j.owns.set die (j.owns[die] + 1) } else j

/-- The operations of a stream to a memory interface so far. -/
def StreamJob.sentTo (j : StreamJob) (die : Nat) : Nat := (j.owns[die]?).getD 0

/-- The updates of a beat, their operands still to come. -/
def StreamJob.updatesAt (j : StreamJob) (tag : BitVec 6) (core k : Nat) (phys : List Nat) : List (Nat × Update) :=
  if j.op = .upd then
    (j.updateLanes.zip phys).map fun p =>
      (p.1.1, { phys := p.2, size := 4, op := (uopOf (ctlUop j.ctl)).getD .add, value := 0, cmp := 0, tag := tag,
                part := { core := core, unit := k, id := j.next, ord := ctlOrd j.ctl, seq := none }, folded := [], amo := false })
  else []

/-- Where beat `next` reads, up to its translation. -/
def State.beatSource (s : State) (core : Nat) (j : StreamJob) : State × Except (BitVec 8 × Word) BeatSource :=
  if j.isNull && j.op == .ga then (s, .ok .given)
  else
    match ctlSource j.ctl with
    | 0 =>
      let a := j.address j.base j.next
      match s.translate core (s.core core).ctxTag .read a with
      | (s, .error e) => (s, .error (e, a))
      | (s, .ok p) => (s, .ok (.mem p))
    | 1 => (s, .ok .given)
    | 2 => (s, .ok (.tile ((j.handles.head?).getD 0) (j.sector j.next)))
    | _ => (s, .ok (.remote (ctlDevice j.ctl) (j.address j.base j.next)))

/-- The data of a beat that needs no read. -/
def StreamJob.givenData (j : StreamJob) : Option (Payload × Bool) :=
  if j.isNull && j.op == .ga then some (j.shape.padding, false) else j.taken.map fun t => (t.payload, t.taint)

/-- Whether beat `next` reads or writes a remote device. -/
def StreamJob.isRemote (j : StreamJob) : Bool := ctlSource j.ctl == 3 || !(j.entriesOf 4).isEmpty

/-- Issuing beat `next`: its inputs are at hand and its link slots taken, each address is translated, and what goes to a port die arrives there
(R18, R150, R158). -/
def State.attempt (s : State) (core k : Nat) (j : StreamJob) : Attempt :=
  if !j.linked || !j.fed || j.badOffset || (j.sector j.next == 0 && j.handles.head?.any (s.wrongSlot j)) then
    .wait
  else if j.isRemote && s.remoteFate core != .arrives then .fault (s.recordDeny (s.remoteFate core) (s.core core).ctxTag) noAnswer 0
  else
    match s.beatSource core j with
    | (s, .error (code, a)) => .fault s code a
    | (s, .ok src) =>
      let tag := (s.core core).ctxTag
      match s.translateWrites core tag j.memWrites with
      | (s, .error (code, a)) => .fault s code a
      | (s, .ok phys) =>
        let data := if src = .given then j.givenData else none
        .ok s
          { n := j.next, src := src, data := data, mem := if j.op = .upd then [] else phys,
            remote := (j.entriesOf 4).map fun p => (destDevice p.2, j.address (destAddr p.2) j.next),
            tiles := (j.entriesOf 2).filterMap fun p => ((j.grants[p.1]?).getD none).map fun h => (p.1, h),
            updates := j.updatesAt tag core k phys, drop := j.op == .sc && j.isNull, delivered := false, waits := 0,
            failed := false, holds := if data.any (·.2) then s.checksOf tag else [] }

/-- The job after beat `next` has been issued. -/
def StreamJob.advance (j : StreamJob) (b : Beat) : StreamJob :=
  let runEnds := j.shape.index j.next 0 + 1 == j.shape.extent 0
  { j with
      next := j.next + 1, beats := j.beats ++ [b], linked := false, taken := none,
      grants := if j.endsTile j.next then Vector.replicate 4 none else j.grants,
      handles := if j.endsTile j.next then j.handles.drop 1 else j.handles,
      offsets := match j.op with
        | .ga => if runEnds then j.offsets.drop 1 else j.offsets
        | .sc => if runEnds then j.offsets.drop 1 else j.offsets
        | .upd => []
        | _ => j.offsets }

/-- The 16-byte header of a message to a remote device (R434). -/
def messageHeader (op len : Nat) (sealed_ : Bool) (ctxh : BitVec 16) : Word :=
  BitVec.ofNat 64 (op + sealed_.toNat * 2 ^ 8 + ctxh.toNat * 2 ^ 16 + len * 2 ^ 32)

/-- An RDMA request for a beat to a remote device; of a protected context it is sealed, and held for the checks of R415 (R155, R413,
R434, R435). -/
def State.sendRemote (s : State) (tag : BitVec 6) (device : BitVec 16) (op len : Nat) (addr : Word) (payload : List Byte)
    (waits : List Nat) (seq : Option SeqNums) : State :=
  s.post (some device)
    { qword0 := messageHeader op len (s.ctx tag).prot (tag.setWidth 16), qword1 := addr.extractLsb' 0 55 |>.setWidth 64,
      payload := payload, device := device, tag := tag, waits := waits, gcm := 0, seq := seq }

/-- The source read of an issued beat goes out (R150, R152, R155). -/
def State.readSource (s : State) (core k : Nat) (j : StreamJob) (b : Beat) : State :=
  match b.src with
  | .mem _ => s
  | .given => s
  | .remote dev a =>
    let tag := (s.core core).ctxTag
    s.sendRemote tag dev 0x02 32 a [] (s.checksOf tag) none
  | .tile h q =>
    let last := q + 1 == j.shape.tileBeats.getD 1
    s.requestSector (bankReq (.stream core k 4) b.n h q (.read (ctlCons j.ctl && last)))

/-- The tile slots that beat `next` still has to ask for (R150). -/
def StreamJob.toRequest (j : StreamJob) : List (Nat × BitVec 128) :=
  (j.entriesOf 2).filter fun p => ((j.grants[p.1]?).getD none).isNone && ((j.reqs[p.1]?).getD none).isNone

/-- Asks each pool for the slot of a tile (R150, R268). -/
def State.requestTiles (s : State) (core k : Nat) (es : List (Nat × BitVec 128)) (pool : Nat) : State :=
  es.foldl (fun s p =>
    let id := (s.core core).nextId
    let s := (s.requestSlot (destCore p.2) pool ⟨id, .stream core k p.1⟩).onCore core Core.nextNumber
    s.onCore core fun c => c.onEngine k fun e =>
      { e with job := e.job.map fun j => if g : p.1 < 4 then { j with reqs := j.reqs.set p.1 (some id) } else j }) s

/-- Issues beat `next` where it now can be. -/
def State.issueBeat (s : State) (core k : Nat) (j : StreamJob) : State :=
  match s.attempt core k j with
  | .ok t b => (t.onCore core fun c => c.onEngine k fun e => { e with job := some (j.advance b) }).readSource core k j b
  | .fault t _ _ => t
  | .wait => s

/-- STREAM_LINK_ALLOCATION: the turn's engine asks for the tile slots of its next beat, or takes the beat's link slots in every receiver
at once and issues it (R41, R150). A stream issued after CFG.DRN follows its engine's DRAIN (R165). -/
def execStreamLinkAllocation (s : State) : Out :=
  let k := s.cur.unit
  let core := s.cur.core
  s.withJob k fun e j =>
    if e.state ≠ 1 || !j.walks || s.isPaused j || j.after.any (fun i => s.here.outstanding.contains i) ||
        (j.late && !e.drainSent && !(j.entriesOf 1 ++ j.entriesOf 2).isEmpty) then .next s
    else if !j.toRequest.isEmpty then .next (s.requestTiles core k j.toRequest j.shape.pool)
    else if j.reqs.toList.any (·.isSome) then .next s
    else if j.linked then .next (s.issueBeat core k j)
    else
      let links := j.beatLinks core j.next
      if s.roomFor (links.map fun d => (d, 1)) then
        let t := (links.foldl (fun s d => s.onPort d fun p => { p with pend := p.pend + 1 }) s).onJob k fun j => { j with linked := true }
        .next (t.issueBeat core k { j with linked := true })
      else .next s

/-- STREAM_TRANSLATION_STOP: with every earlier beat done, a beat whose translation faults stops the stream, and the sequencer takes
an asynchronous trap (R158, R331). -/
def execStreamTranslationStop (s : State) : Out :=
  let k := s.cur.unit
  s.withJob k fun e j =>
    if e.state ≠ 1 || !j.walks || !j.beats.isEmpty then .next s
    else
      match s.attempt s.cur.core k j with
      | .fault t code addr =>
        if code = noAnswer then .next t
        else
        let t := t.on fun c => c.onEngine k fun e =>
          { e with state := 2, fcode := code, faddr := addr, pos := j.shape.position j.next }
        .next ((t.raise s.cur.core code 2 k addr).streamEvent s.cur.core j)
      | _ => .next s

/-! ### Source data and delivery (R145, R151, R162, R164, R414) -/

/-- The token of a beat for its FABRIC destinations (R145). -/
def StreamJob.token (j : StreamJob) (b : Beat) (p : Payload) (taint : Bool) : Token :=
  { payload := p, tag := dataTag j.shape.fmt false (j.shape.row b.n), taint := taint, round := 0, e := j.shape.ends b.n,
    vc := j.shape.vc, kind := kindData }

/-- Whether the last token of a tile has to wait for MEM beats of the tile (R164). -/
def StreamJob.tileUnwritten (j : StreamJob) (b : Beat) : Bool :=
  j.endsTile b.n && !(j.entriesOf 1).isEmpty && j.beats.any fun x => j.tileOf x.n == j.tileOf b.n && !x.mem.isEmpty

/-- Whether an update of an engine still waits for a window entry: the engine waits in allocation (R37, R326). -/
def State.updatesWaiting (s : State) (core k : Nat) : Bool :=
  s.supd.any fun u => (u.waiting ++ u.coming).any fun q => !q.amo && q.part.core == core && q.part.unit == k

/-- Changes the job of an engine of a core. -/
def State.onJobOf (s : State) (core k : Nat) (f : StreamJob → StreamJob) : State :=
  s.onCore core fun c => c.onEngine k fun e => { e with job := e.job.map f }

/-- The numbers of the next operation of an engine's stream to a memory interface, and the state in which it has been counted (R428). -/
def State.nextSeq (s : State) (core k die : Nat) (last : Bool) : Option SeqNums × State :=
  match ((s.core core).engine k).job with
  | none => (none, s)
  | some j => (s.seqNums core k (j.sentTo die) last, s.onJobOf core k fun j => j.counted die)

/-- Sends the updates of a beat with their operands and sequence numbers; the beat is the last of its walk or not. -/
def State.sendUpdates (core k : Nat) (last : Bool) (p : Payload) : List (Nat × Update) → State → State
  | [], s => s
  | u :: us, s =>
    let die := stackOf u.2.phys
    let (q, s) := s.nextSeq core k die (last && !us.any fun x => stackOf x.2.phys == die)
    State.sendUpdates core k last p us
      (s.requestUpdate { u.2 with value := (p.extractLsb' (32 * u.1) 32).setWidth 64, part := { u.2.part with seq := q } })

/-- Sends the remote writes of a beat with their sequence numbers, which its port die takes in their order (R155, R428). -/
def State.sendWrites (core k : Nat) (last : Bool) (p : Payload) : List (BitVec 16 × Word) → State → State
  | [], s => s
  | r :: rs, s =>
    let die := 8 + s.variant.portDie core
    let tag := (s.core core).ctxTag
    let (q, s) := s.nextSeq core k die (last && rs.isEmpty)
    State.sendWrites core k last p rs
      { s.sendRemote tag r.1 0x01 32 r.2 (bytesOf 32 p.toNat) (s.checksOf tag) q with chains := (chainStepOf s.chains die q).getD s.chains }

/-- Delivers a beat to its destinations: tokens, pool writes, remote writes and updates (R150–R155). Its MEM writes are performed by
STREAM_WRITE_PERFORMED. -/
def State.deliverBeat (s : State) (core k : Nat) (j : StreamJob) (b : Beat) (p : Payload) (taint : Bool) : State :=
  let waits := if b.drop then 0 else b.tiles.length + b.remote.length + b.updates.length
  let s := s.onCore core fun c => c.onEngine k fun e => (e.onBeat b.n fun b => { b with delivered := true, waits := waits })
  if b.drop then s
  else
    let s := (j.entriesOf 1).foldl (fun s e =>
      s.sendAllocated (.stream core k) (.port core (destElem e.2) (destPort e.2)) (j.token b p taint)) s
    let s := b.tiles.foldl (fun s t =>
      s.requestSector (bankReq (.stream core k t.1) b.n t.2 (j.sector b.n) (.write p (BitVec.ofNat 4 j.shape.fmt) taint))) s
    let last := !j.walks && !(j.beats.any fun x => decide (b.n < x.n))
    State.sendUpdates core k last p b.updates (State.sendWrites core k last p b.remote s)

/-- Whether checks that hold an item are still open (R415). -/
def State.heldBy (s : State) (holds : List Nat) : Bool := s.checks.any fun k => holds.contains k.id

/-- A base die returns a sector of memory; with `early` it is forwarded before its unit's tag check has resolved, and that check too holds
what the beat writes (R414, R415). -/
def State.returnSector (s : State) (core k n phys : Nat) (early : Bool) : State :=
  let data : Payload := BitVec.ofNat 256 (readMem s.mem phys 32)
  let tag := (Sparse.get 0#7 s.pot (phys / 65536)).setWidth 6
  let check : TagCheck := { id := s.nextCheck, tag := tag, stack := BitVec.ofNat 3 (stackOf phys), off := phys % 2 ^ 36 / 256 * 256 }
  let t := if early then { s with checks := s.checks ++ [check], nextCheck := s.nextCheck + 1 } else s
  t.fillBeat core k n data early

/-- STREAM_SOURCE_REPLY: the memory returns the data of beat n of the turn's engine, reads in walk order and after the stream's own earlier
writes of their bytes (R162, R335); or the engine delivers the beat, in walk order (R164). Tainted updates are held for the checks of
R415, and updates wait while one of the engine's still waits for a window entry (R326). With its flag set the data are forwarded before
their tag check has resolved (R414). -/
def execStreamSourceReply (s : State) : Out :=
  let k := s.cur.unit
  let core := s.cur.core
  s.withJob k fun _ j =>
    match j.beats.find? fun b => b.n == s.cur.n with
    | none => .next s
    | some b =>
      let before := j.beats.filter fun x => decide (x.n < b.n)
      match b.data, b.src with
      | none, .mem phys =>
        if before.any (fun x => x.data.isNone || x.mem.any fun q => overlaps phys 32 q 32) || s.inWindow phys 32 then .next s
        else s.overNetwork phys <| .next (s.returnSector core k b.n phys s.cur.flag)
      | none, _ => .next s
      | some (p, taint), _ =>
        if b.delivered || before.any (fun x => !x.delivered) || j.tileUnwritten b ||
            (!b.updates.isEmpty && (s.heldBy b.holds || s.updatesWaiting core k)) then .next s
        else .next ((s.deliverBeat core k j b p taint).on fun c => c.onEngine k Engine.retire)

/-! ### Performance and completion (R158, R161–R163, R415, R428) -/

/-- STREAM_WRITE_PERFORMED: write m of beat n of the turn's engine is performed: 32 bytes at once (R163), held items in their order
(R415), and in deterministic mode, where a base die holds each write until its predecessor, in walk order at each die (R428). -/
def execStreamWritePerformed (s : State) : Out :=
  let k := s.cur.unit
  s.withJob k fun _ j =>
    match j.beats.find? fun b => b.n == s.cur.n with
    | none => .next s
    | some b =>
      match b.data, b.mem[s.cur.m]? with
      | some (p, _), some phys =>
        let before := j.beats.filter fun x => decide (x.n < b.n)
        if before.any (fun x => x.data.isNone) || s.heldBy b.holds || s.inWindow phys 32 ||
            (!b.holds.isEmpty && before.any fun x => !x.holds.isEmpty && !x.mem.isEmpty) ||
            (s.isDet s.cur.core && ((before.any fun x => x.mem.any fun q => stackOf q == stackOf phys) ||
              (b.mem.take s.cur.m).any fun q => stackOf q == stackOf phys)) then .next s
        else
          let die := stackOf phys
          let last := !j.walks && !(j.beats.any fun x => decide (b.n < x.n) && x.mem.any fun q => stackOf q == die) &&
            !((b.mem.drop (s.cur.m + 1)).any fun q => stackOf q == die)
          let (q, t) := s.nextSeq s.cur.core k die last
          s.overNetwork phys <| t.sequenced die q fun s =>
            .next ({ s with mem := writeBytes s.mem phys (bytesOf 32 p.toNat) }.on fun c =>
              c.onEngine k fun e => (e.onBeat b.n fun b => { b with mem := b.mem.eraseIdx s.cur.m }).retire)
      | _, _ => .next s

/-- A tile that a stream of an engine leaves behind: a slot not published returns to FREE, and a write of PAD is presented for each sector
that is missing from a published one (R158, R161, R267). -/
def State.leaveTile (s : State) (core k : Nat) (j : StreamJob) (h : BitVec 32) : State :=
  let c := s.core (handleCore h)
  match c.slotOf h with
  | none => s
  | some t =>
    if t.state = slotAllocated then s.onCore (handleCore h) fun c => c.onSlot (handlePool h) (handleSlot h) Slot.free
    else
      let missing := (List.range (c.poolSectors (handlePool h))).filter fun q => !t.pres.contains q
      missing.foldl (fun s q =>
        s.requestSector (bankReq (.stream core k 5) 0 h q (.write j.shape.padding (BitVec.ofNat 4 j.shape.fmt) false))) s

/-- STREAM_COMPLETE: everything that was issued is done, and the stream ends: IDLE with DONE, KILLED or SHORT, or HALTED (R158, R161,
R162). One that a DRAIN ends SHORT sets the event flag with EVT = 1, as one that completes does; a killed one does not (log entry 42). Handles of a DI0 token
and offsets of a DI1 token that it has taken and not used go with it, and no reader of them is abandoned: DESIGN CHOICE (log entry 63). -/
def execStreamComplete (s : State) : Out :=
  let k := s.cur.unit
  let core := s.cur.core
  s.withJob k fun _ j =>
    if j.walks || !j.beats.all Beat.finished || s.flights.any (fun f => f.src == .stream core k) then .next s
    else
      let s := (j.opened.foldl (fun s h => s.leaveTile core k j h) s).endChains core k
      let done (st : BitVec 2) (res : Option (BitVec 3)) (s : State) : State :=
        s.on fun c => c.onEngine k fun e => { e with state := st, result := res.getD e.result, job := none }
      match j.ending with
      | none => .next ((done 0 (some 0) s).streamEvent core j)
      | some 1 => .next (done 0 (some 1) s)
      | some 2 => .next ((done 3 none s).streamEvent core j)
      | some r => .next ((done 0 (some r) s).streamEvent core j)

/-- The data inputs that the core settings bind (R187). -/
def Core.boundInputsOf (c : Core) (k : Nat) : List Nat :=
  (List.range 2).filter fun i => (c.field 0xF0 (8 * i + k)).getLsbD 15

/-- STREAM_DRAIN_SEND: after the last token of the streams already issued the engine passes DRAIN: once every data input that its core's
settings bind has delivered one, or, where they bind none, once CFG.DRN has asked for it (R123, R152, R165). -/
def execStreamDrainSend (s : State) : Out :=
  let k := s.cur.unit
  let core := s.cur.core
  let e := s.here.engine k
  let busy := match e.job with
    | some j => !j.late
    | none => false
  let bound := s.here.boundInputsOf k
  let open_ := bound.any fun i => !(s.portAt (.data core k i)).closed
  let rs := s.here.streamReceivers k
  if (bound.isEmpty && !e.drainAsked) || e.drainSent || busy || open_ || !s.roomFor (needsOf rs 1) then .next s
  else
    .next ((s.launchTokens (.stream core k) rs [drainToken s.here.cfg.idx 0 0]).on fun c =>
      c.onEngine k fun e => { e with drainSent := true })

end Sys2Proof.Machine
end

