-- ==== Sys2Proof/Machine/ConfigEngine.lean ====
section
/-! DEFINITION. The configuration engine and the drain collectors: loads (R121, R183, R184), seals (R122), choices (R126), drains and
their resolution (R123–R125, R180, R340) and the swap (R181). -/

namespace Sys2Proof.Machine

/-- Changes the configuration engine of a core. -/
def Core.onCfg (c : Core) (f : ConfigEngine → ConfigEngine) : Core := { c with cfg := f c.cfg }

/-- Changes the configuration engine of a core. -/
def State.onCfg (s : State) (core : Nat) (f : ConfigEngine → ConfigEngine) : State := s.onCore core fun c => c.onCfg f

/-! ### Loads (R121, R183, R184) -/

/-- What a stream of commands leaves as it is read. -/
structure Loading where
  plane : Plane
  /-- The command that last wrote each field. -/
  writers : Sparse Nat
  /-- Commands that check 1 rejects whatever the plane holds: index, FN and EA. -/
  bad : List (Nat × Nat × Nat)
  selected : Bool
  deriving DecidableEq, Repr

/-- Whether the tables list a field of a target (R184). -/
def listed (ea fn : Nat) : Bool := (fieldMask ea fn).isSome

/-- Whether a core select names a core of the region, and which: none for every core (R184). -/
def State.selectOf (s : State) (core : Nat) (v : Nat) : Option (Option Nat) :=
  let c := s.core core
  if v = 0xFFFF then some none
  else if v % 256 < (c.regionExt.extractLsb' 0 8).toNat && v / 256 < (c.regionExt.extractLsb' 8 8).toNat then
    some (some (s.variant.coreAt ((c.regionOrg.extractLsb' 0 8).toNat + v % 256) ((c.regionOrg.extractLsb' 8 8).toNat + v / 256)))
  else none

/-- One command of a stream, at its index; the flag says that the stream ends here. An end of stream with a value that is not zero ends the
stream and is rejected, and an escape of another FN is rejected at every core that reads it, selected or not (R184; log entry 58). -/
def State.command (s : State) (core i : Nat) (w : BitVec 32) (l : Loading) : Loading × Bool :=
  let ea := (w.extractLsb' 24 8).toNat
  let fn := (w.extractLsb' 16 8).toNat
  let v : BitVec 16 := w.extractLsb' 0 16
  if ea = 0xFF then
    if fn = 0 && v = 0 then (l, true)
    else if fn = 1 then
      match s.selectOf core v.toNat with
      | some none => ({ l with selected := true }, false)
      | some (some c) => ({ l with selected := c == core }, false)
      | none => ({ l with selected := false, bad := l.bad ++ [(i, fn, ea)] }, false)
    else ({ l with bad := l.bad ++ [(i, fn, ea)] }, fn == 0)
  else if !l.selected then (l, false)
  else if listed ea fn then
    ({ l with plane := planeWrite l.plane ea fn v, writers := Sparse.put l.writers (256 * ea + fn) i }, false)
  else ({ l with bad := l.bad ++ [(i, fn, ea)] }, false)

/-- Reads the command at a virtual address through the prefetch lines of a core, which stores do not change (R325); with the turn's flag set
a line has been replaced, and the command is read again (log entry 7). -/
def State.readConfigWord (s : State) (core : Nat) (va : Word) : State × Except (BitVec 8) (BitVec 32) :=
  match if s.cur.flag then none else Sparse.find (s.core core).prefetch va.toNat with
  | some w => (s, .ok w)
  | none =>
    match s.translate core (s.core core).ctxTag .read va with
    | (s, .error e) => (s, .error e)
    | (s, .ok a) =>
      match s.readNow core a 4 with
      | (s, .error e) => (s, .error e)
      | (s, .ok x) =>
        let w : BitVec 32 := BitVec.ofNat 32 x
        (s.onCore core fun c => { c with prefetch := Sparse.put c.prefetch va.toNat w }, .ok w)

/-- Reads commands from index i on, `fuel` of them; a fault gives its code and address. -/
def State.readCommands (core : Nat) (addr : Word) : Nat → Nat → State → Loading → State × Loading × Option (BitVec 8 × Word)
  | 0, _, s, l => (s, l, none)
  | fuel + 1, i, s, l =>
    let va := addr + BitVec.ofNat 64 (4 * i)
    match s.readConfigWord core va with
    | (s, .error e) => (s, l, some (e, va))
    | (s, .ok w) =>
      let (l, ends) := s.command core i w l
      if ends then (s, l, none) else State.readCommands core addr fuel (i + 1) s l

/-- Loads a stream into the shadow plane of a core; a translation fault traps, and leaves the plane incomplete (R121, R126) until the
next stream begins to load (log entry 58). -/
def State.loadStream (s : State) (core : Nat) (j : ConfigLoad) : State :=
  let s := s.onCfg core fun g =>
    { g with shadowIdx := j.idx, incomplete := false, loaded := false, isSealed := false, writers := [],
             bad := g.bad.map fun b => (noIndex, b.2) }
  let g := (s.core core).cfg
  let (s, l, fault) := State.readCommands core j.addr j.count 0 s { plane := g.shadow, writers := [], bad := g.bad, selected := true }
  let s := s.onCfg core fun g =>
    { g with shadow := l.plane, writers := l.writers, bad := l.bad, incomplete := fault.isSome, loaded := fault.isNone }
  match fault with
  | some (code, va) => s.raise core code 7 0 va
  | none => s

/-- What a load reads before it stands without an answer, if it does (R18, R330). -/
def State.unanswered (s : State) (core : Nat) (j : ConfigLoad) : Option State :=
  let g := (s.core core).cfg
  match State.readCommands core j.addr j.count 0 s { plane := g.shadow, writers := [], bad := g.bad, selected := true } with
  | (t, _, some (code, _)) => if code = noAnswer then some t else none
  | _ => none

/-- Seals the shadow plane of a core: armed, or trapped with the failing check; an incomplete plane traps no second time (R122). -/
def State.sealPlane (s : State) (core : Nat) : State :=
  if (s.core core).cfg.incomplete then s
  else
    match s.sealFault core with
    | some (code, tval) => s.raise core code 7 0 tval
    | none =>
      s.onCfg core fun g =>
        { g with isSealed := true, armed := true, overlaid := false, shadowDests := allReceivers s.variant s.shadowPlane core }

/-! ### The instructions (R120–R127) -/

/-- The status of a load's operands (R121). -/
def loadStatus (addr count : Word) : Nat :=
  if addr.toNat % 4 ≠ 0 then 2 else if count = 0 || 1048576 < count.toNat then 3 else 0

/-- A configuration command, whose issue a full queue of the engine holds (R120, R127). -/
def State.configCommand (s : State) (p : PReg) (body : Out) : Out :=
  s.guarded p <| if 8 ≤ s.here.cfg.loads.length then .next (s.on fun c => c.count 0x0B) else body

/-- CFG.LD (R121). -/
def execCfgLd (d a b c : SReg) (p : PReg) (s : State) : Out :=
  s.configCommand p <|
    let g := s.here.cfg
    let st := loadStatus (s.here.reg a) (s.here.reg b)
    if st ≠ 0 then s.answer s d (BitVec.ofNat 64 st)
    else if g.armed || g.sealing then s.answer s d 1
    else
      s.answer (s.onCfg s.cur.core fun g =>
        { g with loads := g.loads ++ [⟨s.here.reg a, (s.here.reg b).toNat, (s.here.reg c).setWidth 16⟩] }) d 0

/-- CFG.SWP (R122). -/
def execCfgSwp (d : SReg) (p : PReg) (s : State) : Out :=
  s.configCommand p <|
    let g := s.here.cfg
    if g.armed || g.sealing then s.answer s d 1
    else s.answer (s.onCfg s.cur.core fun g => { g with sealing := true, latched := none }) d 0

/-- CFG.SEL (R126). A load that has not finished does not count as loaded: while one is queued, the choice is latched (log entry 58). -/
def execCfgSel (d a b c : SReg) (p : PReg) (s : State) : Out :=
  s.configCommand p <|
    let g := s.here.cfg
    let st := loadStatus (s.here.reg a) (s.here.reg b)
    let idx : BitVec 16 := (s.here.reg c).setWidth 16
    if st ≠ 0 then s.answer s d (BitVec.ofNat 64 st)
    else if g.loaded && !g.incomplete && !g.armed && g.loads.isEmpty && g.shadowIdx == idx then
      s.answer (s.onCfg s.cur.core fun g => { g with sealing := true, latched := none }) d 0
    else
      s.answer (s.onCfg s.cur.core fun g =>
        { g with armed := false, isSealed := false, sealing := false,
                 latched := some ⟨s.here.reg a, (s.here.reg b).toNat, idx⟩ }) d 0

/-- The input ports that the sequencer injection port closes at a drain: KIND 2, and named by no used stage set (R123, R312). -/
def Core.injectionPorts (c : Core) (core : Nat) : List Dest :=
  let p := c.cfg.active
  let named : List (Nat × Nat) := (List.range 8).flatMap fun k =>
    if setStages p k = 0 then []
    else (2 :: (List.range (min 8 (setStages p k))).map (8 + ·)).map fun fn =>
      let f := fieldOf p (0x50 + k) fn
      ((f.extractLsb' 0 6).toNat, (f.extractLsb' 6 2).toNat)
  (List.range 64).flatMap fun ea =>
    ((List.range 4).filter fun i => enabled p ea && bindKind p ea i == 2 && !named.contains (ea, i)).map fun i => Dest.port core ea i

/-- The sequencer writes a token into a port of its core, behind every token there; on a closed input it is a stray (R129, R179). -/
def State.injectToken (s : State) (dst : Dest) (t : Token) : State :=
  let s := s.onPort dst fun p => { p with pend := p.pend + 1 }
  s.deliverToken { src := .seq dst.core, dst := dst, entry := 8, pos := none, tok := t }

/-- CFG.DRN (R123, R312): issue is held while a port of the injection port has no FREE slot. A configuration that has been closed before
is not closed again: the drain only begins. The DRAINs of the injection port, of an engine and of the router carry ROUND 0, since none of
these senders keeps a round (R22; log entry 57). -/
def execCfgDrn (d : SReg) (p : PReg) (s : State) : Out :=
  s.configCommand p <|
    let g := s.here.cfg
    if g.draining then s.answer s d 1
    else if g.drained then s.answer (s.beginDrain s.cur.core) d 0
    else
      let ports := s.here.injectionPorts s.cur.core
      if ports.any fun q => s.freeAt q == 0 then .next (s.on fun c => c.count 0x0B)
      else
        let s' := ports.foldl (fun s q => s.injectToken q (drainToken g.idx 0 0)) s
        let s' := s'.on fun c =>
          { c with engines := c.engines.map fun e => { e with drainAsked := true }, cfg := { c.cfg with drained := true } }
        s.answer (s'.beginDrain s.cur.core) d 0

/-- CFG.WT (R125). -/
def execCfgWt (d : SReg) (p : PReg) (s : State) : Out :=
  s.configCommand p <|
    match s.here.cfg.result with
    | some r => s.answer (s.onCfg s.cur.core fun g => { g with result := none }) d (r.setWidth 64)
    | none => .next (s.on fun c => { c with wait := .cfg d })

/-- CFG_WT_RETURN: a waiting CFG.WT returns the drain result and clears it (R125). -/
def execCfgWtReturn (s : State) : Out :=
  match s.here.wait, s.here.cfg.result with
  | .cfg d, some r =>
    .next (s.retire ((s.onCfg s.cur.core fun g => { g with result := none }).on fun c => { c with wait := .none }.setReg d (r.setWidth 64)) 4)
  | _, _ => .next s

/-- Plane status (R127, selector 1). -/
def ConfigEngine.status (g : ConfigEngine) (draining : Bool) : Word :=
  BitVec.ofNat 64 (g.shadowIdx.toNat + (!g.loads.isEmpty).toNat * 2 ^ 16 + g.isSealed.toNat * 2 ^ 17 + g.armed.toNat * 2 ^ 18 +
    g.latched.isSome.toNat * 2 ^ 19 + draining.toNat * 2 ^ 20 + g.incomplete.toNat * 2 ^ 21 + g.result.isSome.toNat * 2 ^ 22 +
    (g.result.getD 0).toNat * 2 ^ 23 + g.sealing.toNat * 2 ^ 26)

/-- The drain map (R127, selector 2): an element with EN = 0 counts as having passed (R168). -/
def Core.drainMap (c : Core) : Word :=
  BitVec.ofNat 64 (((List.range 64).map fun ea =>
    if !enabled c.cfg.active ea || (c.elem ea).passed then 2 ^ ea else 0).foldl (· + ·) 0)

/-- CFG.QRY (R127, R443). -/
def execCfgQry (d a : SReg) (p : PReg) (s : State) : Out :=
  s.configCommand p <|
    let x := s.here.reg a
    let e := s.here.elem (x.extractLsb' 0 6).toNat
    s.answer s d <|
      match (x.extractLsb' 8 4).toNat with
      | 0 => e.fstat.setWidth 64
      | 1 => s.here.cfg.status s.here.cfg.draining
      | 2 => s.here.drainMap
      | 3 => (e.ecnt.toList[(x.extractLsb' 6 2).toNat]?.getD 0).setWidth 64
      | _ => BitVec.allOnes 64

/-! ### Background steps (R121, R122) -/

/-- CONFIG_STREAM_LOAD: the oldest load of the turn's core reads its stream (R121). -/
def execConfigStreamLoad (s : State) : Out :=
  match s.here.cfg.loads with
  | [] => .next s
  | j :: js =>
    match s.unanswered s.cur.core j with
    | some t => .next t
    | none => .next ((s.onCfg s.cur.core fun g => { g with loads := js }).loadStream s.cur.core j)

/-- SEAL_CHECKS_COMPLETE: the checks of CFG.SWP or CFG.SEL end, after every earlier load (R122, R126, R182). -/
def execSealChecksComplete (s : State) : Out :=
  if s.here.cfg.sealing && s.here.cfg.loads.isEmpty then
    .next ((s.onCfg s.cur.core fun g => { g with sealing := false }).sealPlane s.cur.core)
  else .next s

/-! ### The swap (R122, R181, R185, R228, R247, R250, R265, R287) -/

/-- An element when a plane becomes active (R167, R181, R247, R250): what is cleared at a swap, then the clears of field 0x3F. -/
def Elem.swapTo (e : Elem) (p : Plane) (ea : Nat) : Elem :=
  let f := fieldOf p ea 0x3F
  let w := mctlWsel (fieldOf p ea 0x38)
  let still (b : BState) : BState := if b = .draining then .free else b
  let e :=
    { e with phase0 := 0, phase1 := 0, opst := Opst.reset, rnd := 0, passed := !f.getLsbD 0, halted := false,
             ports := Vector.replicate 4 Port.reset, ldp := w, usp := w, wrow := 0, wfwd := 0, bs0 := still e.bs0, bs1 := still e.bs1,
             bp := actlBank (fieldOf p ea 0x39), accs := 0, pending := [], drains := [], flushing := false, psums := [], prq := [],
             sentDrain := false, stray := none, owed := Vector.replicate 4 [], ckpt := none, blocked := none, blockedLoad := none,
             blockedDrain := none, dr := 0 }
  let e := if f.getLsbD 1 then { e with fstat := 0 } else e
  let e := if f.getLsbD 2 then { e with a0 := 0, at0 := false } else e
  let e := if f.getLsbD 3 then { e with a1 := 0, at1 := false } else e
  let e := if f.getLsbD 4 then { e with w0 := 0, ws0 := .empty } else e
  if f.getLsbD 5 then { e with w1 := 0, ws1 := .empty } else e

/-- Whether a pool's four fields differ between two planes (R265). -/
def poolChanged (p q : Plane) (n : Nat) : Bool := (List.range 4).any fun fn => fieldOf p (0x40 + n) fn != fieldOf q (0x40 + n) fn

/-- A stage set at a swap (R287, R295): SEED, SBASE, SEQ0 and CUR stay; an ADAPT set of a deterministic launch runs as DET (R425). -/
def StageSet.swapTo (t : StageSet) (p : Plane) (k : Nat) (det : Bool) : StageSet :=
  let mode := (fieldOf p (0x50 + k) 0).extractLsb' 4 2
  { StageSet.reset with seed := t.seed, sbase := t.sbase, seq0 := t.seq0, cur := t.cur, next := t.seq0,
                        lmode := if det && mode == 2 then 1 else mode }

/-- The router at a swap (R287, R301, R302): a log that RT.LOG armed begins. -/
def Router.swapTo (r : Router) (p : Plane) (det : Bool) : Router :=
  let (log, base, size) := r.logNext.getD (0, 0, 0)
  { Router.reset with sets := Vector.ofFn fun k => (r.sets[k]).swapTo p k det, log := log, logBase := base, logSize := size,
                      stopped := r.stopped && r.inTrap, inTrap := r.inTrap, det := det }

/-- The plane that a delta load starts from: the active one, with the clears of field 0x3F zero (R122, R185). -/
def shadowCopy (p : Plane) : Plane :=
  (List.range 64).foldl (fun p ea => planeWrite p ea 0x3F (fieldOf p ea 0x3F &&& 1)) p

/-- A stream engine at a swap: its inputs are FREE, and a stream that runs on is one of the new configuration's. -/
def Engine.swapTo (e : Engine) : Engine :=
  let go (j : StreamJob) : StreamJob := { j with late := false, linked := false }
  { e with di := Vector.replicate 2 Port.reset, drainAsked := false, drainSent := false, job := e.job.map go }

/-- The sealed shadow plane of a core becomes active (R181). -/
def Core.swapPlane (c : Core) (det : Bool) : Core :=
  let old := c.cfg.active
  let new := c.cfg.shadow
  let pools := Vector.ofFn fun n : Fin 16 => if poolChanged old new n then (c.pools[n]).reclaim else c.pools[n]
  ({ c with
    cfg := { c.cfg with active := new, idx := c.cfg.shadowIdx, shadow := shadowCopy new, dests := c.cfg.shadowDests, shadowDests := [],
                        writers := [], bad := [], loaded := false, isSealed := false, armed := false, overlaid := false, latched := none,
                        drained := false, strays := [], begun := false, returned := [], barred := [] },
    elems := (List.range 64).map fun ea => (ea, (c.elem ea).swapTo new ea),
    pools := pools, permits := Vector.replicate 8 0, takePort := Port.reset, router := c.router.swapTo new det,
    engines := c.engines.map Engine.swapTo }).count 0x12

/-! ### Drains (R124, R180, R340) -/

/-- Whether the core's engines have performed what they issued, and hold no link slot, one for a tile's handle included (R165, R180,
R340). -/
def State.enginesQuiet (s : State) (core : Nat) : Bool :=
  (List.range 8).all fun k =>
    match ((s.core core).engine k).job with
    | none => true
    | some j =>
      !(j.linked && !(j.beatLinks core j.next).isEmpty) &&
        j.beats.all fun b => (b.delivered || (j.beatLinks core b.n).isEmpty) && b.mem.isEmpty && b.remote.isEmpty &&
          (b.updates.isEmpty || (b.delivered && b.waits == 0)) && b.tiles.all fun t => !j.unpub.contains t.2

/-- Whether the element records a stray that no resolution has reported. -/
def Core.newStrays (c : Core) : List (Nat × BitVec 2) :=
  (List.range 64).filterMap fun ea => if c.cfg.strays.contains ea then none else (c.elem ea).stray.map fun i => (ea, i)

/-- CORE_DRAIN_REPORT: the collector of the turn's core reports to the lead core of its region (R180, R340), once every write on its way to
an accumulator bank has landed (R249). -/
def execCoreDrainReport (s : State) : Out :=
  let core := s.cur.core
  let c := s.here
  let g := c.cfg
  let quiet := (s.flights.all fun f => f.dst.core != core) && (s.credits.all fun k => k.dst.core != core) &&
    c.elems.all fun e => e.2.pending.isEmpty
  if (g.draining || g.noticed) && !g.reported && c.allPassed && g.abandoned && quiet && s.enginesQuiet core && c.routerDrained then
    .next ((s.onCfg core fun g => { g with reported := true }).send core (s.lead core) (.drainReport (!c.newStrays.isEmpty)))
  else .next s

/-- DRAIN_BEGIN_NOTICE: the lead core hears that a drain has begun and tells the others; another core hears it from the lead
(packet n) (R180). A notice of a drain that has been resolved here says nothing, and one of a drain whose predecessor has not waits. -/
def execDrainBeginNotice (s : State) : Out :=
  match s.arriving s.cur.n with
  | some { dst, kind := .drainBegin num, .. } =>
    let t := s.takePacket s.cur.n
    let g := (s.core dst).cfg
    if g.drains < num then .next s
    else if num < g.drains then .next t
    else
      let u := if dst = s.lead dst && !g.noticed then t.tellRegion dst else t
      .next (u.onCfg dst fun g => { g with noticed := true, begun := true })
  | _ => .next s

/-- The stray flag of a core's report on its way to the lead core, if the report is there. -/
def State.reportOf (s : State) (lead core : Nat) : Option Bool :=
  s.net.findSome? fun p => match p.kind with
    | .drainReport f => if p.src = core && p.dst = lead && s.fate core lead = .arrives && s.accepts p then some f else none
    | _ => none

/-- A drain of a core ends with a result (R124, R180). -/
def ConfigEngine.ended (g : ConfigEngine) (r : BitVec 3) : ConfigEngine :=
  { g with result := some r, draining := false, noticed := false, abandoned := false, reported := false, failed := false,
           drains := g.drains + 1 }

/-- A swap of a core: where a core has not swapped since a drain began in its region, or since senders of this core returned their counts for
its ports, those senders have no count for them from now on (R181). -/
def State.swapCore (s : State) (core : Nat) : State :=
  let det := s.isDet core
  let behind := (s.cores.filter fun e => e.1 != core && (e.2.cfg.begun || e.2.cfg.returned.contains core)).map (·.1)
  let s := behind.foldl (fun s c => s.onCfg c fun g => { g with barred := core :: g.barred.filter (· != core) }) s
  (s.endChains core 9).onCore core fun c => c.swapPlane det

/-- At a resolution the latched choice of a core is loaded, after every load that the engine still holds, and sealed: it is armed, or has
failed (R120, R126). -/
def State.takeChoice (s : State) (core : Nat) : State :=
  match (s.core core).cfg.latched with
  | none => s
  | some j =>
    let earlier := (s.core core).cfg.loads
    let s := earlier.foldl (fun s j => s.loadStream core j) (s.onCfg core fun g => { g with latched := none, loads := [] })
    let s := (s.loadStream core j).sealPlane core
    s.onCfg core fun g => { g with failed := !g.armed }

/-- DRAIN_RESOLUTION: every core of the region of the turn's lead core has reported. Where no stray has been, the choices that its cores have
latched are loaded; the journal's drain point comes before any swap (R124, R126, R180, R351, R373). -/
def execDrainResolution (s : State) : Out :=
  let lead := s.cur.core
  let cs := s.region lead
  if lead ≠ s.lead lead || cs.isEmpty || !(cs.all fun c => (s.reportOf lead c).isSome) then .next s
  else
    let stray := cs.any fun c => s.reportOf lead c == some true
    let mine (p : Packet) : Bool := match p.kind with
      | .drainReport _ => p.dst == lead
      | _ => false
    let t := { s with net := s.net.filter fun p => !mine p, regions := s.regions ++ [(⟨lead, stray⟩ : RegionDrain)] }
    match if stray then none else cs.findSome? fun c => ((s.core c).cfg.loads ++ (s.core c).cfg.latched.toList).findSome? (s.unanswered c) with
    | some u => .next u
    | none => .next (if stray then t else cs.foldl State.takeChoice t).drainPoint

/-- A drain that has resolved cancels the checkpoint MARKs counted so far (R390). -/
def Core.cancelMarks (c : Core) : Core := { c with elems := c.elems.map fun e => (e.1, { e.2 with ckpt := none }) }

/-- A drain has been resolved at a core: the checkpoint MARKs counted there are cancelled, and what its CKPT holds and pauses goes on, so that
the next configuration can reach a checkpoint (R390; log entry 29). -/
def State.cancelCheckpoint (s : State) (core : Nat) : State :=
  let s := s.onCore core Core.cancelMarks
  { s with launches := s.launches.map fun l =>
      { l with heldCores := l.heldCores.filter (· != core), pausedCores := l.pausedCores.filter (· != core) } }

/-- RESOLUTION_APPLY: the resolution of its region reaches a core (packet n) (R124, R126, R181). The core swaps if its plane was armed at the
region's drain point; a plane armed since waits for the next drain (R124; log entry 49). A CFG.SWP whose checks are still under way when a drain
resolves with a stray is dropped without a report: DESIGN CHOICE (log entry 63). -/
def execResolutionApply (s : State) : Out :=
  match s.arriving s.cur.n with
  | some { dst, kind := .resolution stray, .. } =>
    let t := ((s.takePacket s.cur.n).onCore dst fun c => c.count 0x13).cancelCheckpoint dst
    let g := (t.core dst).cfg
    if stray then
      let strays := (t.core dst).newStrays
      let t := t.onCfg dst fun g =>
        { g.ended 2 with armed := false, isSealed := false, sealing := false, latched := none, strays := g.strays ++ strays.map (·.1) }
      .next (strays.foldl (fun t x => t.raise dst 0x24 1 x.1 (BitVec.ofNat 64 (x.1 + x.2.toNat * 2 ^ 8))) t)
    else if g.armed && g.overlaid then .next ((t.swapCore dst).onCfg dst fun g => g.ended 0)
    else .next (t.onCfg dst fun g => g.ended (if g.failed then 3 else 1))
  | _ => .next s

end Sys2Proof.Machine
end

