-- ==== Sys2Proof/Machine/Journal.lean ====
section
/-! DEFINITION. The JRN instructions and what a JRN packet does in their place (R364–R371, R378), segments (R360, R362), and the
journal's events: replies, windows, trials, bank moves and the controllers' proposals (R274, R354, R364, R387). -/

namespace Sys2Proof.Machine

/-- A refusal (R364). -/
def journalRefusal (code : Nat) : Word := BitVec.ofNat 64 (2 ^ 63 + code)

/-- Who proposes: a program on a core, the host with a packet of a queue, or firmware; and the ORIGIN of its records (R348). -/
structure Proposer where
  core : Option Nat
  tag : BitVec 6
  part : BitVec 5
  /-- 0 firmware, 3 program, 4 host, 5 load. -/
  origin : BitVec 3
  deriving DecidableEq, Repr

/-- Whether the proposer is a program. -/
def Proposer.program (w : Proposer) : Bool := w.core.isSome

/-- The program on the core whose turn it is. -/
def State.programHere (s : State) : Proposer := ⟨some s.cur.core, s.here.ctxTag, s.here.ctxPart, 3⟩

/-- The number of partitions (R19). -/
def Variant.partitions : Variant → Nat
  | .y7 => 32
  | .y7l => 16

/-! ### Proposals (R345, R347, R365) -/

/-- The fields that a group of a key admits (R345). -/
def groupAdmits (g fn : Nat) : Bool :=
  match g with
  | 1 => decide (8 ≤ fn) && decide (fn < 0x10)
  | 2 => decide (0x10 ≤ fn) && decide (fn < 0x38)
  | 4 => decide (0x40 ≤ fn) && decide (fn < 0x48)
  | _ => false

/-- The refusal of one change, if it is refused: OPERAND for a key that is malformed or that the kind does not permit, DENIED for what
lies outside the partition or what a program may not propose, OPERAND for a key outside the scope, and for a POLICY change of bits that
none may alter, by the active plane as it stands. -/
def State.keyRefusal (s : State) (program : Bool) (part : BitVec 5) (kind : BitVec 4) (sc : BitVec 40) (e : ImageEntry) : Option Nat :=
  let k := e.key
  let fn := e.fn.toNat
  let c := keyCore k
  let g := keyGroup k
  let place : Option Nat := if s.partOf c != some part then some 3 else if s.keyTouches sc k then none else some 2
  match keyType k with
  | 0 =>
    let fields :=
      if g = 5 then
        kind == 3 && decide (0x40 ≤ keyFirst k) && decide (keyLast k ≤ 0x57) &&
          ((fn == 0 && decide (0x50 ≤ keyFirst k)) || (fn == 1 && decide (keyLast k < 0x50)))
      else
        decide (keyLast k ≤ 0x3F) && groupAdmits g fn && ((kind == 1 && (g == 1 || g == 4)) || (kind == 2 && g == 2))
    let kept := !(kind == 3 && (keyRange k).any fun ea =>
      (fieldOf (s.activePlane c) ea fn ^^^ e.after.setWidth 16) &&& ~~~policyMask e.fn != 0)
    if !fields || k.extractLsb' 0 2 != 0 || keyLast k < keyFirst k || s.variant.coreCount ≤ c || e.after.extractLsb' 16 16 != 0 then some 2
    else if place.isNone && !kept then some 2
    else place
  | 1 =>
    let dest := e.after.extractLsb' 0 5
    if kind != 0 || fn != 0 || k.extractLsb' 0 16 != 0 || e.after &&& ~~~0x9F#32 != 0 || s.variant.partitions ≤ dest.toNat ||
        s.variant.coreCount ≤ c then some 2
    else if program && (keyIsCore k || dest != part || s.bankPartOf c (keyBank k) != part) then some 3
    else place
  | 2 =>
    let id := keyPolicy k
    if kind != 3 || fn != 0 || k.extractLsb' 21 9 != 0 || !(decide (id < 2) || (decide (0x10 ≤ id) && decide (id < 0x18)) || id == 0x20) then
      some 2
    else if program || keyPart k != part then some 3
    else if s.keyTouches sc k then none else some 2
  | _ =>
    if kind != 1 || fn != 0 || k.extractLsb' 0 21 != 0 || s.variant.coreCount ≤ c then some 2
    else if program then some 3
    else place

/-- The policy word index of a KT 2 entry of an image is its policy id (R348; log entry 51). -/
def policyIndex (k : BitVec 32) : BitVec 16 := BitVec.ofNat 16 (keyPolicy k)

/-- An image entry from its two qwords, and whether its reserved bits are zero and a policy word's index is that of its key (R348). -/
def imageEntry (q0 q1 : Word) : ImageEntry × Bool :=
  let k : BitVec 32 := q0.extractLsb' 0 32
  let word := keyType k == 2
  (⟨k, if word then 0 else q0.extractLsb' 32 16, 0, q1.extractLsb' 0 32⟩,
    q0.extractLsb' 48 16 == 0 && q1.extractLsb' 32 32 == 0 && (!word || q0.extractLsb' 32 16 == policyIndex k))

/-- The entries of an image, and whether every reserved bit is zero. -/
def imageEntries : List Word → List ImageEntry × Bool
  | q0 :: q1 :: qs => let r := imageEntries qs; ((imageEntry q0 q1).1 :: r.1, (imageEntry q0 q1).2 && r.2)
  | _ => ([], true)

/-- The first refusal among changes; OPERAND for moves that would leave a partition in pieces (R19; log entry 51). -/
def State.keysRefusal (s : State) (w : Proposer) (kind : BitVec 4) (sc : BitVec 40) (es : List ImageEntry) : Option Nat :=
  (es.findSome? (s.keyRefusal w.program w.part kind sc)).or (if s.keepsPartitions es then none else some 2)

/-- The TRIAL of a proposal (R365). -/
def State.trialOf (s : State) (part : BitVec 5) (t : Nat) : Nat := if t = 0 then s.trialDefault part else max s.journal.trialMin.toNat t

/-- A proposal of a block of eight qwords: the value for d, or the translation fault of its image (R365). -/
def State.propose (s : State) (w : Proposer) (q : List Word) : State × Except (BitVec 8 × Word) Word :=
  let at_ (i : Nat) : Word := (q[i]?).getD 0
  let kind : BitVec 4 := (at_ 0).extractLsb' 48 4
  let sc : BitVec 40 := (at_ 1).extractLsb' 0 40
  let img := (at_ 3).getLsbD 63
  let nent := ((at_ 4).extractLsb' 56 8).toNat
  let reserved := (at_ 0) &&& ~~~(0xF#64 <<< 48) != 0 || at_ 2 != 0 || at_ 6 != 0 || at_ 7 != 0 || (at_ 5).extractLsb' 0 48 != 0 ||
    (if img then (at_ 3).extractLsb' 55 8 != 0 || (at_ 4).extractLsb' 0 56 != 0 || nent == 0
     else (at_ 3).extractLsb' 48 15 != 0 || (at_ 4).extractLsb' 0 32 != 0)
  if reserved || 3 < kind.toNat then (s, .ok (journalRefusal 2))
  else
    match s.scopeRefusal w.part (at_ 1) with
    | some code => (s, .ok (journalRefusal code))
    | none =>
      let record (s : State) (es : List ImageEntry) : State × Except (BitVec 8 × Word) Word :=
        match s.roomForTx with
        | none => (s, .ok (journalRefusal 1))
        | some u =>
          let n := u.journal.nextNum
          let trial := s.trialOf w.part ((at_ 5).extractLsb' 48 16).toNat
          let u := u.recordTx .proposed fun x =>
            { x with kind := kind, origin := w.origin, scope := sc, img := img, entries := es, trial := trial, tag := w.tag }
          (u.proceedTx n, .ok (BitVec.ofNat 64 n))
      if img then
        match s.fetchBytes w.core w.tag ((at_ 3).extractLsb' 0 55 |>.setWidth 64) (16 * nent) with
        | (u, .error e) => if s.roomForTx.isNone then (s, .ok (journalRefusal 1)) else (u, .error e)
        | (s, .ok bs) =>
          let (es, clean) := imageEntries (qwordsOf bs)
          if !clean then (s, .ok (journalRefusal 2))
          else
            match s.keysRefusal w kind sc es with
            | some code => (s, .ok (journalRefusal code))
            | none => record s es
      else
        let e : ImageEntry := ⟨(at_ 3).extractLsb' 0 32, (at_ 3).extractLsb' 32 16, 0, (at_ 4).extractLsb' 32 32⟩
        match s.keysRefusal w kind sc [e] with
        | some code => (s, .ok (journalRefusal code))
        | none => record s [e]

/-! ### Records by number (R368, R369) -/

/-- The record that a number names, or the refusal: FOLDED, NOTFOUND, DENIED. -/
def State.findTx (s : State) (part : BitVec 5) (n : Nat) : Except Nat TxRecord :=
  if n < s.journal.oldest then .error 4
  else if s.journal.nextNum ≤ n then .error 6
  else
    match s.tx n with
    | none => .error 6
    | some t => if scopePart t.scope = part then .ok t else .error 3

/-- A request for a revert (R369). -/
def State.requestRevert (s : State) (w : Proposer) (n : Nat) : State × Word :=
  match s.findTx w.part n with
  | .error code => (s, journalRefusal code)
  | .ok t =>
    if !t.state.stands then (s, journalRefusal 7)
    else
      match s.revertTx t w.tag w.origin false with
      | .error code => (s, journalRefusal code)
      | .ok (s, m) => (s, BitVec.ofNat 64 m)

/-! ### Segments (R360, R370) -/

/-- A key with its core relative to an origin (R360). -/
def relativeKey (v : Variant) (x y : Nat) (k : BitVec 32) : BitVec 32 :=
  if keyType k = 2 then k
  else
    let c := keyCore k
    let rel := BitVec.ofNat 9 ((v.cy c + 512 - y) * 32 + v.cx c + 512 - x)
    k.extractLsb' 30 2 ++ (rel ++ k.extractLsb' 0 21)

/-- A scope relative to an origin. -/
def relativeScope (x y : Nat) (sc : BitVec 40) : BitVec 40 :=
  if scopeW sc = 0 then sc else scopeOf (scopePart sc) (scopeX sc + 256 - x) (scopeY sc + 256 - y) (scopeW sc) (scopeH sc)

/-- The 16 bytes of an image entry with a value (R348). -/
def ImageEntry.image (e : ImageEntry) (v : BitVec 32) : List Byte :=
  bytesOf 8 (e.key.toNat + (if keyType e.key = 2 then policyIndex e.key else e.fn).toNat * 2 ^ 32) ++ bytesOf 8 v.toNat

/-- Undoes on a copy every transaction that a test picks and that has applied, the last first: the shape before them. One that has been
reverted has applied too, and the REVERT that undid it is later and is undone before it. -/
def State.before (s : State) (pick : Nat → Bool) : State :=
  (s.journal.records.filter fun t => (t.state.stands || t.state == .reverted) && pick t.num).reverse.foldl
    (fun s t => t.entries.reverse.foldl (fun s e =>
      let c := keyCore e.key
      match keyType e.key with
      | 0 => s.onCore c fun k => { k with cfg := { k.cfg with active := overlayEntry k.cfg.active { e with before := e.after, after := e.before } } }
      | 1 =>
        if keyIsCore e.key then { s with corePart := Sparse.set 0 s.corePart c (e.before.extractLsb' 0 5) }
        else { s with bankPart := Sparse.put s.bankPart (16 * c + keyBank e.key) (e.before.extractLsb' 0 5),
                      reserve := Sparse.set false s.reserve (16 * c + keyBank e.key) (e.before.getLsbD 7) }
      | _ => s) s) s

/-- The records that a segment carries. -/
def State.segmentRecords (s : State) (sc : BitVec 40) (fromNum toNum : Nat) : List TxRecord :=
  s.journal.records.filter fun t =>
    t.state.stands && decide (t.kind.toNat < 4) && decide (fromNum ≤ t.num) && decide (t.num ≤ toNum) && s.touches t sc

/-- Records and images of a segment from an offset of the images on. -/
def segmentBody (v : Variant) (x y : Nat) : List TxRecord → Nat → List Byte × List Byte
  | [], _ => ([], [])
  | t :: ts, off =>
    let es := t.entries.map fun (e : ImageEntry) => { e with key := relativeKey v x y e.key }
    let t := { t with scope := relativeScope x y t.scope, entries := es }
    let n := t.entries.length
    let qs := t.qwords 0
    let images := if t.img then t.entries.flatMap (fun e => e.image e.before) ++ t.entries.flatMap (fun e => e.image e.after) else []
    let qs := if t.img then (qs.set 3 (2 ^ 63 + off)).set 4 (off + 16 * n + n % 256 * 2 ^ 56) else qs
    let r := segmentBody v x y ts (off + images.length)
    (qs.flatMap (bytesOf 8) ++ r.1, images ++ r.2)

/-- A signature of 132 bytes over some bytes under the device identity key, which the model does not compute (log entry 5). -/
def signatureOf (bs : List Byte) : List Byte :=
  ((List.range 3).flatMap fun i => bytesOf 64 (Config.cryptoResult i (bytesNat bs)).toNat).take 132

/-- A segment of a scope as the journal stands (R360). -/
def State.segment (s : State) (sc : BitVec 40) (fromNum toNum : Nat) (sign : Bool) : List Byte :=
  let (x, y, w, h) := s.scopeRect sc
  let ts := s.segmentRecords sc fromNum toNum
  let (recs, images) := segmentBody s.variant x y ts 0
  let total := 64 + recs.length + images.length + if sign then 132 else 0
  let head := bytesOf 4 0x31534A59 ++ bytesOf 2 1 ++ bytesOf 2 sign.toNat ++ bytesOf 4 Config.deviceNumber.toNat ++ bytesOf 4 ts.length ++
    bytesOf 8 fromNum ++ bytesOf 8 toNum ++ bytesOf 8 (w % 256 + h % 256 * 256) ++
    bytesOf 4 ((s.before fun n => decide (fromNum ≤ n)).shapeDigest sc).toNat ++
    bytesOf 4 ((s.before fun n => decide (toNum < n)).shapeDigest sc).toNat ++ bytesOf 8 images.length ++ bytesOf 8 total
  let body := head ++ recs ++ images
  if sign then body ++ signatureOf body else body

/-- The job of an accepted block of eight qwords, or the refusal (R370). -/
def State.exportJob (s : State) (w : Proposer) (q : List Word) : Except Nat JournalJob :=
  let at_ (i : Nat) : Word := (q[i]?).getD 0
  let fromNum := ((at_ 1).extractLsb' 0 48).toNat
  let dest := ((at_ 2).extractLsb' 0 48).toNat
  let toNum := if dest = 0 then s.journal.nextNum - 1 else dest
  if (at_ 1).extractLsb' 48 15 != 0 || (at_ 2).extractLsb' 48 16 != 0 || (at_ 3).extractLsb' 55 9 != 0 || (at_ 3).toNat % 64 != 0 ||
      (at_ 4).extractLsb' 32 32 != 0 || (at_ 5).extractLsb' 55 9 != 0 || (at_ 5).toNat % 8 != 0 || at_ 6 != 0 || at_ 7 != 0 then .error 2
  else
    match s.scopeRefusal w.part (at_ 0) with
    | some code => .error code
    | none =>
      if fromNum < s.journal.oldest then .error 4
      else if s.journal.nextNum ≤ fromNum || s.journal.nextNum ≤ toNum then .error 6
      else if toNum < fromNum then .error 2
      else
        let sc : BitVec 40 := (at_ 0).extractLsb' 0 40
        let sign := (at_ 1).getLsbD 63
        .ok { load := false, tag := w.tag, core := w.core, scope := sc, fromNum := fromNum, toNum := toNum, sign := sign, va := at_ 3,
              size := (at_ 4).toNat, status := at_ 5, key := 0, txn := none, applied := 0, started := false, begun := [],
              bytes := s.segment sc fromNum toNum sign }

/-- The job of an accepted load block, or the refusal (R371). -/
def State.loadJob (s : State) (w : Proposer) (q : List Word) : Except Nat JournalJob :=
  let at_ (i : Nat) : Word := (q[i]?).getD 0
  if (at_ 0).extractLsb' 55 9 != 0 || (at_ 0).toNat % 64 != 0 || (at_ 1).extractLsb' 17 47 != 0 || (at_ 2).extractLsb' 55 9 != 0 ||
      (at_ 2).toNat % 8 != 0 || (at_ 3).extractLsb' 55 9 != 0 || ((List.range 4).any fun i => at_ (4 + i) != 0) then .error 2
  else if s.journal.jobs.any fun j => j.load && j.tag == w.tag then .error 1
  else
    .ok { load := true, tag := w.tag, core := w.core,
          scope := scopeOf w.part ((at_ 1).extractLsb' 0 8).toNat ((at_ 1).extractLsb' 8 8).toNat 0 0, fromNum := 0, toNum := 0,
          sign := (at_ 1).getLsbD 16, va := at_ 0, size := 0, status := at_ 2, key := at_ 3, txn := none, applied := 0, started := false, begun := [],
          bytes := [] }

/-- Accepts a job: the value for d. -/
def State.acceptJob (s : State) (r : Except Nat JournalJob) : State × Word :=
  match r with
  | .error code => (s, journalRefusal code)
  | .ok j => ({ s with journal := { s.journal with jobs := s.journal.jobs ++ [j] } }, 0)

/-! ### The instructions (R364–R371) -/

/-- The reply to a JRN instruction is on its way, and issue is held until it comes (R364). -/
def State.journalReply (s : State) (d : SReg) (v : Word) : Out :=
  let id := s.here.nextId
  let s := s.on fun c => { c with wait := .journal id }.nextNumber
  .next { s with journal := { s.journal with calls := s.journal.calls ++ [⟨s.cur.core, id, d, v⟩] } }

/-- A JRN instruction with a block of `n` bytes in scratch. -/
def State.withBlock (s : State) (p : PReg) (a : SReg) (n : Nat) (body : List Word → Out) : Out :=
  s.guarded p <|
    let addr := s.here.reg a
    match scratchFault addr n n with
    | some code => .next (s.precise code addr)
    | none => s.begun <| body ((List.range (n / 8)).map fun i => BitVec.ofNat 64 (readScratch s.here (addr.toNat + 8 * i) 8))

/-- JRN.PROP (R365). -/
def execJrnProp (d a : SReg) (p : PReg) (s : State) : Out :=
  s.withBlock p a 64 fun q =>
    match s.propose s.programHere q with
    | (t, .error (code, va)) => .next (if code = noAnswer then t else t.precise code va)
    | (t, .ok v) => t.journalReply d v

/-- A subscription from a block, or the refusal (R366). -/
def State.subscription (s : State) (q : List Word) : Except Nat Subscription :=
  let at_ (i : Nat) : Word := (q[i]?).getD 0
  if (at_ 0).extractLsb' 55 9 != 0 || (at_ 0).toNat % 64 != 0 || (at_ 1).extractLsb' 55 9 != 0 || (at_ 1).toNat % 16 != 0 ||
      at_ 3 &&& ~~~0x11FCF#64 != 0 then .error 2
  else
    match s.scopeRefusal s.here.ctxPart (at_ 2) with
    | some code => .error code
    | none =>
      if 16 ≤ (s.ctx s.here.ctxTag).subs.length || 256 ≤ s.subscriptions.length then .error 8
      else .ok { core := s.cur.core, b := at_ 0, c := at_ 1, logn := ((at_ 3).extractLsb' 0 4).toNat, mask := (at_ 3).extractLsb' 6 7,
                 scope := (at_ 2).extractLsb' 0 40, gap := 0 }

/-- The lowest number below a bound that a map does not list. -/
def lowestFree {α : Type} (m : Sparse α) (bound : Nat) : Nat := ((List.range bound).find? fun i => (Sparse.find m i).isNone).getD 0

/-- JRN.SUB (R366): WC and RC are zeroed before the first copy; a fault there ends the subscription (R359). -/
def execJrnSub (d a : SReg) (p : PReg) (s : State) : Out :=
  s.withBlock p a 32 fun q =>
    match s.subscription q with
    | .error code => s.journalReply d (journalRefusal code)
    | .ok b =>
      let tag := s.here.ctxTag
      let n := lowestFree (s.ctx tag).subs 16
      let t := s.onCtx tag fun c => { c with subs := Sparse.put c.subs n b }
      match t.translate b.core tag .write b.c with
      | (t, .error e) => if e = noAnswer then .next s else (t.endSub tag n b.core e b.c).journalReply d (BitVec.ofNat 64 n)
      | (t, .ok at_) =>
        t.ifArrives (t.portFate at_) tag <|
        let t := t.applyPending at_ 16
        let t := { t with mem := writeBytes t.mem at_ (bytesOf 16 0) }
        let held := if ((q[3]?).getD 0).getLsbD 16 then t.journal.records.filter fun r => t.touches r b.scope else []
        (held.foldl (fun t r => t.deliverCopy tag n r) t).journalReply d (BitVec.ofNat 64 n)

/-- JRN.USUB (R366). -/
def execJrnUsub (d a : SReg) (p : PReg) (s : State) : Out :=
  s.guarded p <| s.begun <|
    let tag := s.here.ctxTag
    let n := (s.here.reg a).toNat % 16
    match Sparse.find (s.ctx tag).subs n with
    | none => s.journalReply d (journalRefusal 6)
    | some _ => (s.onCtx tag fun c => { c with subs := Sparse.drop c.subs n }).journalReply d 0

/-- JRN.PIN (R367). -/
def execJrnPin (d a b : SReg) (p : PReg) (s : State) : Out :=
  s.guarded p <| s.begun <|
    match s.scopeRefusal s.here.ctxPart (s.here.reg a) with
    | some code => s.journalReply d (journalRefusal code)
    | none =>
      let sc : BitVec 40 := (s.here.reg a).extractLsb' 0 40
      let v := ((s.here.reg b).extractLsb' 0 48).toNat
      if v ≠ s.versionOf sc then s.journalReply d (journalRefusal 5)
      else if 64 ≤ s.journal.pins.length then s.journalReply d (journalRefusal 8)
      else
        let n := lowestFree s.journal.pins 64
        { s with journal := { s.journal with pins := Sparse.put s.journal.pins n ⟨sc, v, s.here.ctxTag⟩ } }.journalReply d (BitVec.ofNat 64 n)

/-- JRN.UPIN (R367): what the pin alone held leaves PENDING. -/
def execJrnUpin (d a : SReg) (p : PReg) (s : State) : Out :=
  s.guarded p <| s.begun <|
    let n := (s.here.reg a).toNat % 64
    match Sparse.find s.journal.pins n with
    | none => s.journalReply d (journalRefusal 6)
    | some q =>
      if q.tag ≠ s.here.ctxTag then s.journalReply d (journalRefusal 6)
      else { s with journal := { s.journal with pins := Sparse.drop s.journal.pins n } }.settleJournal.journalReply d 0

/-- JRN.VER (R368). -/
def execJrnVer (d a : SReg) (p : PReg) (s : State) : Out :=
  s.guarded p <| s.begun <|
    match s.scopeRefusal s.here.ctxPart (s.here.reg a) with
    | some code => s.journalReply d (journalRefusal code)
    | none => s.journalReply d (BitVec.ofNat 64 (s.versionOf ((s.here.reg a).extractLsb' 0 40)))

/-- JRN.RD (R368). -/
def execJrnRd (d a b : SReg) (p : PReg) (s : State) : Out :=
  s.guarded p <|
    let addr := s.here.reg b
    match scratchFault addr 64 64 with
    | some code => .next (s.precise code addr)
    | none => s.begun <|
      match s.findTx s.here.ctxPart ((s.here.reg a).extractLsb' 0 48).toNat with
      | .error code => s.journalReply d (journalRefusal code)
      | .ok t =>
        (s.on fun c => writeScratch c addr.toNat (bytesNat (t.bytes 0)) 64).journalReply d (BitVec.ofNat 64 (((t.qwords 0).head?).getD 0))

/-- JRN.RVT (R369). -/
def execJrnRvt (d a : SReg) (p : PReg) (s : State) : Out :=
  s.guarded p <| s.begun <|
    let r := s.requestRevert s.programHere ((s.here.reg a).extractLsb' 0 48).toNat
    r.1.journalReply d r.2

/-- JRN.EXP (R370). -/
def execJrnExp (d a : SReg) (p : PReg) (s : State) : Out :=
  s.withBlock p a 64 fun q =>
    let r := s.acceptJob (s.exportJob s.programHere q)
    r.1.journalReply d r.2

/-- JRN.LOAD (R371). -/
def execJrnLoad (d a : SReg) (p : PReg) (s : State) : Out :=
  s.withBlock p a 64 fun q =>
    let r := s.acceptJob (s.loadJob s.programHere q)
    r.1.journalReply d r.2

/-- JOURNAL_REPLY: the reply to the JRN instruction that holds the issue of the turn's core (R364). -/
def execJournalReply (s : State) : Out :=
  match s.here.wait with
  | .journal id =>
    match s.journal.calls.find? fun c => c.core == s.cur.core && c.id == id with
    | none => .next s
    | some c =>
      .next ({ s with journal := { s.journal with calls := s.journal.calls.filter fun x => x != c } }.finishWait c.d c.reply)
  | _ => .next s

/-! ### Background jobs (R362, R370, R371) -/

/-- A job ends: its status qword is written last. -/
def State.endJob (s : State) (n : Nat) (j : JournalJob) (reason low : Nat) : State :=
  let s := { s with journal := { s.journal with jobs := s.journal.jobs.eraseIdx n } }
  (s.putBytes j.core j.tag j.status (bytesOf 8 (2 ^ 63 + reason * 2 ^ 56 + low))).1

/-- JOURNAL_EXPORT_COMPLETE: the segment of job n is written, and its status (R370). -/
def execJournalExportComplete (s : State) : Out :=
  match s.journal.jobs[s.cur.n]? with
  | none => .next s
  | some j =>
    if j.load then .next s
    else
      let len := j.bytes.length
      if j.size < len then .next (s.endJob s.cur.n j 1 (len % 2 ^ 32))
      else
        match s.putBytes j.core j.tag j.va j.bytes with
        | (s, some (0, _)) => .next s
        | (s, some _) => .next (s.endJob s.cur.n j 3 (len % 2 ^ 32))
        | (s, none) => .next (s.endJob s.cur.n j 0 (len % 2 ^ 32))

/-- A field of `n` bytes of a segment. -/
def segmentField (bs : List Byte) (off n : Nat) : Nat := bytesNat ((bs.drop off).take n)

/-- The refusal of a header: MAGIC, VERSION, lengths and reserved bits. -/
def badHeader (h : List Byte) : Bool :=
  let signed := segmentField h 6 2
  segmentField h 0 4 != 0x31534A59 || segmentField h 4 2 != 1 || decide (1 < signed) ||
    segmentField h 0x38 4 != 64 + 64 * segmentField h 0x0C 4 + segmentField h 0x30 4 + (if signed = 1 then 132 else 0)

/-- Whether the signature of a segment verifies under a key, which the model does not compute (log entry 5). -/
def signatureGood (bs key : List Byte) : Bool :=
  bytesNat (key.take 1) == 4 && (Config.cryptoResult 3 (bytesNat (bs ++ key))).getLsbD 0

/-- The first step of a load: the header, the signature, the rectangle and the base digest; then the LOADED record. -/
def State.startLoad (s : State) (n : Nat) (j : JournalJob) : State :=
  match s.fetchBytes j.core j.tag j.va 64 with
  | (s, .error (0, _)) => s
  | (s, .error _) => s.endJob n j 7 0
  | (s, .ok h) =>
    if badHeader h then s.endJob n j 1 0
    else
      match s.fetchBytes j.core j.tag j.va (segmentField h 0x38 4) with
      | (s, .error (0, _)) => s
      | (s, .error _) => s.endJob n j 7 0
      | (s, .ok bs) =>
        let wanted := j.sign || j.key != 0
        let key := if j.key = 0 then (s, .ok []) else s.fetchBytes j.core j.tag j.key 133
        match key with
        | (s, .error (0, _)) => s
        | (s, .error _) => s.endJob n j 7 0
        | (s, .ok key) =>
          if wanted && !(segmentField h 6 2 == 1 && j.key != 0 && signatureGood bs key) then s.endJob n j 2 0
          else
            let sc := scopeOf (scopePart j.scope) (scopeX j.scope) (scopeY j.scope) (segmentField h 0x20 1) (segmentField h 0x21 1)
            if scopeW sc = 0 || (s.scopeRefusal (scopePart sc) (sc.setWidth 64)).isSome then s.endJob n j 3 0
            else if (s.shapeDigest sc).toNat ≠ segmentField h 0x28 4 then s.endJob n j 4 0
            else
              match s.roomForTx with
              | none => s
              | some s =>
                let m := s.journal.nextNum
                let s := s.recordTx .confirmed fun x =>
                  { x with kind := kindLoaded, origin := 5, scope := sc, tag := j.tag, digest := s.shapeDigest sc,
                           aidx := (s.core (s.scopeLead sc)).cfg.idx }
                { s with journal := { s.journal with
                    jobs := s.journal.jobs.set n { j with scope := sc, started := true, begun := [m], bytes := bs } } }

/-- A key of a segment translated to the target (R362). -/
def targetKey (v : Variant) (x y : Nat) (part : BitVec 5) (k : BitVec 32) : BitVec 32 :=
  if keyType k = 2 then k.extractLsb' 21 11 ++ (part ++ k.extractLsb' 0 16)
  else
    let rel := keyCore k
    k.extractLsb' 30 2 ++ (BitVec.ofNat 9 (v.coreAt (x + rel % 32) (y + rel / 32)) ++ k.extractLsb' 0 21)

/-- The record of a segment at an index, as a local transaction; the closure of the first record of its load, and of LOADED, holds it (R362). -/
def State.segmentTx (s : State) (j : JournalJob) (i : Nat) (x : TxRecord) : TxRecord :=
  let bs := j.bytes
  let q (k : Nat) : Word := BitVec.ofNat 64 (segmentField bs (64 + 64 * i + 8 * k) 8)
  let base := 64 + 64 * segmentField bs 0x0C 4
  let img := (q 3).getLsbD 63
  let nent := ((q 4).extractLsb' 56 8).toNat
  let es := if img then (imageEntries (qwordsOf ((bs.drop (base + ((q 4).extractLsb' 0 55).toNat)).take (16 * nent)))).1
    else [⟨(q 3).extractLsb' 0 32, (q 3).extractLsb' 32 16, 0, (q 4).extractLsb' 32 32⟩]
  let ox := scopeX j.scope
  let oy := scopeY j.scope
  let part := scopePart j.scope
  let sc : BitVec 40 := (q 1).extractLsb' 0 40
  { x with kind := (q 0).extractLsb' 48 4, origin := 5, tag := j.tag, img := img, odev := (q 6).extractLsb' 0 16,
           onum := (q 6).extractLsb' 16 48,
           scope := if scopeW sc = 0 then partScope part else scopeOf part (scopeX sc + ox) (scopeY sc + oy) (scopeW sc) (scopeH sc),
           entries := es.map fun e => { e with key := targetKey s.variant ox oy part e.key }, deps := j.begun }

/-- JOURNAL_LOAD_STEP: job n proposes its next record once the one before has left APPLYING, or ends with the digest check
(R362, R363). -/
def execJournalLoadStep (s : State) : Out :=
  let n := s.cur.n
  match s.journal.jobs[n]? with
  | none => .next s
  | some j =>
    if !j.load then .next s
    else if !j.started then .next (s.startLoad n j)
    else
      let refused : Bool := match j.txn with
        | none => false
        | some m => match s.tx m with
          | some t => t.state == .refused
          | none => false
      let busy : Bool := match j.txn with
        | none => false
        | some m => match s.tx m with
          | some t => t.state.inFlight
          | none => false
      if busy then .next s
      else if refused then .next (s.endJob n j 5 j.applied)
      else
        let done := if j.txn.isSome then j.applied + 1 else j.applied
        if segmentField j.bytes 0x0C 4 ≤ done then
          let now := s.shapeDigest j.scope
          let want := segmentField j.bytes 0x2C 4
          if now.toNat = want then .next (s.endJob n j 0 done)
          else
            let s := s.endJob n j 6 done
            .next (match j.core with
              | some c => s.raise c 0x61 6 0 (BitVec.ofNat 64 (now.toNat + want * 2 ^ 32))
              | none => s)
        else
          match s.roomForTx with
          | none => .next s
          | some s =>
            let m := s.journal.nextNum
            let s := s.recordTx .proposed fun x => s.segmentTx j done x
            let j := { j with txn := some m, applied := done, begun := if j.begun.length < 2 then j.begun ++ [m] else j.begun }
            let s := { s with journal := { s.journal with jobs := s.journal.jobs.set n j } }
            match s.tx m with
            | none => .next s
            | some t =>
              let bad := decide (3 < t.kind.toNat) || t.entries.isEmpty || (s.scopeRefusal (scopePart j.scope) (t.scope.setWidth 64)).isSome ||
                (s.keysRefusal ⟨j.core, j.tag, scopePart j.scope, 5⟩ t.kind t.scope t.entries).isSome
              .next (if bad then (s.refuseTx m 1).settleJournal else s.proceedTx m)

/-! ### Windows and trials (R344, R353, R354, R387) -/

/-- The units that every core has retired. -/
def State.unitSnapshot (s : State) : Sparse Nat := s.cores.map fun e => (e.1, e.2.units)

/-- The service counters of a partition after a window of its lead core in which it retired some units (R387). -/
def State.countService (s : State) (part : BitVec 5) (units : Nat) : State :=
  let target := (s.policy part 0x20).toNat
  let next (v : Service) : Service :=
    { below := if units < target then v.below + 1 else 0, above := if target < units then v.above + 1 else 0 }
  { s with journal := { s.journal with
      service := Sparse.upd { below := 0, above := 0 } s.journal.service part.toNat next } }

/-- PROGRESS_WINDOW_EXPIRY: a window of 65,536 cycles of the turn's core as a lead core ends (R344, R354). A trial counts TRIAL windows at
most, and a transaction in APPLYING those that began after its entry. -/
def execProgressWindowExpiry (s : State) : Out :=
  let core := s.cur.core
  let w := s.leadWindows core
  if s.here.cycle.toNat / 65536 ≤ w.index then .next s
  else
    let last := (w.snaps.head?).getD []
    let gained (sc : BitVec 40) : Nat := s.scopeUnits sc - s.snapUnits sc last
    let step (t : TxRecord) : TxRecord :=
      if s.scopeLead t.scope ≠ core then t
      else if t.state = .trial && !t.isOver && t.window ≤ w.index && t.windows < t.trial then
        { t with units := t.units + gained t.scope, windows := t.windows + 1 }
      else if t.state = .applying && t.window ≤ w.index then { t with age := t.age + 1 }
      else t
    let part := (s.partOf core).getD 0
    let s' := { s with journal := { s.journal with
      records := s.journal.records.map step,
      windows := Sparse.put s.journal.windows core { index := w.index + 1, snaps := (s.unitSnapshot :: w.snaps).take 5 } } }
    .next (if s.scopeLead (partScope part) = core then s'.countService part (gained (partScope part)) else s')

/-- TRIAL_END: the trial of transaction n has run its windows, or is over and awaits room for its REVERT (R354); in deterministic mode trials end at
drain points (R355). -/
def execTrialEnd (s : State) : Out :=
  match s.tx s.cur.n with
  | none => .next s
  | some t => if t.state = .trial && !t.det && (t.isOver || t.trial ≤ t.windows) then .next (s.endTrial t.num) else .next s

/-! ### Bank moves (R274, R353, R372) -/

/-- Whether a request or a slot still uses a bank; a parked read holds no place of its queue (R267, R274). -/
def State.bankBusy (s : State) (core b : Nat) : Bool :=
  let c := s.core core
  let k := c.bank b
  !k.queue.isEmpty ||
    (List.range 16).any (fun n => (poolBanks c.cfg.active n).contains b && (c.pool n).slots.any fun e =>
      e.2.state != slotFree && (slotBanks c.cfg.active n e.1).contains b) ||
    s.net.any fun p => match p.kind with
      | .bankRequest r => handleCore r.handle == core &&
          (placement c.cfg.active (handlePool r.handle) (handleSlot r.handle) r.sector).1 == b
      | _ => false

/-- BANK_MOVE: the fenced bank of move n has emptied, and its zeroising begins. -/
def execBankMove (s : State) : Out :=
  match s.moves[s.cur.n]? with
  | none => .next s
  | some m =>
    if m.done || s.bankBusy m.core m.bank then .next s
    else .next (s.onCore m.core fun c => c.onBank m.bank fun k => { k with zeroising := true })

/-- BANK_ZEROISE_COMPLETE: the bank of move n is zero, its presence bits are clear, and it carries its new owner's tag. -/
def execBankZeroiseComplete (s : State) : Out :=
  match s.moves[s.cur.n]? with
  | none => .next s
  | some m =>
    if m.done || !((s.core m.core).bank m.bank).zeroising then .next s
    else
      let mine (k : Nat) : Bool := k / 2048 == m.bank
      let p := s.activePlane m.core
      let clear (n : Nat) (q : Pool) : Pool :=
        { q with slots := q.slots.map fun e =>
            (e.1, { e.2 with pres := e.2.pres.filter fun x => !((poolBanks p n).contains m.bank && (placement p n e.1 x).1 == m.bank) }) }
      let s := s.onCore m.core fun c =>
        ((List.range 16).foldl (fun (c : Core) n => c.onPool n (clear n))
          { c with sram := c.sram.filter (fun e => !mine e.1), sramTaint := c.sramTaint.filter fun e => !mine e.1 }).onBank m.bank
            fun k => { k with zeroising := false }
      let tag := s.tagOfPart (m.dest.extractLsb' 0 5)
      let s := { s with btag := Sparse.set 0 s.btag (16 * m.core + m.bank) tag, moves := s.moves.set s.cur.n { m with done := true } }
      .next s.settleJournal

/-- BANK_BUSY_EXPIRY: transaction n, which moves a bank or changes a GEOM.IL, has stood in APPLYING for its trial length; a REVERT, which may wait for a
core too, for TRIALDEF windows (R353, R356). -/
def execBankBusyExpiry (s : State) : Out :=
  match s.tx s.cur.n with
  | none => .next s
  | some t =>
    let waits := t.entries.any fun e => (keyType e.key == 1 && (!keyIsCore e.key || t.kind == kindRevert)) || e.isGeom
    let limit := if t.trial = 0 then s.trialDefault (scopePart t.scope) else t.trial
    if t.state = .applying && waits && limit ≤ t.age then .next (s.refuseTx t.num 3).settleJournal else .next s

/-! ### Controllers (R347, R355, R387) -/

/-- Whether a deterministic launch runs in a partition. -/
def State.partDet (s : State) (part : BitVec 5) : Bool := s.launches.any fun l => l.placed && l.det && l.part == part

/-- The proposal of a controller, in its partition's scope. -/
def State.controllerTx (s : State) (kind : BitVec 4) (origin : BitVec 3) (part : BitVec 5) (e : ImageEntry) : State :=
  match s.roomForTx with
  | none => s
  | some s =>
    let n := s.journal.nextNum
    (s.recordTx .proposed fun x =>
      { x with kind := kind, origin := origin, scope := partScope part, entries := [e], trial := s.trialDefault part,
               tag := s.tagOfPart part }).proceedTx n

/-- CONTROLLER_PROPOSAL: the service-target controller moves the idle core of the turn over the border to partition m, or with n from 1 to 16
bank n − 1 of the core to it, where that partition has stood below and the present one above its target (R347, R387). Where the turn's flag is
set, the scale controller changes scale register n of the turn's element to m; with a unit of 64 on, the service-target controller changes policy
word n of the partition to m (R347). -/
def execControllerProposal (s : State) : Out :=
  let core := s.cur.core
  match s.partOf core with
  | none => .next s
  | some own =>
    let service (p : BitVec 5) : Service := Sparse.get { below := 0, above := 0 } s.journal.service p.toNat
    if s.partDet own then .next s
    else if s.cur.flag && 64 ≤ s.cur.unit then
      let e : ImageEntry := ⟨BitVec.ofNat 32 (2 ^ 31 + own.toNat * 65536 + s.cur.n % 65536), 0, 0, BitVec.ofNat 32 s.cur.m⟩
      .next (if (s.keyRefusal false own 3 (partScope own) e).isSome then s else s.controllerTx 3 1 own e)
    else if s.cur.flag then
      let ea := s.cur.unit % 64
      let key := BitVec.ofNat 32 (core * 2 ^ 21 + ea * 2 ^ 13 + ea * 2 ^ 5 + 2 * 4)
      .next (s.controllerTx 2 2 own ⟨key, BitVec.ofNat 16 (0x30 + s.cur.n % 8), 0, BitVec.ofNat 32 (s.cur.m % 65536)⟩)
    else
      let dest := BitVec.ofNat 5 s.cur.m
      let wanted (own : BitVec 5) : Bool :=
        dest ≠ own && !s.partDet dest && decide (4 ≤ (service dest).below) && decide (4 ≤ (service own).above)
      let b := (s.cur.n - 1) % 16
      let mine := s.scopeCores (partScope own)
      let theirs := s.scopeCores (partScope dest)
      let border := (s.spread [core] 1 theirs).contains core
      if s.cur.n ≠ 0 then
        let key := BitVec.ofNat 32 (2 ^ 30 + core * 2 ^ 21 + b * 2 ^ 17)
        .next (if s.cur.n ≤ 16 && wanted (s.bankPartOf core b) && !s.partDet (s.bankPartOf core b) then
          s.controllerTx 0 1 (s.bankPartOf core b) ⟨key, 0, 0, dest.setWidth 32⟩ else s)
      else if wanted own && (s.launchOf core).isNone && border && s.connected (mine.filter (· != core)) then
        let key := BitVec.ofNat 32 (2 ^ 30 + core * 2 ^ 21 + 2 ^ 16)
        .next (s.controllerTx 0 1 own ⟨key, 0, 0, dest.setWidth 32⟩)
      else .next s

end Sys2Proof.Machine
end

