-- ==== Sys2Proof/Machine/Sha.lean ====
section
/-! DEFINITION. SHA-512 and SHA-512/256, by which the part measures (R385, R405, R406, R420). The spec names the functions; what they
are is taken from FIPS 180-4 (PRESUMED; log entry 16). -/

namespace Sys2Proof.Machine

/-- The eight words of a hash. -/
structure HashState where
  a : BitVec 64
  b : BitVec 64
  c : BitVec 64
  d : BitVec 64
  e : BitVec 64
  f : BitVec 64
  g : BitVec 64
  h : BitVec 64
  deriving DecidableEq, Repr

/-- Round constants 0–15. -/
def shaRounds0 : List (BitVec 64) :=
  [0x428A2F98D728AE22, 0x7137449123EF65CD, 0xB5C0FBCFEC4D3B2F, 0xE9B5DBA58189DBBC,
   0x3956C25BF348B538, 0x59F111F1B605D019, 0x923F82A4AF194F9B, 0xAB1C5ED5DA6D8118,
   0xD807AA98A3030242, 0x12835B0145706FBE, 0x243185BE4EE4B28C, 0x550C7DC3D5FFB4E2,
   0x72BE5D74F27B896F, 0x80DEB1FE3B1696B1, 0x9BDC06A725C71235, 0xC19BF174CF692694]

/-- Round constants 16–31. -/
def shaRounds1 : List (BitVec 64) :=
  [0xE49B69C19EF14AD2, 0xEFBE4786384F25E3, 0x0FC19DC68B8CD5B5, 0x240CA1CC77AC9C65,
   0x2DE92C6F592B0275, 0x4A7484AA6EA6E483, 0x5CB0A9DCBD41FBD4, 0x76F988DA831153B5,
   0x983E5152EE66DFAB, 0xA831C66D2DB43210, 0xB00327C898FB213F, 0xBF597FC7BEEF0EE4,
   0xC6E00BF33DA88FC2, 0xD5A79147930AA725, 0x06CA6351E003826F, 0x142929670A0E6E70]

/-- Round constants 32–47. -/
def shaRounds2 : List (BitVec 64) :=
  [0x27B70A8546D22FFC, 0x2E1B21385C26C926, 0x4D2C6DFC5AC42AED, 0x53380D139D95B3DF,
   0x650A73548BAF63DE, 0x766A0ABB3C77B2A8, 0x81C2C92E47EDAEE6, 0x92722C851482353B,
   0xA2BFE8A14CF10364, 0xA81A664BBC423001, 0xC24B8B70D0F89791, 0xC76C51A30654BE30,
   0xD192E819D6EF5218, 0xD69906245565A910, 0xF40E35855771202A, 0x106AA07032BBD1B8]

/-- Round constants 48–63. -/
def shaRounds3 : List (BitVec 64) :=
  [0x19A4C116B8D2D0C8, 0x1E376C085141AB53, 0x2748774CDF8EEB99, 0x34B0BCB5E19B48A8,
   0x391C0CB3C5C95A63, 0x4ED8AA4AE3418ACB, 0x5B9CCA4F7763E373, 0x682E6FF3D6B2B8A3,
   0x748F82EE5DEFB2FC, 0x78A5636F43172F60, 0x84C87814A1F0AB72, 0x8CC702081A6439EC,
   0x90BEFFFA23631E28, 0xA4506CEBDE82BDE9, 0xBEF9A3F7B2C67915, 0xC67178F2E372532B]

/-- Round constants 64–79. -/
def shaRounds4 : List (BitVec 64) :=
  [0xCA273ECEEA26619C, 0xD186B8C721C0C207, 0xEADA7DD6CDE0EB1E, 0xF57D4F7FEE6ED178,
   0x06F067AA72176FBA, 0x0A637DC5A2C898A6, 0x113F9804BEF90DAE, 0x1B710B35131C471B,
   0x28DB77F523047D84, 0x32CAAB7B40C72493, 0x3C9EBE0A15C9BEBC, 0x431D67C49C100D4C,
   0x4CC5D4BECB3E42B6, 0x597F299CFC657E2A, 0x5FCB6FAB3AD6FAEC, 0x6C44198C4A475817]

/-- The round constants. -/
def shaRounds : List (BitVec 64) := shaRounds0 ++ shaRounds1 ++ shaRounds2 ++ shaRounds3 ++ shaRounds4

/-- The initial words of SHA-512. -/
def shaInit512 : HashState :=
  ⟨0x6A09E667F3BCC908, 0xBB67AE8584CAA73B, 0x3C6EF372FE94F82B, 0xA54FF53A5F1D36F1,
   0x510E527FADE682D1, 0x9B05688C2B3E6C1F, 0x1F83D9ABFB41BD6B, 0x5BE0CD19137E2179⟩

/-- The initial words of SHA-512/256. -/
def shaInit256 : HashState :=
  ⟨0x22312194FC2BF72C, 0x9F555FA3C84C64C2, 0x2393B86B6F53B151, 0x963877195940EABD,
   0x96283EE2A88EFFE3, 0xBE5E1E2553863992, 0x2B0199FC2C85B8AA, 0x0EB72DDC81C52CA2⟩

/-- A message word of a later round from the sixteen before it. -/
def shaNext (w : List (BitVec 64)) : BitVec 64 :=
  let at_ (i : Nat) : BitVec 64 := (w[i]?).getD 0
  let lo := at_ 1
  let hi := at_ 14
  (lo.rotateRight 1 ^^^ lo.rotateRight 8 ^^^ lo >>> 7) + (hi.rotateRight 19 ^^^ hi.rotateRight 61 ^^^ hi >>> 6) + at_ 9 + at_ 0

/-- One round. -/
def HashState.round (s : HashState) (k w : BitVec 64) : HashState :=
  let t1 := s.h + (s.e.rotateRight 14 ^^^ s.e.rotateRight 18 ^^^ s.e.rotateRight 41) + ((s.e &&& s.f) ^^^ (~~~s.e &&& s.g)) + k + w
  let t2 := (s.a.rotateRight 28 ^^^ s.a.rotateRight 34 ^^^ s.a.rotateRight 39) + ((s.a &&& s.b) ^^^ (s.a &&& s.c) ^^^ (s.b &&& s.c))
  ⟨t1 + t2, s.a, s.b, s.c, s.d + t1, s.e, s.f, s.g⟩

/-- The rounds of a block: the constants to come, the sixteen message words in use. -/
def shaRun : List (BitVec 64) → List (BitVec 64) → HashState → HashState
  | [], _, s => s
  | k :: ks, w, s => shaRun ks (w.drop 1 ++ [shaNext w]) (s.round k ((w[0]?).getD 0))

/-- The hash after a block. -/
def HashState.block (s : HashState) (w : List (BitVec 64)) : HashState :=
  let t := shaRun shaRounds w s
  ⟨s.a + t.a, s.b + t.b, s.c + t.c, s.d + t.d, s.e + t.e, s.f + t.f, s.g + t.g, s.h + t.h⟩

/-- The big-endian number of some bytes. -/
def bigEndian (bs : List Byte) : Nat := bs.foldl (fun n b => n * 256 + b.toNat) 0

/-- The bytes of a number, the most significant first. -/
def bigBytes (n v : Nat) : List Byte := (bytesOf n v).reverse

/-- The message words of a block. -/
def shaWords (bs : List Byte) : List (BitVec 64) :=
  (List.range 16).map fun i => BitVec.ofNat 64 (bigEndian ((bs.drop (8 * i)).take 8))

/-- The blocks of a padded message. -/
def shaBlocks : Nat → List Byte → HashState → HashState
  | 0, _, s => s
  | n + 1, bs, s => shaBlocks n (bs.drop 128) (s.block (shaWords bs))

/-- The padding of a message. -/
def shaPad (bs : List Byte) : List Byte :=
  let n := bs.length
  bs ++ 0x80#8 :: (List.replicate ((239 - n % 128) % 128) 0#8 ++ bigBytes 16 (8 * n))

/-- The hash of a message from its initial words. -/
def shaHash (init : HashState) (bs : List Byte) : HashState :=
  let p := shaPad bs
  shaBlocks (p.length / 128) p init

/-- SHA-512, its 64 bytes. -/
def sha512 (bs : List Byte) : List Byte :=
  let s := shaHash shaInit512 bs
  [s.a, s.b, s.c, s.d, s.e, s.f, s.g, s.h].flatMap fun w => bigBytes 8 w.toNat

/-- SHA-512/256, its 32 bytes. -/
def sha256of512 (bs : List Byte) : List Byte :=
  let s := shaHash shaInit256 bs
  [s.a, s.b, s.c, s.d].flatMap fun w => bigBytes 8 w.toNat

end Sys2Proof.Machine
end

