-- ==== Sys2Proof/Machine/Kernel.lean ====
section
/-! DEFINITION. Kernel headers and live-range tables (R385, R391), and how the cores of a region start (R70, R71, R77, R141, R142, R167,
R262, R287, R383). -/

namespace Sys2Proof.Machine

/-- A number in some bytes. -/
def numberAt (bs : List Byte) (off n : Nat) : Nat := bytesNat ((bs.drop off).take n)

/-- What a kernel header gives. -/
structure KernelHeader where
  /-- Its address, and that of the code. -/
  va : Word
  entry : Word
  cols : Nat
  rows : Nat
  det : Bool
  bound : Nat
  /-- Offsets of the pool table and the live-range table; 0 for none. -/
  pools : Nat
  live : Nat
  digest : BitVec 256
  deriving DecidableEq, Repr

/-- Whether an update of a context stands in a window of a sparse-update unit. -/
def State.updatesOpen (s : State) (tag : BitVec 6) : Bool := s.supd.any fun u => u.window.any fun e => e.tag == tag

/-- What becomes of the reads of the management complex at some addresses of a context: the first that does not arrive (R17, R18). -/
def State.readsFate (s : State) (tag : BitVec 6) (vas : List Word) : PacketFate :=
  ((vas.filterMap fun va => (s.reachWord tag .read va).map s.portFate).find? (· != .arrives)).getD .arrives

/-- A step of the management complex that reads a context's memory, at some addresses first: it waits until the updates of the context that stand in a
window are applied, and does not take place where its reads are dropped on their way (R18, R330; log entry 59). -/
def State.managed (s : State) (tag : BitVec 6) (vas : List Word) (body : Out) : Out :=
  if s.updatesOpen tag then .next s else s.ifArrives (s.readsFate tag vas) tag body

/-- Bytes of a context read by the management complex (R317, R320), in a step that `State.managed` lets take place. -/
def State.contextBytes (s : State) (tag : BitVec 6) (va : Word) (n : Nat) : Option (List Byte) := (s.fetchBytes none tag va n).2.toOption

/-- The checks of a header's own fields (R385). -/
def headerFields (v : Variant) (h : List Byte) : Bool :=
  let f (off n : Nat) : Nat := numberAt h off n
  f 0 4 == 0x314B4C59 && f 4 2 == 1 && decide (f 6 2 < 4) && f 8 4 % 4 == 0 && f 0xC 4 % 4 == 0 && decide (4 ≤ f 0xC 4) &&
    f 0x10 4 % 4 == 0 && decide (1 ≤ f 0x14 4) && decide (1 ≤ f 0x18 2) && decide (1 ≤ f 0x1A 1) && decide (f 0x1A 1 ≤ v.columns) &&
    decide (1 ≤ f 0x1B 1) && decide (f 0x1B 1 ≤ 12) && f 0x1C 4 % 8 == 0 && f 0x20 4 % 8 == 0 && decide (10 ≤ f 0x24 4) &&
    decide (f 0x24 4 ≤ 40) && (h.drop 0x28 |>.take 0x18).all (· == 0)

/-- Whether every header before KIDX has LAST = 0 (R385). -/
def State.headersRunTo (s : State) (tag : BitVec 6) (code : Word) (kidx : Nat) : Bool :=
  (List.range kidx).all fun k =>
    match s.contextBytes tag (code + BitVec.ofNat 64 (96 * k + 6)) 2 with
    | none => false
    | some f => !((BitVec.ofNat 16 (bytesNat f)).getLsbD 1)

/-- The bytes of code and configuration streams that a header's digest covers besides itself (R385, R449). -/
def State.kernelBody (s : State) (tag : BitVec 6) (va : Word) (h : List Byte) : Option (List Byte) :=
  match s.contextBytes tag (va + BitVec.ofNat 64 (numberAt h 8 4)) (numberAt h 0xC 4),
        s.contextBytes tag (va + BitVec.ofNat 64 (numberAt h 0x10 4)) (4 * numberAt h 0x14 4) with
  | some c, some g => some (c ++ g)
  | _, _ => none

/-- A kernel header that passes every check of R385; none where one fails or its bytes cannot be read. -/
def State.kernelHeader (s : State) (tag : BitVec 6) (code : Word) (kidx : Nat) : Option KernelHeader :=
  let va := code + BitVec.ofNat 64 (96 * kidx)
  if !s.headersRunTo tag code kidx then none
  else
    match s.contextBytes tag va 96 with
    | none => none
    | some h =>
      if !headerFields s.variant h then none
      else
        match s.kernelBody tag va h with
        | none => none
        | some body =>
          if sha256of512 (h.take 0x40 ++ body) != h.drop 0x40 then none
          else
            some { va := va, entry := va + BitVec.ofNat 64 (numberAt h 8 4), cols := numberAt h 0x1A 1, rows := numberAt h 0x1B 1,
                   det := numberAt h 6 2 % 2 == 1, bound := numberAt h 0x24 4, pools := numberAt h 0x1C 4, live := numberAt h 0x20 4,
                   digest := BitVec.ofNat 256 (bytesNat (h.drop 0x40)) }

/-! ### The live-range table (R391) -/

/-- Whether a qword of a live-range table is one that the dispatcher accepts. -/
def liveOk (q : Word) : Bool :=
  match (q.extractLsb' 60 4).toNat with
  | 1 => q.extractLsb' 0 17 == 0
  | 2 => q.extractLsb' 0 36 == 0
  | 3 => q.extractLsb' 0 32 == 0
  | 4 => !q.getLsbD 42
  | _ => false

/-- The entries of a table up to a qword with KIND 0; the first argument bounds them. -/
def State.liveTable (s : State) (tag : BitVec 6) : Nat → Word → Option (List (BitVec 64))
  | 0, _ => none
  | fuel + 1, va =>
    match s.contextBytes tag va 8 with
    | none => none
    | some b =>
      let q : Word := BitVec.ofNat 64 (bytesNat b)
      if q.extractLsb' 60 4 = 0 then some []
      else if liveOk q then (State.liveTable s tag fuel (va + 8)).map (q :: ·)
      else none

/-- The live-range table of a header. -/
def State.liveOf (s : State) (tag : BitVec 6) (h : KernelHeader) : Option (List (BitVec 64)) :=
  if h.live = 0 then some [] else s.liveTable tag (2 ^ 29) (h.va + BitVec.ofNat 64 h.live)

/-- The pool table of a header: its sixteen qwords, or none where the header has no table (R385). -/
def State.poolTableOf (s : State) (tag : BitVec 6) (h : KernelHeader) : Option (List Word) :=
  if h.pools = 0 then some [] else (s.contextBytes tag (h.va + BitVec.ofNat 64 h.pools) 128).map qwordsOf

/-! ### The start of a launch on a core -/

/-- A pool at the start of a launch: every slot FREE, GEN as it stands (R262). -/
def Pool.atLaunch (p : Pool) : Pool :=
  { Pool.reset with slots := p.slots.map fun e => (e.1, { Slot.reset with count := e.2.count }) }

/-- The router at the start of a launch (R287, R430). -/
def Router.atLaunch (seed : Word) : Router :=
  { Router.reset with sets := Router.reset.sets.map fun t => { t with seed := seed.extractLsb' 0 32 ^^^ seed.extractLsb' 32 32 } }

/-- A core when a launch starts on it: registers as R70 gives, K level with TSTAT 0 (R77), units as at reset (R141, R142, R167, R262,
R287). The clock, the trap registers, the counters, the physical barriers and what fences a bank that is being moved stay; scratch and
cached instructions and prefetched commands stay for the same context (R72; log entry 17). -/
def Core.atLaunch (c : Core) (tag : BitVec 6) (part : BitVec 5) (org ext : BitVec 16) (seed pc s1 s2 : Word) : Core :=
  let same := c.ctxTag = tag
  let bank (b : Bank) : Bank := { Bank.reset with bfnc := b.bfnc, zeroising := b.zeroising }
  { Core.reset with
    regs := (Core.reset.regs.set 1 s1).set 2 s2, pc := pc, tvec := c.tvec, epc := c.epc, tcause := c.tcause, tval := c.tval, lvl := false,
    regionOrg := org, regionExt := ext, ctxTag := tag, ctxPart := part, cycle := c.cycle, seedLo := seed.extractLsb' 0 32,
    seedHi := seed.extractLsb' 32 32, cntSel := c.cntSel, cntEvent := c.cntEvent, cntEn := c.cntEn, cnt := c.cnt, nextId := c.nextId,
    run := .running, scratch := if same then c.scratch else [], icache := if same then c.icache else [],
    prefetch := if same then c.prefetch else [], tlb := c.tlb, bars := c.bars,
    pools := c.pools.map Pool.atLaunch, banks := c.banks.map bank, sram := c.sram, sramTaint := c.sramTaint,
    router := Router.atLaunch seed, units := c.units }

/-- The bounding columns and rows of the cores of a partition: the lowest column and row and how many of each. -/
def State.partitionRect (s : State) (part : BitVec 5) : Nat × Nat × Nat × Nat := s.scopeRect (scopeOf part 0 0 0 0)

/-- Whether the cores of a rectangle all belong to the partition and run no launch (R382); a retired core is never placed, nor one that is about to
be retired (R440, R441). -/
def State.rectangleFree (s : State) (part : BitVec 5) (ox oy cols rows : Nat) : Bool :=
  decide (ox + cols ≤ s.variant.columns) && decide (oy + rows ≤ 12) &&
    (List.range rows).all fun ry => (List.range cols).all fun rx =>
      let c := s.variant.coreAt (ox + rx) (oy + ry)
      s.partOf c == some part && !s.retired.contains c && !s.lasting.contains c && (s.launchOf c).isNone

/-- The first origin of the scan, column by column, at which a shape fits (R382). -/
def State.firstFit (s : State) (part : BitVec 5) (cols rows : Nat) : Option (Nat × Nat) :=
  let (x, y, w, h) := s.partitionRect part
  ((List.range w).flatMap fun i => (List.range h).map fun j => (x + i, y + j)).find? fun o => s.rectangleFree part o.1 o.2 cols rows

/-- The shape of a packet: COLS and ROWS equal the header's, or both are 0; it fits the partition's bounding rectangle (R382). -/
def State.shapeOk (s : State) (part : BitVec 5) (cols rows : Nat) (h : KernelHeader) : Bool :=
  let (_, _, w, ht) := s.partitionRect part
  ((cols == 0 && rows == 0) || (cols == h.cols && rows == h.rows)) && decide (h.cols ≤ w) && decide (h.rows ≤ ht)

/-- Whether a packet whose header cannot be read leaves the shape to the header, or gives one that fits the partition (R382). -/
def State.shapeFits (s : State) (part : BitVec 5) (cols rows : Nat) : Bool :=
  let (_, _, w, ht) := s.partitionRect part
  (cols == 0 && rows == 0) || (decide (1 ≤ cols) && decide (1 ≤ rows) && decide (cols ≤ w) && decide (rows ≤ ht))

/-- A launch runs on some cores from now on: what they had taken of a transaction ahead of a drain is gone with their planes (R351), and a trial
on them is one of deterministic mode if the launch is (R355). -/
def State.journalLaunch (s : State) (l : Launch) : State :=
  let cs := l.cores s.variant
  let note (t : TxRecord) : TxRecord :=
    { t with taken := t.taken.filter fun c => !cs.contains c, det := t.det || (t.state == .trial && l.det && cs.any (s.inScope t.scope)) }
  { s with journal := { s.journal with records := s.journal.records.map note } }

/-- Starts a launch on its region (R383): REGION_ORG, REGION_EXT, CTX_ID and the seed, s1 the argument block, s2 the rank, the pc at the
kernel's code. -/
def State.startLaunch (s : State) (l : Launch) (entry : Word) : State :=
  let cs := l.cores s.variant
  let seed := ((s.ctx l.tag).seeds.head?).getD 0
  let org : BitVec 16 := BitVec.ofNat 16 (l.ox + l.oy * 256)
  let ext : BitVec 16 := BitVec.ofNat 16 (l.cols + l.rows * 256)
  let rank (c : Nat) : Word := BitVec.ofNat 64 ((s.variant.cy c - l.oy) * l.cols + (s.variant.cx c - l.ox))
  let s := cs.foldl (fun s c => s.onCore c fun k => k.atLaunch l.tag l.part org ext seed entry l.args (rank c)) ((s.dropTraffic cs).journalLaunch l)
  { s with dusk := s.dusk.filter (fun c => !cs.contains c), launches := s.launches ++ [{ l with placed := true }] }

end Sys2Proof.Machine
end

