-- ==== Sys2Proof/Machine/Queues.lean ====
section
/-! DEFINITION. The hardware queue controller: registration, kicks, mapping and arbitration, and the command packets but for launches
(R374–R381, R384). -/

namespace Sys2Proof.Machine

/-! ### Queue control blocks (R374) -/

/-- A queue control block from its sixteen qwords. -/
def qcbOf (q : List Word) : Qcb :=
  let at_ (i : Nat) : Word := (q[i]?).getD 0
  { base := at_ 0, sz := ((at_ 1).extractLsb' 0 4).toNat, prio := ((at_ 1).extractLsb' 4 3).toNat,
    shift := ((at_ 1).extractLsb' 8 4).toNat, state := (at_ 1).extractLsb' 20 2, err := (at_ 1).extractLsb' 24 8, widx := at_ 2,
    ridx := at_ 3, age := ((at_ 4).extractLsb' 0 16).toNat }

/-- Whether the block's reserved bits are zero, and its SZ and BASE in range. -/
def qcbOk (q : List Word) : Bool :=
  let at_ (i : Nat) : Word := (q[i]?).getD 0
  let sz := ((at_ 1).extractLsb' 0 4).toNat
  (at_ 0).extractLsb' 55 9 == 0 && at_ 1 &&& ~~~0xFF31FF7F#64 == 0 && (at_ 4).extractLsb' 16 48 == 0 &&
    (q.drop 5).all (· == 0) && decide (1 ≤ sz) && (at_ 0).toNat % (64 * 2 ^ sz) == 0

/-- The queue holds packets (R374). -/
def Qcb.holds (q : Qcb) : Bool := decide (q.ridx.toNat < q.widx.toNat)

/-- More packets than the ring holds (R374). -/
def Qcb.overrun (q : Qcb) : Bool := decide (2 ^ q.sz < q.widx.toNat - q.ridx.toNat)

/-- Whether a queue has a launch that is processed and not complete: in the dispatcher's input, running, or saved (R379). -/
def State.queueOpen (s : State) (qid : Nat) : Bool :=
  s.input.any (fun l => l.qid == some qid) || s.launches.any (fun l => l.qid == some qid) ||
    s.savedLaunches.any fun l => l.qid == some qid

/-- Changes a slot. -/
def State.onSlotOf (s : State) (k : Nat) (f : QueueSlot → QueueSlot) : State :=
  match Sparse.find s.slots k with
  | none => s
  | some q => { s with slots := Sparse.put s.slots k (f q) }

/-! ### Packets (R378) -/

/-- Packet types. -/
abbrev pkNop : Nat := 0
abbrev pkLaunch : Nat := 1
abbrev pkSignal : Nat := 2
abbrev pkWait : Nat := 3
abbrev pkPush : Nat := 4
abbrev pkPop : Nat := 5
abbrev pkFork : Nat := 6
abbrev pkJrn : Nat := 7

/-- TYPE of a packet. -/
def packetType (p : List Word) : Nat := (((p[0]?).getD 0).extractLsb' 0 8).toNat

/-- BAR of a packet. -/
def packetBar (p : List Word) : Bool := ((p[0]?).getD 0).getLsbD 8

/-- A qword of a packet. -/
def packetAt (p : List Word) (i : Nat) : Word := (p[i]?).getD 0

/-- The bits that a packet type gives a meaning, by qword. -/
def packetMask : Nat → List Word
  | 0 => [0x1FF]
  | 1 => [0x0000FFFFFFFF01FF, 0x7FFFFFFFFFFFFF, 0x7FFFFFFFFFFFFF, 0x807FFFFFFFFFFFFF, 0xFFFFFFFFFFFFFFFF]
  | 2 => [0x1FF, 0x807FFFFFFFFFFFFF, 0xFFFFFFFFFFFFFFFF]
  | 3 => [0x1FF, 0x7FFFFFFFFFFFFF, 0xFFFFFFFFFFFFFFFF]
  | 4 => [0x1FF, 0xFFFFFFFFFFFFFFFF]
  | 5 => [0x1FF]
  | 6 => [0x1FF, 0xFFFFFFFFFFFFFFFF]
  | _ => [0x301FF, 0x7FFFFFFFFFFFFF, 0x7FFFFFFFFFFFFF]

/-- The alignment of an address qword of a packet type; 1 where the qword is no address. -/
def packetAlign : Nat → Nat → Nat
  | 1, 1 => 64
  | 1, 2 => 8
  | 1, 3 => 8
  | 2, 1 => 8
  | 3, 1 => 8
  | 7, 1 => 64
  | 7, 2 => 8
  | _, _ => 1

/-- A packet whose TYPE is assigned, whose reserved bits are zero and whose addresses are aligned (R378). -/
def packetOk (p : List Word) : Bool :=
  let t := packetType p
  decide (t < 8) && (List.range 8).all fun i =>
    packetAt p i &&& ~~~(((packetMask t)[i]?).getD 0) == 0 && (packetAt p i).toNat % 2 ^ 55 % packetAlign t i == 0

/-- The address of a packet's qword. -/
def packetVa (p : List Word) (i : Nat) : Word := ((packetAt p i).extractLsb' 0 55).setWidth 64

/-- The fields of a LAUNCH packet (R378). -/
def launchOfPacket (p : List Word) (id : Nat) (tag : BitVec 6) (part : BitVec 5) : Launch :=
  let q0 := packetAt p 0
  { id := id, tag := tag, part := part, kidx := (q0.extractLsb' 16 16).toNat, cols := (q0.extractLsb' 32 8).toNat,
    rows := (q0.extractLsb' 40 8).toNat, code := packetVa p 1, args := packetVa p 2, signal := packetVa p 3,
    sop := (packetAt p 3).getLsbD 63, value := packetAt p 4, qid := none, core := 0, packet := 0, ridx := 0, ox := 0, oy := 0, header := 0,
    det := false, bound := 0, live := [], poolTable := [], placed := false, pending := false, asked := 0, stopped := false,
    saved := false, point := none, heldCores := [], pausedCores := [] }

/-! ### Signals and waits (R380, R381) -/

/-- A read of a WAIT's word: it counts as satisfied where the word cannot be reached, since the fault is found when it is processed. While
updates of the word that arrived before stand in a sparse-update window, or where the read is dropped on its way, it does not (R18, R330). -/
def State.waitSatisfied (s : State) (tag : BitVec 6) (p : List Word) : Bool :=
  match s.reachWord tag .read (packetVa p 1) with
  | none => true
  | some a => !s.inWindow a 8 && s.portFate a == .arrives && decide ((packetAt p 2).toNat ≤ readMem s.mem a 8)

/-- A slot whose head is a WAIT that is not satisfied reads its word again. -/
def State.rereadSlot (s : State) (k : Nat) : State :=
  s.onSlotOf k fun q =>
    match q.head with
    | some p => if packetType p = pkWait && !q.satisfied then { q with satisfied := s.waitSatisfied q.tag p } else q
    | none => q

/-- Every waiting WAIT reads its word again, for the dispatcher has written a signal. -/
def State.rereadWaits (s : State) : State := (s.slots.map (·.1)).foldl State.rereadSlot s

/-- A signal write: one single-copy atomic access, ordered as an AMO to its word; none while it must wait for updates that arrived
before it, and the flag is false where its address cannot be written (R330, R381). -/
def State.writeSignal (s : State) (tag : BitVec 6) (va : Word) (add : Bool) (v : Word) : Option (State × Bool) :=
  match s.reachWord tag .write va with
  | none => some (s, false)
  | some a =>
    if s.inWindow a 8 then none
    else if s.portFate a != .arrives then some (s.recordDeny (s.portFate a) tag, true)
    else
      let old : Word := BitVec.ofNat 64 (readMem s.mem a 8)
      some ({ s with mem := writeBytes s.mem a (bytesOf 8 (if add then old + v else v).toNat) }.rereadWaits, true)

/-! ### Registration, mapping and kicks (R374, R376) -/

/-- A queue of a context is registered (R374). -/
def State.registerQueue (s : State) (qid : Nat) (tag : BitVec 6) (va : Word) : State :=
  { s with queues := Sparse.put s.queues qid { tag := tag, qcb := va, gone := false } }

/-- OP of a message (R434). -/
def Message.op (m : Message) : Nat := (m.qword0.extractLsb' 0 8).toNat

/-- Whether a message uses reliable ordered delivery: a management message or a kick always, another by the mode of its connection (R433). -/
def State.ordered (s : State) (m : Message) : Bool := m.op == 4 || m.op == 5 || s.connections[m.conn]? == some true

/-- The message that a turn concerns: of those that one connection delivers in order, none before an earlier one. All but management messages need a
connection that was accepted (R433). -/
def State.message (s : State) : Option Message :=
  match s.inbox[s.cur.n]? with
  | none => none
  | some m =>
    if (m.op != 5 && (s.connections[m.conn]?).isNone) ||
        (s.ordered m && (s.inbox.take s.cur.n).any fun x => x.conn == m.conn && s.ordered x) then none
    else some m

/-- The message has been dealt with. -/
def State.takeMessage (s : State) : State := { s with inbox := s.inbox.eraseIdx s.cur.n }
/-- SEALED of a message. -/
def Message.isSealed (m : Message) : Bool := m.qword0.getLsbD 8
/-- CTXH of a message. -/
def Message.ctxh (m : Message) : Nat := (m.qword0.extractLsb' 16 16).toNat
/-- LEN of a message. -/
def Message.len (m : Message) : Nat := (m.qword0.extractLsb' 32 13).toNat
/-- STATUS of a message. -/
def Message.status (m : Message) : Nat := (m.qword0.extractLsb' 56 8).toNat
/-- VA of a message. -/
def Message.va (m : Message) : Word := (m.qword1.extractLsb' 0 55).setWidth 64

/-- Whether the bits that the type of a message leaves unmarked are zero: VA except in RDMA, STATUS except in replies and acknowledgments; and
LEN tells the payload (R434). -/
def Message.clean (m : Message) : Bool :=
  m.qword0.extractLsb' 9 7 == 0 && m.qword0.extractLsb' 45 11 == 0 && m.qword1.extractLsb' 55 9 == 0 && decide (m.len ≤ 4096) &&
    m.payload.length == m.len && (decide (m.op ≤ 3) || m.qword1 == 0) && (m.op == 3 || m.op == 7 || m.status == 0)

/-- Sends a message of a type to the sender of one: the header of R434 and a payload, held for the checks of a protected context, and sealed
where it belongs to one (R415, R435). -/
def State.answerTo (s : State) (m : Message) (op status : Nat) (sealed_ : Bool) (va : Word) (tag : BitVec 6) (payload : List Byte) : State :=
  s.post m.device
    { qword0 := BitVec.ofNat 64 (op + sealed_.toNat * 2 ^ 8 + m.ctxh * 2 ^ 16 + payload.length * 2 ^ 32 + status * 2 ^ 56), qword1 := va,
      payload := payload, device := m.device.getD 0, tag := tag, waits := s.checksOf tag, gcm := 0, seq := none }

/-- An acknowledgment of a message (R434). -/
def State.acknowledge (s : State) (m : Message) (status : Nat) : State := s.answerTo m 7 status false 0 0 []

/-- Admits a message for a context: of a protected one it must be sealed under its key with the sender, and verify; the count under the key moves on
(R413, R435). -/
def State.accepted (s : State) (m : Message) (tag : BitVec 6) : Option State :=
  if !(s.ctx tag).prot && !m.isSealed then some s
  else if !m.isSealed then none
  else
    match s.sealing tag m.device with
    | none => none
    | some (k, n) => if m.gcm == sealTag k n m.qword0 m.qword1 m.payload then some (s.countSealed tag m.device) else none

/-- A step that reads the control block of a queue, where it is registered. -/
def State.withQcb (s : State) (qid : Nat) (body : Out) : Out :=
  match Sparse.find s.queues qid with
  | none => body
  | some u => s.managed u.tag [u.qcb] body

/-- Reads the control block of a registered queue. -/
def State.readQcb (s : State) (u : UserQueue) : Option (List Word) := (s.contextBytes u.tag u.qcb 128).map qwordsOf

/-- A control block that breaks a rule of R374: the queue goes from ACTIVE to ERROR with QUEUE_OVERRUN; one in ERROR stays there with that code,
and nothing is sent, for its STATE does not leave ACTIVE (R375). -/
def State.checkQcb (s : State) (k qid : Nat) (u : UserQueue) (b : List Word) : State :=
  match Sparse.find s.slots k with
  | none => s
  | some q =>
    if qcbOk b && !q.q.overrun then s
    else if q.q.state = 0 then s.queueError qid 1 0x85
    else if q.q.state = 1 then (s.onSlotOf k fun q => { q with q := { q.q with err := 0x85 } }).onQcb (u.stateWrite 1 0x85 none)
    else s

/-- The fields that the host writes, read again from a control block by the slot of a queue in ERROR; STATE and ERR with them (R374, R375). -/
def Qcb.reread (q n : Qcb) : Qcb :=
  { q with base := n.base, sz := n.sz, prio := n.prio, shift := n.shift, state := n.state, err := n.err, widx := n.widx }

/-- KICK (R375, R376): a kick of a queue that is not registered is dropped and counted; a mapped slot reads WIDX again, and the
whole block, which is checked once more, where the queue had gone to ERROR; otherwise the queue's pending bit is set. A queue whose context has
ended stays DEAD (R386). Before the ready event kicks are refused (R445). -/
def execKick (s : State) : Out :=
  match s.message with
  | none => .next s
  | some m =>
    if m.op ≠ 4 then .next s
    else s.withQcb m.ctxh <|
      let s := s.takeMessage
      let qid := m.ctxh
      if !m.clean || m.isSealed || m.len ≠ 0 || m.status ≠ 0 || m.qword1 ≠ 0 || !s.ready then .next (s.acknowledge m 1)
      else
        match Sparse.find s.queues qid with
        | none => .next { s with droppedKicks := s.droppedKicks + 1 }
        | some u =>
          if u.gone then .next s else
          let pend (s : State) : State := { s with kicked := if s.kicked.contains qid then s.kicked else s.kicked ++ [qid] }
          match (s.slotOfQueue qid).bind fun k => (Sparse.find s.slots k).map fun q => (k, q) with
          | none => .next (pend s)
          | some (k, q) =>
            if q.unmapping then .next (pend s)
            else
              match s.readQcb u with
              | none => .next s
              | some b =>
                let n := qcbOf b
                if q.q.state = 1 then
                  .next (((s.onSlotOf k fun q => { q with q := q.q.reread n }).rereadSlot k).checkQcb k qid u b)
                else
                  let t := (s.onSlotOf k fun q => { q with q := { q.q with widx := n.widx } }).rereadSlot k
                  .next (match Sparse.find t.slots k with
                    | some q => if q.q.state == 0 && q.q.overrun then t.queueError qid 1 0x85 else t
                    | none => t)

/-- QUEUE_REGISTER (R374, R445): a management message whose CTXH names the context and whose payload holds the queue id and the address of
the control block, a qword each (log entry 18); for a protected context it is sealed (R435). -/
def execQueueRegister (s : State) : Out :=
  match s.message with
  | none => .next s
  | some m =>
    if m.op ≠ 5 then .next s
    else
      let s := s.takeMessage
      let q := qwordsOf m.payload
      let qid := ((q[0]?).getD 0).toNat
      let va := (q[1]?).getD 0
      let tag : BitVec 6 := BitVec.ofNat 6 m.ctxh
      if !m.clean || m.len ≠ 16 || !s.ready || 64 ≤ m.ctxh || !(s.ctx tag).live || s.variant.userQueues ≤ qid || va.extractLsb' 55 9 != 0 ||
          va.toNat % 128 ≠ 0 then .next (s.acknowledge m 1)
      else
        match s.accepted m tag with
        | none => .next (s.acknowledge m 1)
        | some s => .next ((s.registerQueue qid tag va).acknowledge m 0)

/-- QUEUE_MAP (R376): firmware loads the control block of queue n into the free slot of the turn, and the queue's pending bit clears. -/
def execQueueMap (s : State) : Out :=
  let k := s.cur.unit
  let qid := s.cur.n
  s.withQcb qid <| match Sparse.find s.queues qid with
  | none => .next s
  | some u =>
    if u.gone || (s.qcbWrites.any fun w => w.queue == u) || s.variant.queueSlots ≤ k || (Sparse.find s.slots k).isSome || (s.slotOfQueue qid).isSome then .next s
    else
      match s.readQcb u with
      | none => .next s
      | some b =>
        let q := qcbOf b
        let t := { s with
          slots := Sparse.put s.slots k
            { qid := qid, tag := u.tag, q := q, granted := false, head := none, satisfied := false, unmapping := false },
          kicked := s.kicked.filter (· != qid) }
        .next (t.checkQcb k qid u b)

/-- QUEUE_UNMAP (R376): RIDX, STATE, ERR and AGE go back to the control block; an unmap that finds a LAUNCH, SIGNAL, SEED or JRN packet being
processed waits until it is processed. -/
def execQueueUnmap (s : State) : Out :=
  let k := s.cur.unit
  match Sparse.find s.slots k with
  | none => .next s
  | some q =>
    let busy := q.granted && match q.head with
      | some p => packetType p != pkWait && packetType p != pkNop
      | none => false
    if busy then .next (s.onSlotOf k fun q => { q with unmapping := true })
    else
      let t := { s with slots := Sparse.drop s.slots k }
      .next (match Sparse.find s.queues q.qid with
        | none => t
        | some u =>
          if u.gone then t else ((t.onQcb (u.stateWrite q.q.state q.q.err none)).onQcb (u.ridxWrite q.q.ridx)).onQcb (u.ageWrite q.q.age))

/-! ### Arbitration (R377, R379) -/

/-- The head packet of an ACTIVE queue that holds one is read; one that cannot be read or is malformed is PACKET_BAD (R378). -/
def State.readHead (s : State) (k : Nat) : State :=
  match Sparse.find s.slots k with
  | none => s
  | some q =>
    let va := q.q.base + BitVec.ofNat 64 (64 * (q.q.ridx.toNat % 2 ^ q.q.sz))
    if q.q.state != 0 || !q.q.holds || q.head.isSome || s.updatesOpen q.tag then s
    else if s.readsFate q.tag [va] != .arrives then s.recordDeny (s.readsFate q.tag [va]) q.tag
    else
      match s.contextBytes q.tag va 64 with
      | none => s.queueError q.qid 1 0x82
      | some b =>
        let p := qwordsOf b
        if packetOk p then s.onSlotOf k fun q => { q with head := some p, satisfied := packetType p == pkWait && s.waitSatisfied q.tag p }
        else s.queueError q.qid 1 0x82

/-- Whether the launch of a packet waits: the dispatcher's input is full, or its shape fits nowhere now; one that will be refused does not
(R377, R379). -/
def State.launchBlocked (s : State) (tag : BitVec 6) (p : List Word) : Bool :=
  let l := launchOfPacket p 0 tag (s.ctx tag).part
  decide (16 ≤ s.input.length) || s.updatesOpen tag ||
    match s.kernelHeader tag l.code l.kidx with
    | none => false
    | some h => s.shapeOk l.part l.cols l.rows h && (s.firstFit l.part h.cols h.rows).isNone

/-- Whether a slot is a candidate (R377, R379). -/
def State.candidate (s : State) (q : QueueSlot) : Bool :=
  match q.head with
  | none => false
  | some p =>
    q.q.state == 0 && q.q.holds && !q.unmapping && !(packetBar p && s.queueOpen q.qid) && (packetType p != pkWait || q.satisfied) &&
      !(packetType p == pkLaunch && s.launchBlocked q.tag p)

/-- The effective priority of a slot (R377). -/
def QueueSlot.effective (q : QueueSlot) : Nat := min (q.q.prio + q.q.age / 2 ^ q.q.shift) 15

/-- The candidate with the largest effective priority, the lowest slot among equals. -/
def bestOf : List (Nat × QueueSlot) → Option (Nat × QueueSlot)
  | [] => none
  | a :: as =>
    match bestOf as with
    | none => some a
    | some b => if a.2.effective < b.2.effective then some b else some a

/-- QUEUE_ARBITRATION (R377): one decision, when no packet is being processed. -/
def execQueueArbitration (s : State) : Out :=
  if s.slots.any fun e => e.2.granted then .next s
  else
    let s := (s.slots.map (·.1)).foldl State.readHead s
    let cands := s.slots.filter fun e => s.candidate e.2
    match bestOf cands with
    | none => .next s
    | some (g, _) =>
      let age (e : Nat × QueueSlot) : Nat × QueueSlot :=
        let set (a : Nat) (w : Bool) : Nat × QueueSlot := (e.1, { e.2 with q := { e.2.q with age := a }, granted := w })
        if e.1 = g then set 0 true
        else if cands.any fun c => c.1 == e.1 then set (min (e.2.q.age + 1) 0xFFFF) false
        else if e.2.q.holds then e
        else set 0 false
      .next { s with slots := s.slots.map age }

/-! ### Packets being processed (R375, R379, R384) -/

/-- The granted slot, if its head is a packet of a type. -/
def State.grantedPacket (s : State) (t : Nat) : Option (Nat × QueueSlot × List Word) :=
  match s.slots.find? fun e => e.2.granted with
  | none => none
  | some (k, q) =>
    match q.head with
    | none => none
    | some p => if packetType p = t then some (k, q, p) else none

/-- The packet of a slot is processed: RIDX counts it, in the slot and in the control block. -/
def State.packetDone (s : State) (k : Nat) : State :=
  match Sparse.find s.slots k with
  | none => s
  | some q =>
    let r := q.q.ridx + 1
    let s := s.onSlotOf k fun q => { q with q := { q.q with ridx := r }, granted := false, head := none }
    match Sparse.find s.queues q.qid with
    | none => s
    | some u => s.onQcb (u.ridxWrite r)

/-- NOP_PACKET (R379). -/
def execNopPacket (s : State) : Out :=
  match s.grantedPacket pkNop with
  | none => .next s
  | some (k, _, _) => .next (s.packetDone k)

/-- SIGNAL_PACKET (R379, R381); a signal word that cannot be written is PACKET_BAD (log entry 19). -/
def execSignalPacket (s : State) : Out :=
  match s.grantedPacket pkSignal with
  | none => .next s
  | some (k, q, p) =>
    match s.writeSignal q.tag (packetVa p 1) ((packetAt p 1).getLsbD 63) (packetAt p 2) with
    | none => .next s
    | some (t, true) => .next (t.packetDone k)
    | some (t, false) => .next (t.queueError q.qid 1 0x82)

/-- WAIT_PACKET (R379): granted, it is satisfied. -/
def execWaitPacket (s : State) : Out :=
  match s.grantedPacket pkWait with
  | none => .next s
  | some (k, q, p) =>
    .next (if (s.reachWord q.tag .read (packetVa p 1)).isSome then s.packetDone k else s.queueError q.qid 1 0x82)

/-- WAIT_REREAD (R380): a waiting WAIT of the turn's slot reads its word again, as it may at any time. -/
def execWaitReread (s : State) : Out := .next (s.rereadSlot s.cur.unit)

/-- A seed packet: its effect on the stack, the top first; a refusal is SEED_RANGE and leaves the stack (R384). -/
def State.seedPacket (s : State) (t : Nat) (f : List Word → List Word → Option (List Word)) : Out :=
  match s.grantedPacket t with
  | none => .next s
  | some (k, q, p) =>
    match f p (s.ctx q.tag).seeds with
    | none => .next (s.queueError q.qid 1 0x84)
    | some st => .next ((s.onCtx q.tag fun c => { c with seeds := st }).packetDone k)

/-- The child of a seed (R69, R384, R430). -/
def forkSeed (parent tag : Word) : Word :=
  let x := parent ^^^ tag
  mix64 (if x = 0 then 1 else x)

/-- SEED_PUSH (R384). -/
def execSeedPush (s : State) : Out :=
  s.seedPacket pkPush fun p st => if 16 ≤ st.length then none else some (packetAt p 1 :: st)

/-- SEED_POP (R384). -/
def execSeedPop (s : State) : Out :=
  s.seedPacket pkPop fun _ st => if st.length ≤ 1 then none else some (st.drop 1)

/-- SEED_FORK (R384). -/
def execSeedFork (s : State) : Out :=
  s.seedPacket pkFork fun p st => if 16 ≤ st.length then none else some (forkSeed (st.headD 0) (packetAt p 1) :: st)

/-- A JRN packet of an OP: its block is read, the command acts for the queue's partition with ORIGIN 4, and the value is stored; an address
that cannot be reached is PACKET_BAD (R378; log entry 19). -/
def State.journalPacket (s : State) (op : Nat) (act : State → Proposer → List Word → State × Except (BitVec 8 × Word) Word) : Out :=
  match s.grantedPacket pkJrn with
  | none => .next s
  | some (k, q, p) =>
    if ((packetAt p 0).extractLsb' 16 2).toNat ≠ op then .next s
    else s.managed q.tag [packetVa p 1, packetVa p 2] <|
      match s.contextBytes q.tag (packetVa p 1) 64, s.reachWord q.tag .write (packetVa p 2) with
      | some b, some a =>
        match act s ⟨none, q.tag, (s.ctx q.tag).part, 4⟩ (qwordsOf b) with
        | (t, .error (code, _)) => .next (if code = noAnswer then t else s.queueError q.qid 1 0x82)
        | (t, .ok v) =>
          let t := t.applyPending a 8
          .next ({ t with mem := writeBytes t.mem a (bytesOf 8 v.toNat) }.packetDone k)
      | _, _ => .next (s.queueError q.qid 1 0x82)

/-- JRN_PACKET_PROP (R365, R378). -/
def execJrnPacketProp (s : State) : Out := s.journalPacket 0 fun s w q => s.propose w q

/-- JRN_PACKET_RVT (R369, R378): the number stands in qword 0. -/
def execJrnPacketRvt (s : State) : Out :=
  s.journalPacket 1 fun s w q =>
    let r := s.requestRevert w (((q[0]?).getD 0).extractLsb' 0 48).toNat
    (r.1, .ok r.2)

/-- JRN_PACKET_EXP (R370, R378). -/
def execJrnPacketExp (s : State) : Out :=
  s.journalPacket 2 fun s w q =>
    let r := s.acceptJob (s.exportJob w q)
    (r.1, .ok r.2)

/-- JRN_PACKET_LOAD (R371, R378). -/
def execJrnPacketLoad (s : State) : Out :=
  s.journalPacket 3 fun s w q =>
    let r := s.acceptJob (s.loadJob w q)
    (r.1, .ok r.2)

end Sys2Proof.Machine
end

