-- ==== Sys2Proof/Machine/Dispatcher.lean ====
section
/-! DEFINITION. The dispatcher: launches from queues and sequencers, placement, completion, and the tear-down of a context (R139, R341,
R382, R383, R386, R407). -/

namespace Sys2Proof.Machine

/-! ### Entry into the dispatcher's input (R139, R379, R382) -/

/-- Entries that the input holds. -/
abbrev inputSize : Nat := 16

/-- A launch enters the input. -/
def State.acceptLaunch (s : State) (l : Launch) : State :=
  { s with input := s.input ++ [{ l with id := s.nextLaunch }], nextLaunch := s.nextLaunch + 1 }

/-- Whether the shape of a launch is refused: by the header where that can be read, and by the partition in any case (R139, R382). -/
def State.shapeRefused (s : State) (l : Launch) : Bool :=
  match s.kernelHeader l.tag l.code l.kidx with
  | none => !s.shapeFits l.part l.cols l.rows
  | some h => !s.shapeOk l.part l.cols l.rows h

/-- LAUNCH (R139): the packet is read once the sequencer's earlier loads have returned and its earlier stores and AMOs have been performed,
so that they are before everything the child does (R337, note 4). A packet that a queue would refuse for BAR, a reserved bit or an address
answers d = 3, as one of another type does (log entry 38). -/
def execLaunch (d a : SReg) (p : PReg) (s : State) : Out :=
  s.guarded p <|
    let va := s.here.reg a
    let tag := s.here.ctxTag
    if va.toNat % 64 ≠ 0 then s.answer s d 2
    else if !s.here.outstanding.isEmpty then .next s
    else
      match s.fetchBytes (some s.cur.core) tag va 64 with
      | (t, .error (code, at_)) => .next (if code = noAnswer then t else t.precise code at_)
      | (t, .ok b) =>
        let q := qwordsOf b
        let l := { launchOfPacket q 0 tag t.here.ctxPart with core := t.cur.core, packet := va }
        t.managed tag [l.code] <| if packetType q != pkLaunch || !packetOk q || packetBar q || t.shapeRefused l then t.answer t d 3
        else if inputSize ≤ t.input.length then t.answer t d 1
        else t.answer (t.acceptLaunch l) d 0

/-- LAUNCH_PACKET (R378, R379, R382): a shape other than the header's, or larger than the partition, is PACKET_BAD. -/
def execLaunchPacket (s : State) : Out :=
  match s.grantedPacket pkLaunch with
  | none => .next s
  | some (k, q, p) =>
    let l := { launchOfPacket p 0 q.tag (s.ctx q.tag).part with qid := some q.qid, ridx := q.q.ridx }
    s.managed q.tag [l.code] <| if s.shapeRefused l then .next (s.queueError q.qid 1 0x82)
    else if inputSize ≤ s.input.length then .next s
    else .next ((s.acceptLaunch l).packetDone k)

/-! ### Placement (R382, R383, R407) -/

/-- A launch that starts nothing: its queue goes to ERROR, or the sequencer that issued it takes an asynchronous trap (R383, R407). -/
def State.refuseLaunch (s : State) (l : Launch) (code : BitVec 8) : State :=
  let s := { s with input := s.input.filter fun m => m.id != l.id }
  match l.qid with
  | some q => s.queueError q 1 code
  | none => if (s.core l.core).ctxTag = l.tag then s.raise l.core code 6 0 l.packet else s

/-- Whether the state of the context admits a launch of a kernel: an OPEN context that is not protected admits any, a SEALED one those
whose object is registered with this digest (R405, R407). -/
def State.measured (s : State) (l : Launch) (h : KernelHeader) : Bool :=
  let c := s.ctx l.tag
  match c.state with
  | .opened => !c.prot
  | .closed => c.objects.any fun o => o.va == l.code && o.digests[l.kidx]? == some h.digest
  | _ => false

/-- LAUNCH_PLACEMENT (R382, R383): the oldest entry of partition n is checked and placed first-fit, or waits. One whose shape no longer
agrees with the header or the partition is refused with PACKET_BAD; the sequencer of one that LAUNCH accepted takes it as a trap (log
entry 38). -/
def execLaunchPlacement (s : State) : Out :=
  match s.input.find? fun l => l.part.toNat == s.cur.n with
  | none => .next s
  | some l =>
    s.managed l.tag [l.code + BitVec.ofNat 64 (96 * l.kidx)] <| match s.kernelHeader l.tag l.code l.kidx with
    | none => .next (s.refuseLaunch l 0x83)
    | some h =>
      match s.liveOf l.tag h, s.poolTableOf l.tag h with
      | some live, some pools =>
        if !s.measured l h then .next (s.refuseLaunch l 0x71)
        else if !s.shapeOk l.part l.cols l.rows h then .next (s.refuseLaunch l 0x82)
        else
          match s.firstFit l.part h.cols h.rows with
          | none => .next s
          | some (x, y) =>
            let t := { s with input := s.input.filter fun m => m.id != l.id }
            .next (t.startLaunch
              { l with cols := h.cols, rows := h.rows, ox := x, oy := y, header := h.va, det := h.det, bound := h.bound, live := live,
                       poolTable := pools } h.entry)
      | _, _ => .next (s.refuseLaunch l 0x83)

/-! ### Completion (R131, R341, R379) -/

/-- Whether an engine has performed every store of its stream: none runs, none is stopped with beats still to be performed (R334), and no
beat is under way. -/
def Engine.settled (e : Engine) : Bool :=
  match e.job with
  | none => true
  | some j => e.state != 1 && e.state != 2 && j.beats.isEmpty

/-- Whether a core has ended its part of the launch, its last drain has resolved, and everything it stores has been performed. -/
def State.coreSettled (s : State) (core : Nat) : Bool :=
  let c := s.core core
  (c.run == .ended || c.endAsked) && !c.cfg.draining && !c.cfg.noticed && c.unperformedStores.isEmpty && c.engines.toList.all Engine.settled &&
    c.router.stores.isEmpty && s.supd.all fun u => (u.window ++ u.waiting ++ u.coming).all fun e => e.parts.all fun p => p.core != core

/-- A core whose launch has completed. -/
def Core.release (c : Core) : Core := { c with run := .idle, wait := .none, endAsked := false, faults := [] }

/-- The reservations that cores hold in any pool are cleared: those of a launch, at its end (R282). -/
def State.dropReservations (s : State) (cs : List Nat) : State :=
  { s with cores := s.cores.map fun e => (e.1, { e.2 with pools := e.2.pools.map fun p =>
             { p with rsv := p.rsv.filter fun r => !cs.contains r.1 } }) }

/-- LAUNCH_COMPLETION (R341): the launch of number n completes once every core of its region has settled; its signal is written, if it has
one that can be, and the journal's drain point of a launch completion follows (R351). -/
def execLaunchCompletion (s : State) : Out :=
  match s.launches.find? fun l => l.placed && l.id == s.cur.n with
  | none => .next s
  | some l =>
    let cs := l.cores s.variant
    if !(cs.all s.coreSettled) || s.regions.any (fun r => cs.contains r.lead) then .next s
    else
      match if l.signal = 0 then some (s, true) else s.writeSignal l.tag l.signal l.sop l.value with
      | none => .next s
      | some (t, _) =>
        let t := (cs.foldl (fun t c => t.onCore c Core.release) t).dropReservations cs
        let t := { t with launches := t.launches.filter (fun m => m.id != l.id), chains := t.chains.filter fun c => c.last.launch != l.id }
        .next (t.launchDrainPoint cs)

/-! ### The end of a context (R386, R404, R408) -/

/-- No update of the words of a tag's pages, and none of its context, is performed any more (R408). -/
def State.dropUpdates (s : State) (tag : BitVec 6) : State :=
  let mine (e : Update) : Bool := (Sparse.get 0#7 s.pot (e.phys / 65536)).extractLsb' 0 6 == tag || e.tag == tag
  let leave (u : SupdUnit) : SupdUnit :=
    { window := u.window.filter fun e => !mine e, waiting := u.waiting.filter fun e => !mine e, coming := u.coming.filter fun e => !mine e }
  { s with supd := s.supd.map leave }

/-- The launches, queues, saves, handles, journal entries and session of a context end, its queues with a code: how many launches were
discarded from the input, how many running launches ended, how many queues became DEAD. -/
def State.endWork (s : State) (tag : BitVec 6) (err : BitVec 8) : State × Nat × Nat × Nat :=
  let discarded := (s.input.filter fun l => l.tag == tag).length
  let running := s.launches.filter fun l => l.tag == tag
  let queues := (s.queues.filter fun q => q.2.tag == tag && !q.2.gone).map (·.1)
  let s := { s with input := s.input.filter (fun l => l.tag != tag), saves := s.saves.filter (fun a => a.tag != tag),
                    net := s.net.filter fun p => p.tag != tag }
  let s := running.foldl State.endLaunch (s.dropUpdates tag)
  let s := queues.foldl (fun s q => s.queueError q 2 err) s
  let close (q : Nat × UserQueue) : Nat × UserQueue := (q.1, if q.2.tag = tag then { q.2 with gone := true } else q.2)
  let s := { s with queues := s.queues.map close }
  let s := (s.onCtx tag fun c => { c with handles := c.handles.map fun h => (h.1, { h.2 with valid := false }) }).journalTeardown tag
  (s, discarded, running.length, queues.length)

/-- Every page of a tag is zeroised and is firmware's again (R404, R413). A page that
has FAILED keeps that bit until it is given to a tag (R413, R416; log entry 20). -/
def State.zeroisePages (s : State) (tag : BitVec 6) : State :=
  let mine (a : Nat) : Bool := (Sparse.get 0#7 s.pot (a / 65536)).extractLsb' 0 6 == tag
  let give (p : Nat × BitVec 7) : Nat × BitVec 7 := if p.2.extractLsb' 0 6 == tag then (p.1, p.2 &&& 0x40#7) else p
  { s with mem := s.mem.filter (fun c => !mine c.1), pot := (s.pot.map give).filter (fun p => p.2 != 0) }

/-- No SPDM session is bound to a tag any more. -/
def State.unbind (s : State) (tag : BitVec 6) : State :=
  let loose (x : Session) : Session := if x.tag = some tag then { x with tag := none } else x
  { s with spdm := { s.spdm with sessions := s.spdm.sessions.map fun (e : Nat × Session) => (e.1, loose e.2) } }

/-- The SPDM session of a context ends with its keys (R408). -/
def State.dropSession (s : State) (tag : BitVec 6) : State :=
  { s with spdm := { s.spdm with sessions := s.spdm.sessions.filter fun e => e.2.tag != some tag } }

/-- A tag becomes FREE, its keys destroyed and its pages zeroised (R404, R408). -/
def State.freeTag (s : State) (tag : BitVec 6) : State := ((s.zeroisePages tag).unbind tag).onCtx tag fun _ => Context.reset

/-- CONTEXT_TEARDOWN (R386): the context of tag `unit` ends, and the host receives the tear-down record. -/
def execContextTeardown (s : State) : Out :=
  let tag := BitVec.ofNat 6 s.cur.unit
  if tag = 0 || (s.ctx tag).state == .free then .next s
  else
    let (t, disc, ran, dead) := s.endWork tag 0x80
    .next ((t.emit 0 tag 0 0 2 (BitVec.ofNat 64 (disc + ran * 2 ^ 16 + dead * 2 ^ 32)) (tag.setWidth 64)).dropSession tag |>.freeTag tag)

end Sys2Proof.Machine
end

