-- ==== Sys2Proof/Machine/System.lean ====
section
/-! DEFINITION. Control registers (R71, R77, R81, R85, R132), traps taken by instruction or from the queue and the return (R79, R131,
R133), events (R134), HALT, NOP, SEED.GET (R135), fences (R136) and words that no map assigns (R90). -/

namespace Sys2Proof.Machine

/-! ### Control registers (R71, R77, R81, R85) -/

/-- TSTAT as it reads (R77). -/
def Core.tstat (c : Core) : Word :=
  BitVec.ofNat 64 (c.faults.length * 2 ^ 8 + c.ovf.toNat * 2 ^ 4 + c.tin.toNat * 2 ^ 2 + c.plvl.toNat * 2 + c.lvl.toNat)

/-- CNT_SEL as it reads: the setting of the counter that it names (R85). -/
def Core.readCntSel (c : Core) : Word :=
  BitVec.ofNat 64 ((c.cntEn[c.cntSel.toNat]).toNat * 2 ^ 16 + (c.cntEvent[c.cntSel.toNat]).toNat * 2 ^ 8 + c.cntSel.toNat)

/-- How a register may be accessed at a level. -/
inductive CsrAccess where
  | no | ro | rw
  deriving DecidableEq, Repr

/-- The access that a level has to a register; none for an unlisted number (R71). -/
def csrAccess (f : Bool) (n : BitVec 12) : Option CsrAccess :=
  let k := n.toNat
  if k = 0 then some (if f then .rw else .ro)
  else if k = 1 || k = 3 || k = 4 then some (if f then .rw else .no)
  else if k = 2 then some (if f then .ro else .no)
  else if (0x10 ≤ k && k ≤ 0x16) || k = 0x18 || k = 0x19 then some .ro
  else if (0x20 ≤ k && k < 0x24) || (0x30 ≤ k && k < 0x3C) || k = 0x40 || (0x50 ≤ k && k < 0x60) then some .rw
  else none

/-- The value of a listed register of a core. -/
def State.csr (s : State) (core : Nat) (n : BitVec 12) : Word :=
  let c := s.core core
  let k := n.toNat
  match k with
  | 0x00 => c.tvec
  | 0x01 => c.epc
  | 0x02 => c.tcause
  | 0x03 => c.tval
  | 0x04 => c.tstat
  | 0x10 => BitVec.ofNat 64 core
  | 0x11 => c.regionOrg.setWidth 64
  | 0x12 => c.regionExt.setWidth 64
  | 0x13 => BitVec.ofNat 64 (c.ctxPart.toNat * 2 ^ 8 + c.ctxTag.toNat)
  | 0x14 => c.cfg.idx.setWidth 64
  | 0x15 => c.cycle
  | 0x16 => s.variant.devCap
  | 0x18 => c.seedLo.setWidth 64
  | 0x19 => c.seedHi.setWidth 64
  | 0x40 => c.readCntSel
  | _ =>
    if h : 0x20 ≤ k ∧ k < 0x24 then c.org[k - 0x20]
    else if h : 0x30 ≤ k ∧ k < 0x34 then (c.loops.lc[k - 0x30]).setWidth 64
    else if h : 0x34 ≤ k ∧ k < 0x38 then (c.loops.pls[k - 0x34]).getD c.loops.ls[k - 0x34]
    else if h : 0x38 ≤ k ∧ k < 0x3C then (c.loops.ple[k - 0x38]).getD c.loops.le[k - 0x38]
    else if h : 0x50 ≤ k ∧ k < 0x60 then c.cnt[k - 0x50]
    else 0

/-- A write to a loop register (R81, R132): lc takes 32 bits at once; ls and le of an active level are held pending. -/
def Core.writeLoop (c : Core) (n : BitVec 12) (v : Word) : Core :=
  let k := n.toNat
  let l := c.loops
  if h : 0x30 ≤ k ∧ k < 0x34 then { c with loops := { l with lc := l.lc.set (k - 0x30) (v.setWidth 32) } }
  else if h : 0x34 ≤ k ∧ k < 0x38 then
    if l.active.contains (BitVec.ofNat 2 (k - 0x34)) then { c with loops := { l with pls := l.pls.set (k - 0x34) (some v) } }
    else { c with loops := { l with ls := l.ls.set (k - 0x34) v, pls := l.pls.set (k - 0x34) none } }
  else if h : 0x38 ≤ k ∧ k < 0x3C then
    if l.active.contains (BitVec.ofNat 2 (k - 0x38)) then { c with loops := { l with ple := l.ple.set (k - 0x38) (some v) } }
    else { c with loops := { l with le := l.le.set (k - 0x38) v, ple := l.ple.set (k - 0x38) none } }
  else c

/-- A write to CNT_SEL: the event and enable of the counter it names, which it then names for reads (R85). -/
def Core.writeCntSel (c : Core) (v : Word) : Core :=
  let i := v.extractLsb' 0 4
  { c with cntSel := i, cntEvent := c.cntEvent.set i.toNat (v.extractLsb' 8 8), cntEn := c.cntEn.set i.toNat (v.getLsbD 16) }

/-- A write to TSTAT: OVF clears where a 1 is written, PLVL takes bit 1 (R77). -/
def Core.writeTstat (c : Core) (v : Word) : Core := { c with ovf := c.ovf && !v.getLsbD 4, plvl := v.getLsbD 1 }

/-- A write to a register that may be written. -/
def Core.writeCsr (c : Core) (n : BitVec 12) (v : Word) : Core :=
  let k := n.toNat
  if k = 0 then { c with tvec := v &&& ~~~3#64 }
  else if k = 1 then { c with epc := v }
  else if k = 3 then { c with tval := v }
  else if k = 4 then c.writeTstat v
  else if k = 0x40 then c.writeCntSel v
  else if h : 0x20 ≤ k ∧ k < 0x24 then { c with org := c.org.set (k - 0x20) v }
  else if h : 0x50 ≤ k ∧ k < 0x60 then { c with cnt := c.cnt.set (k - 0x50) v }
  else c.writeLoop n v

/-- Access to a register, checked first (R71, R132): an unlisted number is ILLEGAL_OP with the word, a denied access PRIV_OP with the
number. -/
def State.withCsr (s : State) (word : BitVec 32) (n : BitVec 12) (write : Bool) (body : Out) : Out :=
  match csrAccess s.here.lvl n with
  | none => .next (s.precise 0x01 (word.setWidth 64))
  | some a => if a = .no || (write && a = .ro) then .next (s.precise 0x03 (n.setWidth 64)) else body

/-- The word of a CSR instruction (R132). -/
def csrWord (d a : SReg) (op : BitVec 4) (n : BitVec 12) : BitVec 32 := 57#6 ++ (d ++ (a ++ (op ++ n)))

/-- CSRR (R132). -/
def execCsrr (d : SReg) (n : BitVec 12) (s : State) : Out :=
  s.withCsr (csrWord d 0 0 n) n false <| s.issue 4 fun c => c.setReg d (s.csr s.cur.core n)

/-- CSRW (R132). -/
def execCsrw (a : SReg) (n : BitVec 12) (s : State) : Out :=
  s.withCsr (csrWord 0 a 1 n) n true <| s.issue 4 fun c => c.writeCsr n (c.reg a)

/-- CSRS (R132): a W1C field clears where s[a] has a 1. -/
def execCsrs (a : SReg) (n : BitVec 12) (s : State) : Out :=
  s.withCsr (csrWord 0 a 2 n) n true <| s.issue 4 fun c =>
    let old := s.csr s.cur.core n
    c.writeCsr n (if n = 4 then (old &&& ~~~0x10#64) ||| c.reg a else old ||| c.reg a)

/-- LOOP_REGISTER_WRITE (R81): a value reaches lc, ls or le of the turn's core. -/
def execLoopRegisterWrite (r : BitVec 12) (v : Word) (s : State) : Out := .next (s.on fun c => c.writeLoop r v)

/-- CNT_SEL_WRITE (R85): a value reaches CNT_SEL of the turn's core. -/
def execCntSelWrite (v : Word) (s : State) : Out := .next (s.on fun c => c.writeCntSel v)

/-- TSTAT_WRITE (R77): a value reaches TSTAT of the turn's core. -/
def execTstatWrite (v : Word) (s : State) : Out := .next (s.on fun c => c.writeTstat v)

/-! ### Traps (R79, R90, R131, R133) -/

/-- TRAP (R131): at K level, TRAP #0 also requests the end of the core's part of the launch. -/
def execTrap (i : BitVec 16) (s : State) : Out :=
  let ends := !s.here.lvl && i == 0
  let t := s.precise 0x04 (i.setWidth 64)
  .next (if ends && s.here.tin == false then t.on fun c => { c with endAsked := true } else t)

/-- Firmware records the fault that it has handled for the host, where it decides so (R73, R438): the turn's flag says whether (log entry 60). -/
def State.recordFault (s : State) : State :=
  if !s.cur.flag then s
  else
    let c := s.here
    let code : BitVec 8 := c.tcause.setWidth 8
    s.emit code c.ctxTag 0 (if code < 0x10 then s.cur.core else 0) 0 c.tcause c.tval

/-- ERET (R133): the return of R79; the router goes on after the handler of its fault (R298). Before it, firmware may have recorded the fault for the
host (R73). -/
def execEret (s : State) : Out :=
  if !s.here.lvl then .next (s.precise 0x03 (Config.unstated s.here.pc.toNat))
  else
    .next (s.recordFault.on fun c =>
      let r := c.router
      { (c.count 0x02).returnTrap with
          endAsked := false,
          router := if r.stopped && (r.inTrap || r.trapLost) then { r with stopped := false, inTrap := false, trapLost := false } else r })

/-- ILLEGAL_OP (R90): a word that no map assigns, or with a reserved field that is not zero. -/
def execIllegalOp (w : Word) (s : State) : Out := .next (s.precise 0x01 w)

/-- Whether an asynchronous fault may be taken in a wait (R76, R136, R275): a hold is no wait; nor is a BAR.WT or BAR.SYN whose command to another
core's barrier is on its way, since what it does there can not be called back: DEDUCED (log entry 61). -/
def Wait.interruptible : Wait → Bool
  | .none => true
  | .barrier .. => true
  | .cfg _ => true
  | .stream _ _ => true
  | .take _ _ => true
  | .pool _ _ => true
  | .event => true
  | .barrierCommand _ => false
  | .fence _ => false
  | .poolReply _ => false
  | .journal _ => false

/-- Withdraws the allocation request of a waiting POOL.AL (R76, R268). -/
def State.withdrawRequest (s : State) (core id : Nat) : State :=
  let mine (w : Requester) : Bool := w == .seq core
  let t := s.dropRequests mine
  { t with net := t.net.filter fun p => match p.kind with
      | .poolRequest _ _ i => !(p.src == core && i == id)
      | _ => true }

/-- Whether the grant of a POOL.AL is on its way back. -/
def State.grantComing (s : State) (core id : Nat) : Bool :=
  s.net.any fun p => match p.kind with
    | .poolReply _ _ i => p.dst == core && i == id
    | _ => false

/-- ASYNC_TRAP_TAKE (R76, R79): the oldest queued fault is taken between two instructions; a wait is abandoned without effect. -/
def execAsyncTrapTake (s : State) : Out :=
  let c := s.here
  match c.faults with
  | [] => .next s
  | f :: fs =>
    if c.run ≠ .running || c.tin || !c.wait.interruptible then .next s
    else
      let take (s : State) : State := s.on fun c =>
        let c := { c with faults := fs }
        let c := if f.srck = 4 && 0x10 ≤ f.code.toNat && f.code.toNat < 0x13 then { c with router := { c.router with inTrap := true } } else c
        c.enterTrap c.pc (trapCause f.code f.srck f.unit true) f.tval
      match c.wait with
      | .pool _ id => if s.grantComing s.cur.core id then .next s else .next (take (s.withdrawRequest s.cur.core id))
      | _ => .next (take s)

/-! ### Events and system minors (R134, R135) -/

/-- EVT (R134): dropped when the core is not one of the context's partition. -/
def execEvt (a : SReg) (s : State) : Out :=
  let v := s.here.reg a
  let t := if v.toNat < s.variant.coreCount && s.inPartition s.cur.core v.toNat then
      (if v.toNat = s.cur.core then s.on fun c => { c with event := true } else s.send s.cur.core v.toNat .event) else s
  .next (s.retire t 4)

/-- WFE (R134). -/
def execWfe (s : State) : Out :=
  if s.here.event then s.issue 4 fun c => { c with event := false } else .next (s.on fun c => { c with wait := .event })

/-- WFE_RETURN: the event flag of a core that waits in WFE is set (R134). -/
def execWfeReturn (s : State) : Out :=
  match s.here.wait with
  | .event => if s.here.event then .next (s.retire (s.on fun c => { c with wait := .none, event := false }) 4) else .next s
  | _ => .next s

/-- EVENT_FLAG_DELIVERY: an event (packet n) sets the flag of its core (R134). -/
def execEventFlagDelivery (s : State) : Out :=
  match s.arriving s.cur.n with
  | some { dst, kind := .event, .. } => .next ((s.takePacket s.cur.n).onCore dst fun c => { c with event := true })
  | _ => .next s

/-- HALT (R135): at F level issue stops, and the core's part of the launch ends. -/
def execHalt (s : State) : Out :=
  if !s.here.lvl then .next (s.precise 0x03 (Config.unstated s.here.pc.toNat))
  else .next (s.on fun c => { (c.count 0x02) with pc := c.pc + 4, run := .ended, endAsked := true })

/-- NOP (R135). -/
def execNop (s : State) : Out := s.issue 4 id

/-- SEED.GET (R135). -/
def execSeedGet (d : SReg) (s : State) : Out := s.issue 4 fun c => c.setReg d (c.seedHi ++ c.seedLo)

/-! ### Fences (R136) -/

/-- A fence holds issue until nothing that it waits for is outstanding. -/
def State.fence (s : State) (rel clear : Bool) : Out :=
  if clear then .next (s.retire (s.on fun c => { c with wait := .none }) 4) else .next (s.on fun c => { c with wait := .fence rel })

/-- FENCE.acq (R136): earlier loads and AMOs have returned their values; every scope is the same to one core (log entry 6). -/
def execFenceAcq (_scope : BitVec 2) (s : State) : Out :=
  s.fence false (s.here.accesses.all fun a => match a.kind with
    | .store => true
    | _ => false)

/-- FENCE.rel (R136): earlier stores and AMOs have been performed. -/
def execFenceRel (_scope : BitVec 2) (s : State) : Out := s.fence true s.here.unperformedStores.isEmpty

end Sys2Proof.Machine
end

