-- ==== Sys2Proof/Machine/Preempt.lean ====
section
/-! DEFINITION. Pre-emption: requests, the checkpoint point, saves, restore and the handover of protected contexts (R389–R397, R399). -/

namespace Sys2Proof.Machine

/-- Changes the launch of a number. -/
def State.onLaunch (s : State) (id : Nat) (f : Launch → Launch) : State :=
  { s with launches := s.launches.map fun l => if l.id = id then f l else l }

/-- The placed launch of a number. -/
def State.launchById (s : State) (id : Nat) : Option Launch := s.launches.find? fun l => l.placed && l.id == id

/-- PREEMPT_REQUEST (R389): launch n becomes PENDING; a further request has no effect. Only MARKs forwarded from now on count (R390). -/
def execPreemptRequest (s : State) : Out :=
  match s.launchById s.cur.n with
  | none => .next s
  | some l =>
    if l.pending || l.saved then .next s
    else
      let cs := l.cores s.variant
      let s := cs.foldl (fun s c => s.onCore c Core.cancelMarks) s
      let s := s.onLaunch l.id fun l => { l with pending := true, asked := (s.core (s.launchLead l)).cycle, heldCores := [], pausedCores := [] }
      .next (cs.foldl State.pauseAtMark s)

/-! ### The checkpoint point (R390) and what a save waits for -/

/-- The entries of the live-range table for a checkpoint and a core. -/
def Launch.liveAt (v : Variant) (l : Launch) (id : BitVec 8) (core : Nat) : List (BitVec 64) :=
  l.live.filter fun q => q.extractLsb' 52 8 == id && (q.extractLsb' 43 9).toNat == l.place v core

/-- KIND of an entry. -/
def liveKind (q : BitVec 64) : Nat := (q.extractLsb' 60 4).toNat

/-- The element of an entry of KIND 2 or 3. -/
def liveElem (q : BitVec 64) : Nat := (q.extractLsb' 37 6).toNat

/-- The inputs of an element whose link slots the entries list. -/
def liveInputs (qs : List (BitVec 64)) (ea : Nat) : BitVec 4 :=
  (qs.filter fun q => liveKind q == 3 && liveElem q == ea).foldl (fun m q => m ||| q.extractLsb' 33 4) 0

/-- Whether the entries list the operation state of an element. -/
def liveState (qs : List (BitVec 64)) (ea : Nat) : Bool := qs.any fun q => liveKind q == 3 && liveElem q == ea && q.getLsbD 32

/-- Whether the entries list a bank of an element. -/
def liveBank (qs : List (BitVec 64)) (ea : Nat) (b : Bool) : Bool := qs.any fun q => liveKind q == 2 && liveElem q == ea && q.getLsbD 36 == b

/-- The id of the checkpoint MARK that every element of some cores has forwarded, if it is one and the same; any id where no element is
enabled. -/
def State.commonMark (s : State) (cs : List Nat) : Option (BitVec 8) :=
  let marks := cs.flatMap fun c =>
    ((List.range 64).filter fun ea => enabled (s.activePlane c) ea).map fun ea => ((s.core c).elem ea).ckpt
  match marks with
  | [] => some 0
  | m :: _ => if marks.all (· == m) then m else none

/-- Whether every token in a link slot of a core stands at an input that the entries list. -/
def Core.tokensLive (c : Core) (qs : List (BitVec 64)) : Bool :=
  c.takePort.toks.isEmpty && c.engines.toList.all (fun e => e.di.toList.all fun p => p.toks.isEmpty) &&
    c.elems.all fun e => (List.range 4).all fun i => (e.2.port i).toks.isEmpty || (liveInputs qs e.1).getLsbD i

/-- Whether a stream of a core is RUNNING toward a FABRIC or POOL destination; a paused one that has performed its beats is not. -/
def Core.streamsRun (c : Core) (paused : Bool) : Bool :=
  c.engines.toList.any fun e =>
    match e.job with
    | none => false
    | some j => e.state == 1 && !(j.entriesOf 1 ++ j.entriesOf 2).isEmpty && (!paused || !j.beats.isEmpty)

/-- Whether a drain of the region of some cores goes on to its end without any of its sequencers: it has begun, and every core has closed its
configuration or has no element that has still to pass DRAIN. -/
def State.drainGoesOn (s : State) (cs : List Nat) : Bool :=
  (cs.any fun c => (s.core c).cfg.draining || (s.core c).cfg.noticed) && cs.all fun c => (s.core c).cfg.drained || (s.core c).allPassed

/-- Whether a drain of some cores goes on, or has resolved and what is due at it has not yet taken place; a request never holds that back
(R26, R390, R395; log entry 29). -/
def State.resolving (s : State) (cs : List Nat) : Bool :=
  s.drainGoesOn cs || s.regions.any (fun r => cs.contains r.lead) ||
    s.net.any fun p => cs.contains p.dst && match p.kind with
      | .resolution _ => true
      | _ => false

/-- The id of the checkpoint at whose point a PENDING region stands (R390). -/
def State.checkpointPoint (s : State) (l : Launch) : Option (BitVec 8) :=
  let cs := l.cores s.variant
  match s.commonMark cs with
  | none => none
  | some id =>
    if !s.resolving cs && cs.all fun c =>
        (s.core c).tokensLive (l.liveAt s.variant id c) && !(s.core c).streamsRun (l.pausedCores.contains c) &&
          s.flights.all fun f => f.dst.core != c
    then some id else none

/-- A PENDING region that stands at its checkpoint point is marked so, in the first cycle in which it does (R390). -/
def State.markPoint (s : State) (l : Launch) : Launch :=
  if l.placed && l.pending && !l.saved && !l.stopped && l.point.isNone && !s.overdue l then { l with point := s.checkpointPoint l } else l

/-- Every region that stands at its checkpoint point is marked so. -/
def State.markPoints (s : State) : State := { s with launches := s.launches.map s.markPoint }

/-- Whether a packet may travel on while the region is saved: a probe is discarded, an event is delivered in time, and drain packets are
saved. -/
def NetKind.outlastsSave : NetKind → Bool
  | .probe _ _ => true
  | .event => true
  | .drainBegin _ => true
  | .drainReport _ => true
  | .resolution _ => true
  | _ => false

/-- Whether every issued beat of an engine has been performed, but for those whose reads are parked for a sector that is not written, and
those behind one (R32, R389, R393). -/
def Engine.rests (e : Engine) (parked : List Nat) : Bool :=
  match e.job with
  | none => true
  | some j => j.beats.all fun b => b.finished || (!b.delivered && j.beats.any fun x => decide (x.n ≤ b.n) && parked.contains x.n)

/-- Whether a core stands where it can be saved: its sequencer at an instruction boundary with nothing outstanding, its issued beats
performed (R76, R389). -/
def State.atRest (s : State) (core : Nat) : Bool :=
  let c := s.core core
  let grant := match c.wait with
    | .pool _ id => s.grantComing core id
    | _ => false
  c.wait.interruptible && !grant && c.accesses.isEmpty && c.awaited.isEmpty &&
    (List.range 8).all fun k => (c.engine k).rests (s.parkedBeats core k)

/-- Whether a region can be saved. -/
def State.regionAtRest (s : State) (cs : List Nat) : Bool :=
  cs.all s.atRest && s.net.all (fun p => !(cs.contains p.src && cs.contains p.dst) || p.kind.outlastsSave)

/-! ### What a save keeps (R392, R393, R399) -/

/-- An element as a checkpoint keeps it. -/
def Elem.checkpointed (e : Elem) (p : Plane) (ea : Nat) (qs : List (BitVec 64)) : Elem :=
  let on := enabled p ea
  let m := if on then liveInputs qs ea else 0
  let st := on && liveState qs ea
  let b0 := on && liveBank qs ea false
  let b1 := on && liveBank qs ea true
  let w := mctlWsel (fieldOf p ea 0x38)
  let port (i : Fin 4) : Port := if m.getLsbD i.val then { Port.reset with toks := e.ports[i].toks } else Port.reset
  { Elem.reset with
    a0 := if b0 then e.a0 else 0, a1 := if b1 then e.a1 else 0, at0 := b0 && e.at0, at1 := b1 && e.at1, ports := Vector.ofFn port,
    opst := if st then { e.opst with req := none } else Opst.reset, rnd := if st then e.rnd else 0, phase0 := if st then e.phase0 else 0,
    phase1 := if st then e.phase1 else 0, tile := if st then e.tile else 0, owed := if st then e.owed else Vector.replicate 4 [], ldp := w, usp := w,
    bp := actlBank (fieldOf p ea 0x39), passed := !on }

/-- A stream set back to the first beat that it has not performed, with the handles of the tiles that it reads again. -/
def StreamJob.setBack (j : StreamJob) : StreamJob :=
  let again := (j.beats.filterMap fun b => match b.src with
    | .tile h _ => some h
    | _ => none).eraseDups
  { j with next := (j.beats.head?.map (·.n)).getD j.next, beats := [], handles := again.filter (fun h => j.handles.head? != some h) ++ j.handles }

/-- A stream engine as a checkpoint keeps it: it goes on from POS, and asks again for slots. -/
def Engine.checkpointed (e : Engine) : Engine :=
  let go (j : StreamJob) : StreamJob :=
    let j := j.setBack
    { j with reqs := Vector.replicate 4 none, linked := false,
             grants := if j.sector j.next = 0 then Vector.replicate 4 none else j.grants }
  { e with di := Vector.replicate 2 Port.reset, job := e.job.map go }

/-- The pool descriptors as a save reads them: while configuration 0 is active, FN 0x00 to 0x03 from the header's pool table, if it has one;
else as they stand in the active plane (R385; log entry 30). -/
def Core.savedPlane (c : Core) (table : List Word) : Plane :=
  if c.cfg.idx = 0 then
    (table.take 16).zipIdx.foldl (fun p q =>
      (List.range 4).foldl (fun p fn => planeWrite p (0x40 + q.2) fn (q.1.extractLsb' (16 * fn) 16)) p) c.cfg.active
  else c.cfg.active

/-- The slots of a pool that the entries list, ranges beyond SLOTS left out (R391). -/
def Core.liveSlots (c : Core) (table qs : List Word) (n : Nat) : List Nat :=
  (qs.filter fun q => liveKind q == 1 && (q.extractLsb' 39 4).toNat == n).flatMap fun q =>
    let first := (q.extractLsb' 28 11).toNat
    let count := (q.extractLsb' 17 11).toNat + 1
    if first + count ≤ poolSlots (c.savedPlane table) n then (List.range count).map (first + ·) else []

/-- The keys of the sectors of pool memory that the entries list (R392). -/
def Core.liveSectors (c : Core) (table qs : List Word) : List Nat :=
  (List.range 16).flatMap fun n => (c.liveSlots table qs n).flatMap fun i =>
    (List.range (Machine.poolSectors (c.savedPlane table) n)).map fun k => sectorKey (placement (c.savedPlane table) n i k)

/-- A map with the values of another at some keys, and its own elsewhere. -/
def Sparse.patch {α : Type} (keys : List Nat) (m from_ : Sparse α) : Sparse α :=
  keys.foldl (fun m k => match Sparse.find from_ k with
    | some v => Sparse.put m k v
    | none => Sparse.drop m k) m

/-- The router as a checkpoint keeps it: the runtime registers, LMODE, HELD and LOG. -/
def Router.checkpointed (r : Router) : Router :=
  let keep (t : StageSet) : StageSet :=
    { StageSet.reset with seed := t.seed, sbase := t.sbase, seq0 := t.seq0, cur := t.cur, next := t.seq0, lmode := t.lmode }
  { Router.reset with sets := r.sets.map keep, log := r.log, logBase := r.logBase, logSize := r.logSize,
                      logCur := r.logCur, logDone := r.logDone, held := r.held, det := r.det }

/-- The loop registers that a checkpoint keeps. -/
def Loops.checkpointed (l : Loops) (listed : Bool) : Loops := if listed then l else Loops.reset

/-- A core as a checkpoint keeps it: the fixed part and the items that its entries list; nothing else (R392, R396, R399). -/
def Core.checkpointed (c : Core) (table qs : List Word) : Core :=
  let p := c.cfg.active
  let seqs := qs.filter fun q => liveKind q == 4
  let m : BitVec 64 := seqs.foldl (fun m q => m ||| q) 0
  let reg (i : Fin 32) : Word := if m.getLsbD i.val then c.regs[i] else 0
  let pred (i : Fin 8) : Bool := m.getLsbD (32 + i.val) && c.preds[i]
  let pool (n : Fin 16) : Pool := { Pool.reset with slots := (c.pools[n]).slots.filter fun e => (c.liveSlots table qs n.val).contains e.1 }
  { Core.reset with
    regs := Vector.ofFn reg, preds := Vector.ofFn pred, loops := c.loops.checkpointed (m.getLsbD 40),
    org := if m.getLsbD 41 then c.org else Vector.replicate 4 0, pc := c.pc, tvec := c.tvec, epc := c.epc, tcause := c.tcause,
    tval := c.tval, ovf := c.ovf, tin := c.tin, plvl := c.plvl, lvl := false, faults := c.faults, regionOrg := c.regionOrg,
    regionExt := c.regionExt, ctxTag := c.ctxTag, ctxPart := c.ctxPart, seedLo := c.seedLo, seedHi := c.seedHi, nextId := c.nextId,
    run := c.run, endAsked := c.endAsked, bars := c.bars.map fun b => (b.1, { b.2 with n := 0 }), shapes := c.shapes,
    engines := c.engines.map Engine.checkpointed,
    elems := (List.range 64).map fun ea => (ea, (c.elem ea).checkpointed p ea qs), cfg := c.cfg, pools := Vector.ofFn pool,
    sram := Sparse.patch (c.liveSectors table qs) [] c.sram,
    sramTaint := Sparse.patch (c.liveSectors table qs) [] c.sramTaint, router := c.router.checkpointed }

/-- The core that a save keeps; a wait is abandoned, so that the pc names the waiting instruction (R76, R389). -/
def Core.saved (c : Core) (full : Bool) (table qs : List Word) : Core :=
  let c := { c with wait := .none, waits := [] }
  if full then c else c.checkpointed table qs

/-- MAGIC of a save record's header, "YCS1" (R394). -/
abbrev saveMagic : BitVec 32 := 0x31534359

/-- The header of a save record: MAGIC, KIND, ID, the place, and the record's length (R394). -/
def saveHeader (full : Bool) (id : BitVec 8) (place : Nat) (length : Word) : BitVec 512 :=
  BitVec.ofNat 512 (saveMagic.toNat + full.toNat * 2 ^ 32 + id.toNat * 2 ^ 40 + place % 512 * 2 ^ 48 + length.toNat * 2 ^ 64)

/-- Whether the records of a launch hold a full save: KIND of their headers. -/
def SavedLaunch.full (a : SavedLaunch) : Bool := a.headers.any fun h => h.getLsbD 32

/-- ID of the checkpoint of a launch's records. -/
def SavedLaunch.id (a : SavedLaunch) : BitVec 8 := ((a.headers.head?).getD 0).extractLsb' 40 8

/-- Whether the headers are those of save records, in ascending place. -/
def SavedLaunch.wellFormed (a : SavedLaunch) (v : Variant) : Bool :=
  a.headers.all (fun h => h.extractLsb' 0 32 == saveMagic) &&
    a.headers.map (fun h => (h.extractLsb' 48 9).toNat) == (a.launch.cores v).map (a.launch.place v)

/-- The records of a launch are added to the save area of its context, which there is one of (R394). -/
def State.addSave (s : State) (tag : BitVec 6) (r : SavedLaunch) : State :=
  if s.saves.any fun a => a.tag == tag then
    { s with saves := s.saves.map fun a => if a.tag = tag then { a with saved := a.saved ++ [r] } else a }
  else { s with saves := s.saves ++ [{ tag := tag, saved := [r], sealed_ := false }] }

/-- Record m of save area n leaves it; an area without records is gone. -/
def State.takeSave (s : State) (n m : Nat) : State :=
  { s with saves := (s.saves.modify n fun a => { a with saved := a.saved.eraseIdx m }).filter fun a => !a.saved.isEmpty }

/-- The reads of some cores that stand parked at banks of other cores, as the requests that present them anew. -/
def State.parkedAbroad (s : State) (cs : List Nat) (tag : BitVec 6) : List Packet :=
  (s.cores.filter fun e => !cs.contains e.1).flatMap fun e => e.2.banks.toList.flatMap fun b =>
    (b.parked.filter fun r => cs.contains r.who.core).map fun r => { src := r.who.core, dst := e.1, kind := .bankRequest r, tag := tag }

/-- The requests of POOL.AL that waited are withdrawn. -/
def State.withdrawWaits (s : State) (cs : List Nat) : State :=
  cs.foldl (fun s c => match (s.core c).wait with
    | .pool _ id => s.withdrawRequest c id
    | _ => s) s

/-- The save area of a launch (R392–R394): its cores in ascending place; a drain that the journal holds back resolves anew after the
restore, and of a full save, after which every unit resumes where it stopped, the reads that stand parked at other cores are presented anew
(R396). The source cores of a protected context stay stopped for the handover; others are released, and their launch runs no longer (R397). -/
def State.saveLaunch (s : State) (l : Launch) (full : Bool) (id : BitVec 8) : State :=
  let cs := l.cores s.variant
  let s := s.withdrawWaits cs
  let inside (p : Packet) : Bool := cs.contains p.src && cs.contains p.dst
  let drains := s.net.filter fun p => inside p && (match p.kind with
    | .probe _ _ => false
    | .event => false
    | _ => true)
  let again := (s.regions.filter fun r => cs.contains r.lead).flatMap fun r =>
    (s.region r.lead).map fun c => ({ src := c, dst := r.lead, kind := .drainReport r.stray, tag := l.tag } : Packet)
  let kept := cs.map fun c => (c, (s.core c).saved full l.poolTable (l.liveAt s.variant id c))
  let headers := cs.map fun c => saveHeader full id (l.place s.variant c) (Config.saveRecordLength (s.tick + l.place s.variant c))
  let prot := (s.ctx l.tag).prot
  let records : SavedLaunch :=
    { launch := { l with pending := false, stopped := false, saved := false, point := none, heldCores := [], pausedCores := [] },
      headers := headers, cores := kept, traffic := drains ++ again ++ if full then s.parkedAbroad cs l.tag else [] }
  let s := s.addSave l.tag records
  if prot then (cs.foldl (fun s c => s.onCore c fun k => { k with wait := .none, waits := [] }) s).onLaunch l.id fun l => { l with saved := true }
  else s.endLaunch l

/-- CHECKPOINT_SAVE (R390, R392): a PENDING region that stands at its checkpoint point, where nothing fires, is saved once what it has under
way has been performed. -/
def execCheckpointSave (s : State) : Out :=
  match s.launchById s.cur.n with
  | none => .next s
  | some l =>
    if !l.pending || l.saved || l.stopped then .next s
    else
      match l.point with
      | none => .next s
      | some id => .next (if s.regionAtRest (l.cores s.variant) then s.saveLaunch l false id else s)

/-- CKPT_OVERDUE (R393): a region whose bound has passed before any checkpoint point came stands still, and the host is told; what is on
its way inside it arrives, and then all core state is saved. -/
def execCkptOverdue (s : State) : Out :=
  match s.launchById s.cur.n with
  | none => .next s
  | some l =>
    if l.saved || l.point.isSome || !(l.stopped || s.overdue l) then .next s
    else
      let waited := (s.core (s.launchLead l)).cycle - l.asked
      let d0 : Word := BitVec.ofNat 64 (l.qid.getD 0xFFF % 4096 + l.ridx.toNat % 2 ^ 48 * 2 ^ 16)
      let t := if l.stopped then s else (s.emit 0x81 l.tag 0 0 0 d0 waited).onLaunch l.id fun l => { l with stopped := true }
      let cs := l.cores t.variant
      if t.regionAtRest cs && t.flights.all (fun f => !cs.contains f.dst.core) && t.credits.all (fun k => !cs.contains k.dst.core) then
        .next (t.saveLaunch l true 0)
      else .next t

/-! ### Restore (R396) -/

/-- The slots of a pool after a restore: a saved slot as it was, a FREE one with the GEN that the pool holds. -/
def restoredSlots (now saved : Sparse Slot) : Sparse Slot :=
  let one (m : Sparse Slot) (i : Nat) : Sparse Slot :=
    let t := Sparse.get Slot.reset saved i
    Sparse.put m i (if t.state = slotFree then { Slot.reset with count := (Sparse.get Slot.reset now i).count } else t)
  ((now.map (·.1)) ++ saved.map (·.1)).foldl one []

/-- A core after the restore of what a save kept: in memory of its pools, the sectors of the slots that were saved; of its barriers A and P,
and N too after a full save. -/
def Core.restored (now saved : Core) (full : Bool) (table qs : List Word) : Core :=
  let keys := saved.liveSectors table qs
  let bars (m : Sparse Barrier) : Sparse Barrier := m.map fun b => (b.1, { b.2 with n := (Sparse.get Barrier.reset now.bars b.1).n })
  let all := bars ((now.bars.map (·.1)).foldl (fun m k => Sparse.put m k (Sparse.get Barrier.reset saved.bars k)) saved.bars)
  let pool (n : Fin 16) : Pool := { saved.pools[n] with slots := restoredSlots (now.pools[n]).slots (saved.pools[n]).slots }
  let bank (b : Fin 16) : Bank := { saved.banks[b] with bfnc := (now.banks[b]).bfnc, zeroising := (now.banks[b]).zeroising }
  { saved with
    cycle := now.cycle, tlb := now.tlb, icache := if now.ctxTag = saved.ctxTag then now.icache else [],
    prefetch := if now.ctxTag = saved.ctxTag then now.prefetch else [], nextId := max now.nextId saved.nextId,
    pools := Vector.ofFn pool, banks := Vector.ofFn bank, units := now.units, bars := if full then saved.bars else all,
    sram := if full then saved.sram else Sparse.patch keys now.sram saved.sram,
    sramTaint := if full then saved.sramTaint else Sparse.patch keys now.sramTaint saved.sramTaint }

/-- CONTEXT_RESTORE (R396): the records m of the save area n are written back once their cores run no launch and belong to the context's
partition; their headers tell what was saved (R394). -/
def execContextRestore (s : State) : Out :=
  match s.saves[s.cur.n]?, (s.saves[s.cur.n]?).bind fun a => a.saved[s.cur.m]? with
  | some area, some a =>
    let l := a.launch
    let cs := l.cores s.variant
    let ctx := s.ctx l.tag
    if area.sealed_ || !a.wellFormed s.variant || !ctx.live || !ctx.keys ||
        !(cs.all fun c => (s.launchOf c).isNone && s.partOf c == some l.part && !s.retired.contains c) then .next s
    else
      let put (t : State) (p : Nat × Core) : State :=
        t.onCore p.1 fun now => now.restored p.2 a.full l.poolTable (l.liveAt s.variant a.id p.1)
      let t := a.cores.foldl put ((s.dropTraffic cs).journalLaunch l)
      .next { t.takeSave s.cur.n s.cur.m with launches := t.launches ++ [l], net := t.net ++ a.traffic,
                                              dusk := t.dusk.filter fun c => !cs.contains c }
  | _, _ => .next s

/-! ### Handover (R397) -/

/-- The launches of a tag whose source cores stand stopped for a handover. -/
def State.heldSources (s : State) (tag : BitVec 6) : List Launch := s.launches.filter fun l => l.saved && l.tag == tag

/-- The source of a handover goes on as though no request had been made. -/
def Launch.resumed (l : Launch) : Launch :=
  { l with pending := false, stopped := false, saved := false, point := none, heldCores := [], pausedCores := [] }

/-- HANDOVER_PHASE1: the save area n of a protected context is sealed under a transfer key; without the turn's flag it fails, and the
sources go on as though no request had been made. -/
def execHandoverPhase1 (s : State) : Out :=
  match s.saves[s.cur.n]? with
  | none => .next s
  | some a =>
    if a.sealed_ || (s.heldSources a.tag).isEmpty then .next s
    else if s.cur.flag then .next { s with saves := s.saves.set s.cur.n { a with sealed_ := true }, draws := s.draws + 1 }
    else
      .next { s with saves := s.saves.eraseIdx s.cur.n,
                     launches := s.launches.map fun l => if l.saved && l.tag = a.tag then l.resumed else l }

/-- The context of a tag is lost: its work ends with KEY_LOST, its keys are gone, and the host is told (R397, R419, R423). Its session stays:
session keys go at END_SESSION, at tear-down and where a wake finds them lost (R408). -/
def State.loseContext (s : State) (tag : BitVec 6) : State :=
  let (t, _, _, _) := s.endWork tag 0x72
  (t.onCtx tag fun c => { c with state := .lost, slot := none, wrapped := none }).emit 0x72 tag 0 0 0 (tag.setWidth 64) 0

/-- HANDOVER_PHASE2: in one step the source's keys are destroyed and the destination's activated, so that the sources run no more and the
save area can be restored; a failure afterwards, the turn's flag clear, loses the context. -/
def execHandoverPhase2 (s : State) : Out :=
  match s.saves[s.cur.n]? with
  | none => .next s
  | some a =>
    if !a.sealed_ then .next s
    else if s.cur.flag then
      let t := { s with saves := s.saves.set s.cur.n { a with sealed_ := false } }
      let t := (t.heldSources a.tag).foldl State.endLaunch t
      .next ({ t with draws := t.draws + 4 }.onCtx a.tag fun c => { c with slot := some (KeySlot.drawn t.draws), draw := t.draws })
    else .next (s.loseContext a.tag)

end Sys2Proof.Machine
end

