-- ==== Sys2Proof/Machine/Context.lean ====
section
/-! DEFINITION. The security core: contexts and their measurement (R404–R406), measurement registers (R420), tag checks (R415) and
integrity failures (R416, R417). -/

namespace Sys2Proof.Machine

/-! ### Measurement (R406, R420) -/

/-- A measurement register's value from the 64 bytes of a digest, the first byte in bits 7:0. -/
def digestValue (bs : List Byte) : BitVec 512 := BitVec.ofNat 512 (bytesNat bs)

/-- The 64 bytes of a measurement register. -/
def registerBytes (v : BitVec 512) : List Byte := bytesOf 64 v.toNat

/-- extend(i, v): MRi := SHA-512(MRi ‖ v) (R420). -/
def State.extend (s : State) (i : Nat) (v : List Byte) : State :=
  if h : i < 16 then { s with mr := s.mr.set i (digestValue (sha512 (registerBytes s.mr[i] ++ v))) } else s

/-- CMR at creation (R406). -/
def cmrStart (part : BitVec 5) (prot : Bool) : BitVec 512 :=
  digestValue (sha512 (List.replicate 64 0 ++ (part.setWidth 8 :: (BitVec.ofNat 8 prot.toNat :: List.replicate 62 0))))

/-- CMR after a registration (R406). -/
def cmrExtend (cmr : BitVec 512) (va : Word) (len : Nat) (bytes : List Byte) : BitVec 512 :=
  digestValue (sha512 (registerBytes cmr ++ sha512 (bytesOf 8 va.toNat ++ bytesOf 8 len ++ bytes)))

/-- MEASUREMENT_EXTEND (R420): the security core extends one of MR4–MR15 for a later stage; the turn's n gives the 64 bytes. -/
def execMeasurementExtend (s : State) : Out :=
  if 4 ≤ s.cur.unit && s.cur.unit < 16 then .next (s.extend s.cur.unit (bytesOf 64 s.cur.n)) else .next s

/-! ### Requests inside a session (R404, R405, R421) -/

/-- The SPDM session of a request, if the request came in one that is established. -/
def State.sessionOf (s : State) (m : Message) : Option (Nat × Session) :=
  match m.session with
  | none => none
  | some k =>
    match Sparse.find s.spdm.sessions k with
    | none => none
    | some x => if x.finished && !x.wrapped then some (k, x) else none

/-- A reply to a management message: its status, and a payload. -/
def State.replyTo (s : State) (m : Message) (status : Nat) (payload : List Byte) : State :=
  let s := s.answerTo m 5 status false 0 0 payload
  { s with spdm := { s.spdm with response := payload } }

/-- Runs a vendor-defined request: it is refused outside a session. The qwords are those of the payload (log entry 18). -/
def State.vendorRequest (s : State) (body : State → Message → Nat → Session → List Word → Out) : Out :=
  match s.message with
  | none => .next s
  | some m =>
    if m.op ≠ 5 then .next s
    else
      let s := s.takeMessage
      match s.sessionOf m with
      | none => .next (s.replyTo m 1 [])
      | some (k, x) => if m.clean && s.ready then body s m k x (qwordsOf m.payload) else .next (s.replyTo m 1 [])

/-- The lowest FREE tag from 1 on (R401, R404). -/
def State.lowestFreeTag (s : State) : Option Nat :=
  ((List.range 63).map (· + 1)).find? fun t => (s.ctx (BitVec.ofNat 6 t)).state == .free

/-- CTAG and BTAG of a partition's cores and banks take a tag, and PERMIT follows (R402–R404). -/
def State.tagPartition (s : State) (part : BitVec 5) (tag : BitVec 6) : State :=
  let cores := (List.range s.variant.coreCount).filter fun c => s.partOf c == some part
  let banks := (List.range (16 * s.variant.coreCount)).filter fun k => s.bankPartOf (k / 16) (k % 16) == part
  { s with ctag := cores.foldl (fun m c => Sparse.set 0 m c tag) s.ctag,
           btag := banks.foldl (fun m k => Sparse.set 0 m k tag) s.btag }.rewritePermits

/-- CREATE (R404, R421): the partition, PROT and the seed of the request; the reply names the tag, which is the context handle. -/
def execCreate (s : State) : Out :=
  s.vendorRequest fun s m k x q =>
    let at_ (i : Nat) : Word := (q[i]?).getD 0
    let p := (at_ 0).toNat
    let part : BitVec 5 := BitVec.ofNat 5 p
    match s.lowestFreeTag with
    | none => .next (s.replyTo m 1 [])
    | some t =>
      if x.tag.isSome || q.length ≠ 3 || s.variant.partitions ≤ p || 1 < (at_ 1).toNat || s.tagOfPart part != 0 then .next (s.replyTo m 1 [])
      else
        let tag : BitVec 6 := BitVec.ofNat 6 t
        let prot := at_ 1 == 1
        let seed := if at_ 2 = 0 then Config.drawn64 s.draws else at_ 2
        let s := s.onCtx tag fun _ =>
          { Context.reset with state := .opened, prot := prot, part := part, slot := some (KeySlot.drawn (s.draws + 1)), draw := s.draws + 1,
                               cmr := cmrStart part prot, seeds := [seed], session := some k }
        let s := { s with draws := s.draws + 5,
                          spdm := { s.spdm with sessions := Sparse.put s.spdm.sessions k { x with tag := some tag } } }
        .next ((s.tagPartition part tag).replyTo m 0 (bytesOf 8 t))

/-- The digests of the kernels of an object, in order: the first header has LAST = 0 unless it is the only one; none where a header fails
R385 (R405). -/
def State.kernelsOf (s : State) (tag : BitVec 6) (va : Word) : Nat → Nat → Option (List (BitVec 256))
  | 0, _ => none
  | fuel + 1, k =>
    match s.kernelHeader tag va k, s.contextBytes tag (va + BitVec.ofNat 64 (96 * k + 6)) 2 with
    | some h, some f =>
      if (BitVec.ofNat 16 (bytesNat f)).getLsbD 1 then some [h.digest] else (State.kernelsOf s tag va fuel (k + 1)).map (h.digest :: ·)
    | _, _ => none

/-- REGISTER (R405, R406): the address and length of an object; 64 objects and 256 kernels at most, while the context is OPEN. -/
def execRegisterObject (s₀ : State) : Out :=
  s₀.vendorRequest fun s m _ x q =>
    let va := (q[0]?).getD 0
    let len := ((q[1]?).getD 0).toNat
    match x.tag with
    | none => .next (s.replyTo m 1 [])
    | some tag =>
      let c := s.ctx tag
      if c.state != .opened || m.ctxh ≠ tag.toNat || q.length ≠ 2 || 64 ≤ c.objects.length then .next (s.replyTo m 1 [])
      else
        let held := (c.objects.map fun o => o.digests.length).foldl (· + ·) 0
        s₀.managed tag [va] <| match s.contextBytes tag va len, s.kernelsOf tag va (256 - held) 0 with
        | some bytes, some ds =>
          .next ((s.onCtx tag fun c =>
            { c with objects := c.objects ++ [{ va := va, len := len, digests := ds }],
                     cmr := cmrExtend c.cmr va len bytes }).replyTo m 0 [])
        | _, _ => .next (s.replyTo m 1 [])

/-- SEAL (R405): CSTATE := SEALED. -/
def execSealContext (s : State) : Out :=
  s.vendorRequest fun s m _ x _ =>
    match x.tag with
    | none => .next (s.replyTo m 1 [])
    | some tag =>
      if (s.ctx tag).state != .opened || m.ctxh ≠ tag.toNat then .next (s.replyTo m 1 [])
      else .next ((s.onCtx tag fun c => { c with state := .closed }).replyTo m 0 [])

/-! ### Tag checks and integrity failures (R415–R417) -/

/-- TAG_CHECK_PASS: the open check n resolves, and what was held for it alone goes on (R415). -/
def execTagCheckPass (s : State) : Out := .next { s with checks := s.checks.eraseIdx s.cur.n }

/-- A failed check ends its context in one step, with a code (R416, R440): keys destroyed and pages refused, held items discarded, the side
stores of its routers among them, launches ended, queues DEAD, and the host told; its session goes on (R408). Firmware's own tag is reported
only (log entry 20). -/
def State.failContext (s : State) (tag : BitVec 6) (code : BitVec 8) (stack : BitVec 3) (detail : Nat) : State :=
  let tell (s : State) : State := s.emit code tag stack 0 0 (BitVec.ofNat 64 detail) 0
  if tag = 0 || (s.ctx tag).state == .free then tell s
  else
    let open_ := s.checks.map (·.id)
    let gone (o : Outgoing) : Bool := o.tag == tag && o.waits.any open_.contains
    let refuse (p : Nat × BitVec 7) : Nat × BitVec 7 := if p.2.extractLsb' 0 6 == tag then (p.1, p.2 ||| 0x40) else p
    let s := { s with pot := s.pot.map refuse,
                      outbox := s.outbox.filter (fun o => !gone o), checks := s.checks.filter (fun k => k.tag != tag),
                      cores := s.cores.map fun (e : Nat × Core) =>
                        (e.1, if e.2.ctxTag = tag then { e.2 with router := { e.2.router with stores := [] } } else e.2) }
    let (t, _, _, _) := s.endWork tag code
    tell (t.freeTag tag)

/-- The owner tag of the unit that a check reads, as the page-owner table has it now (R416). -/
def State.unitTag (s : State) (k : TagCheck) : BitVec 6 :=
  (Sparse.get 0#7 s.pot ((k.stack.toNat * 2 ^ 36 + k.off) / 65536)).extractLsb' 0 6

/-- The first of some failed checks in ascending stack number (R417). -/
def firstFailed (k : TagCheck) (ks : List TagCheck) : TagCheck := ks.foldl (fun a b => if b.stack < a.stack then b else a) k

/-- INTEGRITY (R416, R417): with the turn's flag set the open check n fails, and with it those of the same context at the stacks of mask m,
the lowest of which the record names; the context is that of the unit's present owner tag, and bits 51:8 hold the offset. Otherwise
a read of the unit at stack-linear address n fails its check before anything is forwarded. Nothing reads a page that has FAILED. -/
def execIntegrity (s : State) : Out :=
  if s.cur.flag then
    match s.checks[s.cur.n]? with
    | none => .next s
    | some k =>
      let f := firstFailed k (s.checks.filter fun x => s.unitTag x == s.unitTag k && (s.cur.m).testBit x.stack.toNat)
      let t := s.failContext (s.unitTag k) 0x70 f.stack (f.off * 256)
      .next { t with checks := t.checks.filter fun x => x.id != k.id }
  else
    match canonical s.variant s.cur.n with
    | none => .next s
    | some a =>
      let page := Sparse.get 0#7 s.pot (a / 65536)
      if page.getLsbD 6 then .next s
      else .next (s.failContext (page.extractLsb' 0 6) 0x70 (BitVec.ofNat 3 (stackOf a)) (a % 2 ^ 36 / 256 * 256 * 256))

end Sys2Proof.Machine
end

