-- ==== Sys2Proof/Machine/Spdm.lean ====
section
/-! DEFINITION. SPDM on the management channel (R421). The spec names the requests, the algorithms and what a measurement index reports; the
codes of requests and responses are those of DSP0274, and the values of signatures, key agreement and authentication codes are free
(log entries 5 and 21). -/

namespace Sys2Proof.Machine

/-- The SPDM version 1.3. -/
abbrev spdmVersion : Byte := 0x13

/-- A response: version, code, two parameters and a body. -/
def spdmResponse (code p1 p2 : Nat) (body : List Byte) : List Byte :=
  spdmVersion :: (BitVec.ofNat 8 code :: (BitVec.ofNat 8 p1 :: (BitVec.ofNat 8 p2 :: body)))

/-- An ERROR response with its code. -/
def spdmError (e : Nat) : List Byte := spdmResponse 0x7F e 0 []

/-- 64 bytes of a computation whose value the model leaves free: its kind, and what it is computed from. -/
def freeBytes (kind : Nat) (input : List Byte) (n : Nat) : List Byte :=
  ((List.range (n / 64 + 1)).flatMap fun i => bytesOf 64 (Config.cryptoResult (256 * kind + i) (bytesNat input)).toNat).take n

/-- The kinds of free computations: a signature, a key share, an authentication code, a certificate, a nonce. -/
abbrev kindSignature : Nat := 1
abbrev kindShare : Nat := 2
abbrev kindMac : Nat := 3
abbrev kindCertificate : Nat := 4
abbrev kindNonce : Nat := 5

/-- The certificate chain of the device: its length, the digest of its root, and the certificates. -/
def certificate : List Byte := bytesOf 2 1092 ++ bytesOf 2 0 ++ freeBytes kindCertificate [0] 64 ++ freeBytes kindCertificate [] 1024

/-- A byte of a request. -/
def requestByte (m : Message) (i : Nat) : Nat := ((m.payload[i]?).getD 0).toNat

/-- Answers a request with a response. -/
def State.respond (s : State) (m : Message) (r : List Byte) : Out := .next (s.replyTo m 0 r)

/-- Runs an SPDM request of a code; a message whose reserved bits are set is refused (R434), a malformed request is INVALID_REQUEST, and one out of order
UNEXPECTED_REQUEST. -/
def State.spdmRequest (s : State) (code : Nat) (inOrder : Spdm → Bool) (body : State → Message → Out) : Out :=
  match s.message with
  | none => .next s
  | some m =>
    if m.op ≠ 5 || requestByte m 1 ≠ code then .next s
    else
      let s := s.takeMessage
      if !m.clean then .next (s.replyTo m 1 [])
      else if m.len < 4 then s.respond m (spdmError 1)
      else if !inOrder s.spdm then s.respond m (spdmError 4)
      else body s m

/-- Whether the algorithms have been agreed. -/
def Spdm.agreed (x : Spdm) : Bool := x.version && x.caps && x.algorithms

/-- GET_VERSION: the exchange starts again; the device answers it even where the boot chain has stopped (R422). -/
def execGetVersion (s : State) : Out :=
  s.spdmRequest 0x84 (fun _ => true) fun s m =>
    { s with spdm := { s.spdm with version := true, caps := false, algorithms := false } }.respond m
      (0x10 :: (spdmResponse 4 0 0 [0, 1, 0, 0x13]).drop 1)

/-- The flags of a CAPABILITIES response for the requests of R421: CERT, CHAL, MEAS with signatures, ENCRYPT, MAC, KEY_EX, HBEAT and KEY_UPD. -/
abbrev spdmFlags : Nat := 0x2 + 0x4 + 0x10 + 0x40 + 0x80 + 0x200 + 0x2000 + 0x4000

/-- GET_CAPABILITIES: CTExponent is free, the flags tell what R421 supports, and a message holds 4,096 bytes (R434; log entry 21). -/
def execGetCapabilities (s : State) : Out :=
  s.spdmRequest 0xE1 (fun x => x.version && s.ready) fun s m =>
    { s with spdm := { s.spdm with caps := true } }.respond m
      (spdmResponse 0x61 0 0 (bytesOf 1 0 ++ freeBytes 6 [] 1 ++ bytesOf 2 0 ++ bytesOf 4 spdmFlags ++ bytesOf 4 4096 ++ bytesOf 4 4096))

/-- The algorithms of R421 as an ALGORITHMS response gives them, by the codes of DSP0274: its length, no measurement specification beyond that of
DMTF, measurements as SHA-512 digests, signatures ECDSA P-521, SHA-512; then four tables: ECDHE over P-521, AES-256-GCM, ECDSA P-521 for the
requester, and the key schedule (log entry 21). -/
def algorithmsBody : List Byte :=
  bytesOf 2 52 ++ bytesOf 1 1 ++ bytesOf 1 0 ++ bytesOf 4 0x8 ++ bytesOf 4 0x100 ++ bytesOf 4 0x4 ++ List.replicate 12 0 ++
    bytesOf 4 0 ++ (bytesOf 1 2 ++ bytesOf 1 0x20 ++ bytesOf 2 0x20) ++ (bytesOf 1 3 ++ bytesOf 1 0x20 ++ bytesOf 2 0x2) ++
    (bytesOf 1 4 ++ bytesOf 1 0x20 ++ bytesOf 2 0x100) ++ (bytesOf 1 5 ++ bytesOf 1 0x20 ++ bytesOf 2 0x1)

/-- NEGOTIATE_ALGORITHMS: ECDSA P-521 with SHA-512, ECDHE over P-521, AES-256-GCM. -/
def execNegotiateAlgorithms (s : State) : Out :=
  s.spdmRequest 0xE3 (fun x => x.version && x.caps) fun s m =>
    { s with spdm := { s.spdm with algorithms := true } }.respond m (spdmResponse 0x63 4 0 algorithmsBody)

/-- GET_DIGESTS: the SHA-512 digest of the certificate chain. -/
def execGetDigests (s : State) : Out :=
  s.spdmRequest 0x81 Spdm.agreed fun s m => s.respond m (spdmResponse 1 1 1 (sha512 certificate))

/-- GET_CERTIFICATE: a portion of the chain, from an offset and with a length of two bytes each. -/
def execGetCertificate (s : State) : Out :=
  s.spdmRequest 0x82 Spdm.agreed fun s m =>
    let off := numberAt m.payload 4 2
    let part := (certificate.drop off).take (numberAt m.payload 6 2)
    s.respond m (spdmResponse 2 0 0 (bytesOf 2 part.length ++ bytesOf 2 (certificate.length - (off + part.length)) ++ part))

/-- The measurement blocks of an index: 1–16 report MR0–MR15, 0x40 + t the CMR of tag t, and nothing for a FREE tag. -/
def State.measurement (s : State) (index : Nat) : List (Nat × BitVec 512) :=
  if h : 1 ≤ index ∧ index < 17 then [(index, s.mr[index - 1])]
  else if 0x40 ≤ index && index < 0x80 then
    let c := s.ctx (BitVec.ofNat 6 (index - 0x40))
    if c.state == .free then [] else [(index, c.cmr)]
  else []

/-- The DMTF type of a measurement: a digest of ROM, of mutable firmware, or of a configuration (log entry 21). -/
def measurementType (index : Nat) : Byte := if index = 1 then 0 else if index = 4 || 0x40 ≤ index then 3 else 1

/-- The bytes of measurement blocks: the index, the DMTF specification, the block's size, the type and size of the value, and the value. -/
def measurementBytes (ms : List (Nat × BitVec 512)) : List Byte :=
  ms.flatMap fun m =>
    BitVec.ofNat 8 m.1 :: (1 :: (bytesOf 2 67 ++ (measurementType m.1 :: (bytesOf 2 64 ++ registerBytes m.2))))

/-- The digest of every measurement, where a request asks for a summary. -/
def State.summary (s : State) (asked : Nat) : List Byte :=
  if asked = 0 then [] else sha512 (measurementBytes ((List.range 0x80).flatMap s.measurement))

/-- A nonce of the responder. -/
def State.nonce (s : State) : List Byte := freeBytes kindNonce (bytesOf 8 s.draws) 32

/-- A response that ends in a signature by the device identity key over what it answers and holds; the random source has given a nonce. -/
def State.signed (s : State) (m : Message) (body : List Byte) : List Byte × State :=
  (body ++ freeBytes kindSignature (m.payload ++ body) 132, { s with draws := s.draws + 1 })

/-- CHALLENGE: the digest of the chain, a nonce, the summary that parameter 2 asks for, no opaque data, and the requester's context, signed. -/
def execChallenge (s : State) : Out :=
  s.spdmRequest 0x83 Spdm.agreed fun s m =>
    let (r, t) := s.signed m (spdmResponse 3 0 1
      (sha512 certificate ++ s.nonce ++ s.summary (requestByte m 3) ++ bytesOf 2 0 ++ bytesOf 8 (numberAt m.payload 36 8)))
    t.respond m r

/-- GET_MEASUREMENTS: parameter 2 names the index; 0 asks for the number of indices, 0xFF for all. Bit 0 of parameter 1 asks for a
signature; the request then holds a nonce and a slot before the requester's context. -/
def execGetMeasurements (s : State) : Out :=
  s.spdmRequest 0xE0 Spdm.agreed fun s m =>
    let index := requestByte m 3
    let sign := requestByte m 2 % 2 = 1
    let ms := if index = 0xFF then (List.range 0x80).flatMap s.measurement else s.measurement index
    let count := if index = 0 then ((List.range 0x80).flatMap s.measurement).length else 0
    let bytes := measurementBytes ms
    let body := spdmResponse 0x60 count 0
      (BitVec.ofNat 8 ms.length :: (bytesOf 3 bytes.length ++ bytes ++ s.nonce ++ bytesOf 2 0 ++
        bytesOf 8 (numberAt m.payload (if sign then 37 else 4) 8)))
    if sign then
      let (r, t) := s.signed m body
      t.respond m r
    else { s with draws := s.draws + 1 }.respond m body

/-- The lowest free session number; 1 where none is free. -/
def State.freeSession (s : State) : Nat := ((List.range 65535).find? fun k => (Sparse.find s.spdm.sessions (k + 1)).isNone).getD 0 + 1

/-- KEY_EXCHANGE: a session begins; it is established by FINISH. The response holds the session's number, no mutual authentication, random data, the
key share, the summary that parameter 1 asks for, no opaque data, the signature, and the verify data of the handshake. With no number free it answers SessionLimitExceeded (log entry 21). -/
def execKeyExchange (s : State) : Out :=
  s.spdmRequest 0xE4 (fun x => x.agreed && s.ready) fun s m =>
    let k := s.freeSession
    if (Sparse.find s.spdm.sessions k).isSome then s.respond m (spdmError 0x0A) else
    let fresh : Session := { device := m.device, finished := false, tag := none, count := 0, keyGen := 0, wrapped := false }
    let share := freeBytes kindShare (bytesOf 8 s.draws ++ m.payload) 132
    let (r, t) := (s.putSession k fresh).signed m (spdmResponse 0x64 0 0
      (bytesOf 2 k ++ bytesOf 2 0 ++ s.nonce ++ share ++ s.summary (requestByte m 2) ++ bytesOf 2 0))
    t.respond m (r ++ freeBytes kindMac (bytesOf 8 k ++ r) 64)

/-- The session that a request names by its message. -/
def State.namedSession (s : State) (m : Message) : Option (Nat × Session) :=
  m.session.bind fun k => (Sparse.find s.spdm.sessions k).map fun x => (k, x)

/-- The authentication code that the requester of a session must show in FINISH. -/
def finishCode (k : Nat) : List Byte := freeBytes kindMac (bytesOf 8 k) 64

/-- FINISH: the handshake is complete where the requester's authentication code is right. -/
def execFinish (s : State) : Out :=
  s.spdmRequest 0xE5 Spdm.agreed fun s m =>
    match s.namedSession m with
    | none => s.respond m (spdmError 1)
    | some (k, x) =>
      if x.finished then s.respond m (spdmError 4)
      else if m.payload.drop 4 != finishCode k then s.respond m (spdmError 6)
      else (s.putSession k { x with finished := true }).respond m (spdmResponse 0x65 0 0 [])

/-- A request inside an established session. -/
def State.sessionRequest (s : State) (code : Nat) (body : State → Message → Nat → Session → Out) : Out :=
  s.spdmRequest code Spdm.agreed fun s m =>
    match s.sessionOf m with
    | none => s.respond m (spdmError 4)
    | some (k, x) => body s m k x

/-- HEARTBEAT: the session lives. -/
def execHeartbeat (s : State) : Out := s.sessionRequest 0xE8 fun s m _ _ => s.respond m (spdmResponse 0x68 0 0 [])

/-- KEY_UPDATE: operations 1 and 2 replace the session's keys, 3 verifies the new ones; another is no request. -/
def execKeyUpdate (s : State) : Out :=
  s.sessionRequest 0xE9 fun s m k x =>
    let op := requestByte m 2
    if op = 0 || 3 < op then s.respond m (spdmError 1)
    else (if op = 3 then s else s.putSession k { x with keyGen := x.keyGen + 1 }).respond m (spdmResponse 0x69 op (requestByte m 3) [])

/-- END_SESSION: the session and its keys end (R408). -/
def execEndSession (s : State) : Out :=
  s.sessionRequest 0xEC fun s m k x =>
    let t := { s with spdm := { s.spdm with sessions := Sparse.drop s.spdm.sessions k } }
    (match x.tag with
      | none => t
      | some tag => t.onCtx tag fun c => { c with session := none }).respond m (spdmResponse 0x6C 0 0 [])

end Sys2Proof.Machine
end

