-- ==== Sys2Proof/Machine/HostLink.lean ====
section
/-! DEFINITION. The Ultra Ethernet ports: connections (R433), RDMA of the host and of remote devices (R434, R435), replies and
acknowledgments of a stream's remote beats (R155), and management messages (R317, R324, R344, R413, R440). -/

namespace Sys2Proof.Machine

/-- CONNECTION_REQUEST (R433): the turn's n names the delivery mode, 0 reliable unordered, 1 reliable ordered; a connection of another mode is
refused. -/
def execConnectionRequest (s : State) : Out :=
  if s.cur.n = 0 then .next { s with connections := s.connections ++ [false] }
  else if s.cur.n = 1 then .next { s with connections := s.connections ++ [true] }
  else .next s

/-! ### RDMA (R434, R435) -/

/-- The stretches of memory that `n` bytes at an address lie in, granule by granule (R315); none where some page may not be accessed. -/
def State.stretches (s : State) (tag : BitVec 6) (need : Need) : Nat → Word → Nat → Option (List (Nat × Nat))
  | 0, _, _ => some []
  | fuel + 1, va, n =>
    if n = 0 then some []
    else
      let k := min n (granuleLeft va)
      match s.reachWord tag need va with
      | none => none
      | some a => (State.stretches s tag need fuel (va + BitVec.ofNat 64 k) (n - k)).map ((a, k) :: ·)

/-- The context that a message names, if it is known and lives (R434). -/
def State.contextOf (s : State) (m : Message) : Option (BitVec 6) :=
  let tag : BitVec 6 := BitVec.ofNat 6 m.ctxh
  if 1 ≤ m.ctxh && m.ctxh < 64 && (s.ctx tag).live && (s.ctx tag).keys then some tag else none

/-- Granules that an RDMA payload can lie in. -/
abbrev rdmaGranules : Nat := 3

/-- Writes bytes to stretches of memory. -/
def writeStretches (mem : List Host.Cell) : List (Nat × Nat) → List Byte → List Host.Cell
  | [], _ => mem
  | (a, k) :: as, bs => writeStretches (writeBytes mem a (bs.take k)) as (bs.drop k)

/-- What becomes of the traffic between a port and some stretches of memory: the first that does not arrive (R17, R18). -/
def State.stretchFate (s : State) (as : List (Nat × Nat)) : PacketFate :=
  ((as.map fun a => s.portFate a.1).find? (· != .arrives)).getD .arrives

/-- RDMA_WRITE (R434, R435): translated under the context's tables as a stream write, performed whole, and acknowledged; or refused with
nothing performed. It waits for the sparse updates of its words that arrived before (R330). -/
def execRdmaWrite (s : State) : Out :=
  match s.message with
  | none => .next s
  | some m =>
    if m.op ≠ 1 then .next s
    else
      let t := s.takeMessage
      match t.contextOf m, m.clean && m.status == 0 with
      | some tag, true =>
        match t.accepted m tag with
        | none => .next (t.acknowledge m 1)
        | some t =>
          match t.stretches tag .write rdmaGranules m.va m.len with
          | none => .next (t.acknowledge m 2)
          | some as =>
            if as.any fun a => t.inWindow a.1 a.2 then .next s
            else s.ifArrives (s.stretchFate as) tag <| .next ({ t with mem := writeStretches t.mem as m.payload }.acknowledge m 0)
      | _, _ => .next (t.acknowledge m 1)

/-- RDMA_READ_REQUEST (R434, R435): LEN bytes are read as a stream reads and sent in a read reply, sealed for a protected context and held
for its checks. -/
def execRdmaReadRequest (s : State) : Out :=
  match s.message with
  | none => .next s
  | some m =>
    if m.op ≠ 2 then .next s
    else
      let t := s.takeMessage
      let clean := { m with payload := List.replicate m.len 0 }.clean && m.payload.isEmpty && m.status == 0
      match t.contextOf m, clean with
      | some tag, true =>
        match t.accepted m tag with
        | none => .next (t.acknowledge m 1)
        | some t =>
          match t.stretches tag .read rdmaGranules m.va m.len with
          | none => .next (t.acknowledge m 2)
          | some as =>
            if as.any fun a => t.inWindow a.1 a.2 then .next s
            else s.ifArrives (s.stretchFate as) tag <| .next (t.answerTo m 3 0 m.isSealed m.va tag (as.flatMap fun a => readBytes t.mem a.1 a.2))
      | _, _ => .next (t.acknowledge m 1)

/-! ### Replies to a stream (R155) -/

/-- Whether a beat waits for the reply of a remote source. -/
def Beat.awaitsReply (b : Beat) : Bool :=
  match b.src, b.data with
  | .remote _ _, none => true
  | _, _ => false

/-- Whether a beat of an engine meets a test. -/
def State.beatMeets (s : State) (core k n : Nat) (test : Beat → Bool) : Bool :=
  match ((s.core core).engine k).job with
  | none => false
  | some j => j.beats.any fun b => b.n == n && test b

/-- READ_REPLY: the data of a remote source reach the beat that they answer; a reply with a status other than OK carries none (log entry
22), and one for a protected context must be sealed and verify (R435). -/
def execReadReply (s : State) : Out :=
  match s.message with
  | none => .next s
  | some m =>
    if m.op ≠ 3 then .next s
    else
      let s := s.takeMessage
      match s.accepted m (s.core m.core).ctxTag with
      | none => .next s
      | some s =>
        if m.status ≠ 0 || m.payload.length ≠ 32 || !s.beatMeets m.core m.engine m.beat Beat.awaitsReply then .next s
        else .next (s.fillBeat m.core m.engine m.beat (BitVec.ofNat 256 (bytesNat m.payload)) false)

/-- ACKNOWLEDGMENT: a remote write of a beat is acknowledged, and so performed (R155); one for a protected context must be sealed and verify (R435). -/
def execAcknowledgment (s : State) : Out :=
  match s.message with
  | none => .next s
  | some m =>
    if m.op ≠ 7 then .next s
    else
      let s := s.takeMessage
      match s.accepted m (s.core m.core).ctxTag with
      | none => .next s
      | some s =>
        if m.status ≠ 0 || !s.beatMeets m.core m.engine m.beat (fun b => b.delivered && !b.remote.isEmpty) then .next s
        else .next (s.onCore m.core fun c => c.onEngine m.engine fun e => e.beatDone m.beat)

/-! ### Management messages -/

/-- Whether something on its way reads or writes a page under the translation that it was issued with. -/
def State.pageBusy (s : State) (page : Nat) : Bool :=
  let mine (a : Nat) : Bool := a / 65536 == page
  let beat (b : Beat) : Bool := b.mem.any mine || (b.updates.any fun u => mine u.2.phys) || match b.src, b.data with
    | .mem a, none => mine a
    | _, _ => false
  (s.supd.any fun u => (u.window ++ u.waiting ++ u.coming).any fun e => mine e.phys) ||
    s.cores.any fun c => (c.2.accesses.any fun a => mine a.phys) || c.2.engines.toList.any fun e => e.job.any fun j => j.beats.any beat

/-- The security core gives a page to a tag: its units are zero under the new owner's keys (R413). -/
def State.givePage (s : State) (tag : BitVec 6) (page : Nat) : State :=
  { s with mem := s.mem.filter (fun c => c.1 / 65536 != page), pot := Sparse.set 0 s.pot page (tag.setWidth 7) }

/-- What a management request of a number does, where it may: 1 the table root of a context (R317), 2 a page for a tag (R413), 3 HTHR
(R440), 4 TOL or TRIALDEF of a partition (R344), 5 a device of a context's peer set (R149), 6 a qword of firmware's memory such as a
page-table entry (R324). The numbers and their operands are the model's (log entry 18). -/
def State.manage (s : State) (q : List Word) : Option State :=
  let at_ (i : Nat) : Word := (q[i]?).getD 0
  let tag : BitVec 6 := (at_ 1).setWidth 6
  match (at_ 0).toNat with
  | 1 =>
    if (s.ctx tag).live && at_ 2 &&& 0xFFFF#64 == 0 && (at_ 2).extractLsb' 52 12 == 0 then
      some (s.onCtx tag fun c => { c with root := (at_ 2).setWidth 52 })
    else none
  | 2 =>
    match canonical s.variant (at_ 2).toNat with
    | none => none
    | some a => if tag = 0 || (s.ctx tag).live then some (s.givePage tag (a / 65536)) else none
  | 3 => if 1 ≤ (at_ 1).toNat && (at_ 1).toNat < 256 then some { s with hthr := (at_ 1).setWidth 8 } else none
  | 4 =>
    if (at_ 1).toNat < s.variant.partitions && (at_ 2).toNat < 2 then
      some { s with journal := { s.journal with
        policy := Sparse.put s.journal.policy (65536 * (at_ 1).toNat + (at_ 2).toNat) ((at_ 3).setWidth 32) } }
    else none
  | 5 =>
    if (s.ctx tag).live then
      let d : BitVec 16 := (at_ 2).setWidth 16
      some (s.onCtx tag fun c => { c with peers := if c.peers.contains d then c.peers else c.peers ++ [d] })
    else none
  | 6 =>
    match canonical s.variant (at_ 1).toNat with
    | none => none
    | some a => if a % 8 = 0 && s.owned 0 a then some { s with mem := writeBytes s.mem a (bytesOf 8 (at_ 2).toNat) } else none
  | _ => none

/-- What a management request does and answers: besides those of `State.manage`, 7 reads DEV_CAP (R2), and 8 is a proposal of firmware's
policy for a partition with ORIGIN 0, whose block of eight qwords follows the partition (R344, R347, R348). Request 9 comes in an SPDM session
between the devices: the security cores install the peer key for the traffic of a context with that device (R413). Request 10 uploads
firmware, which nothing here runs before the next boot (R422). -/
def State.management (s : State) (m : Message) (q : List Word) : Option (State × List Byte) :=
  let n := ((q[0]?).getD 0).toNat
  let p := ((q[1]?).getD 0).toNat
  if n = 7 then some (s, bytesOf 8 s.variant.devCap.toNat)
  else if n = 10 then some (s, [])
  else if n = 8 then
    if q.length ≠ 10 || s.variant.partitions ≤ p then none
    else
      match s.propose ⟨none, s.tagOfPart (BitVec.ofNat 5 p), BitVec.ofNat 5 p, 0⟩ (q.drop 2) with
      | (_, .error _) => none
      | (t, .ok v) => some (t, bytesOf 8 v.toNat)
  else if n = 9 then
    match s.sessionOf m with
    | none => none
    | some (_, x) =>
      match x.device with
      | none => none
      | some d =>
        let tag : BitVec 6 := BitVec.ofNat 6 p
        if p < 64 && (s.ctx tag).live && (s.ctx tag).peers.contains d then
          some (s.onCtx tag fun c => { c with peerKeys := if (Sparse.find c.peerKeys d.toNat).isSome then c.peerKeys else Sparse.put c.peerKeys d.toNat 0 }, [])
        else none
  else (s.manage q).map fun t => (t, [])

/-- The address that a management request works on: the page it gives, or the qword it writes. -/
def State.manageAddress (s : State) (q : List Word) : Option Nat :=
  match ((q[0]?).getD 0).toNat with
  | 2 => canonical s.variant ((q[2]?).getD 0).toNat
  | 6 => canonical s.variant ((q[1]?).getD 0).toNat
  | _ => none

/-- Whether a message uploads firmware (R422; log entry 18). -/
def Message.uploads (m : Message) : Bool := m.op == 5 && m.clean && (qwordsOf m.payload)[0]? == some 10

/-- Does what a management request asks and answers it. -/
def State.managementReply (s : State) (m : Message) : Out :=
  match s.management m (qwordsOf m.payload) with
  | none => .next (s.replyTo m 1 [])
  | some (t, r) => .next (t.replyTo m 0 r)

/-- Admits a management message: one in an SPDM session is protected by it; another that names a protected context must be sealed (R435). -/
def State.admitted (s : State) (m : Message) : Option State :=
  match m.session, s.contextOf m with
  | none, some tag => s.accepted m tag
  | _, _ => some s

/-- MANAGEMENT_MESSAGE (R434): a request of firmware or the host to the management complex, or one of a reserved OP, which is refused. Where
the boot chain has stopped, only an upload of firmware is answered (R422). A page is given, and a qword of one is written, once nothing on its way
reads or writes the page under an older translation, for its requester would see a refusal where R320 gives it no point to (R413; log entry 20). -/
def execManagementMessage (s₀ : State) : Out :=
  match s₀.message with
  | none => .next s₀
  | some m =>
    if m.op ≠ 0 && m.op ≠ 5 && m.op < 8 then .next s₀
    else
      let s := s₀.takeMessage
      if s.power = .boot && !m.uploads then .next s
      else if m.op ≠ 5 then .next (s.acknowledge m 1)
      else if !m.clean || m.status ≠ 0 then .next (s.replyTo m 1 [])
      else
        match s.admitted m, s.manageAddress (qwordsOf m.payload) with
        | none, _ => .next (s.replyTo m 1 [])
        | some t, some a =>
          if s.pageBusy (a / 65536) then .next s₀
          else s₀.ifArrives (s.portFate a) 0 (t.managementReply m)
        | some t, none => t.managementReply m

end Sys2Proof.Machine
end

