-- ==== Sys2Proof/Machine/Power.lean ====
section
/-! DEFINITION. Soft errors and the retirement of cores (R440, R441), limits (R443), freeze (R442), the power states (R418, R419, R444) and
device reset with its boot chain (R420, R422, R445). -/

namespace Sys2Proof.Machine

/-! ### Soft errors (R440, R441) -/

/-- Whether a number names a unit of the health controller: a core, 0x200 + a stack, or 0x300 + a port die. -/
def Variant.healthUnit (v : Variant) (u : Nat) : Bool :=
  decide (u < v.coreCount) || (decide (0x200 ≤ u) && decide (u < 0x200 + v.stacks)) || (decide (0x300 ≤ u) && decide (u < 0x300 + v.dies))

/-- An event of a hardware code about a unit (R437, R438). -/
def State.healthEvent (s : State) (code : BitVec 8) (u count : Nat) : State :=
  let core := if u < s.variant.coreCount then u else 0
  s.emit code 0 0 core 0 (BitVec.ofNat 64 u) (BitVec.ofNat 64 count)

/-- A core's fault is lasting. -/
def State.markLasting (s : State) (core : Nat) : State :=
  if s.lasting.contains core || s.retired.contains core then s else { s with lasting := s.lasting ++ [core] }

/-- SOFT_ERROR_CORRECTED: counted for the turn's unit; a count that has reached HTHR in its window makes a core's fault lasting, and is
reported once in the window (R440; log entry 60). -/
def execSoftErrorCorrected (s : State) : Out :=
  let u := s.cur.unit
  if !s.variant.healthUnit u then .next s
  else
    let n := Sparse.get 0 s.softErrors u + 1
    let t := { s with softErrors := Sparse.put s.softErrors u n }
    if n < s.hthr.toNat || s.softLimits.contains u then .next t
    else
      let t := { t with softLimits := t.softLimits ++ [u] }.healthEvent 0xF0 u n
      .next (if u < s.variant.coreCount then t.markLasting u else t)

/-- HEALTH_WINDOW_EXPIRY: the counters of the turn's unit start again at 0 (R440). -/
def execHealthWindowExpiry (s : State) : Out :=
  .next { s with softErrors := Sparse.drop s.softErrors s.cur.unit, softLimits := s.softLimits.filter (· != s.cur.unit) }

/-- The launch on a core ends without its signal, and its queue goes to ERROR with 0x0F (R439). -/
def State.failLaunchOn (s : State) (core : Nat) : State :=
  match s.launchOf core with
  | none => s
  | some l =>
    let t := s.endLaunch l
    match l.qid with
    | some q => t.queueError q 1 0x0F
    | none => t

/-- UNCORRECTABLE: an error in the turn's core ends its launch, and the core is retired; in base die `unit − 0x200` it concerns the owner of
the page of stack-linear address n (R440). -/
def execUncorrectable (s : State) : Out :=
  let u := s.cur.unit
  if u < s.variant.coreCount then .next ((((s.healthEvent 0xF1 u 0).failLaunchOn u).markLasting u).startRetirement u)
  else
    match canonical s.variant s.cur.n with
    | none => .next s
    | some a =>
      if u ≠ 0x200 + stackOf a then .next s
      else .next (s.failContext ((Sparse.get 0#7 s.pot (a / 65536)).extractLsb' 0 6) 0xF1 (BitVec.ofNat 3 (stackOf a)) u)

/-- CORE_RETIRE: a core whose fault is lasting is retired once no launch runs on it (R441). -/
def execCoreRetire (s : State) : Out := .next (s.startRetirement s.cur.unit)

/-! ### Limits (R443) -/

/-- A limit lowers a core's clock: only timing changes. -/
def State.slowCore (s : State) (code : BitVec 8) : Out :=
  let c := s.cur.unit
  if s.variant.coreCount ≤ c then .next s
  else .next ({ s with slow := if s.slow.contains c then s.slow else s.slow ++ [c] }.healthEvent code c 0)

/-- THERMAL (R443). -/
def execThermal (s : State) : Out := s.slowCore 0xF2

/-- SUPPLY (R443). -/
def execSupply (s : State) : Out := s.slowCore 0xF3

/-- SHUTDOWN: a limit that cannot be held shuts the device down after an event (R443). -/
def execShutdown (s : State) : Out := .next { s.healthEvent 0xF4 s.cur.unit 0 with power := .off }

/-! ### Freeze (R423, R442) -/

/-- The tags of the contexts that live. -/
def State.liveTags (s : State) : List (BitVec 6) := (s.ctxs.filter fun c => c.2.live).map fun c => BitVec.ofNat 6 c.1

/-- DEBUG_UNLOCK: an unlock that is signed for this device, the turn's flag, extends MR3 with its 64 bytes n, destroys every context key and
freezes every clock; another is refused, and nothing stops. -/
def execDebugUnlock (s : State) : Out :=
  if !s.cur.flag then .next s
  else
    let t := s.extend 3 (bytesOf 64 s.cur.n)
    let t := s.liveTags.foldl State.loseContext t
    .next { t with power := .frozen, ctxs := t.ctxs.map fun (c : Nat × Context) => (c.1, { c.2 with slot := none }) }

/-! ### Power states (R418, R419, R444) -/

/-- Whether a packet of the memory network, a token or a returning slot addresses a core. -/
def State.addressed (s : State) (core : Nat) : Bool :=
  s.net.any (fun p => p.dst == core) || s.flights.any (fun f => f.dst.core == core) || s.credits.any fun k => k.dst.core == core

/-- Whether an element of a core has nothing to do: no token at an input, and nothing of a firing still under way. -/
def Elem.atRest (e : Elem) : Bool :=
  e.ports.toList.all (fun p => p.toks.isEmpty) && e.pending.isEmpty && e.drains.isEmpty && e.psums.isEmpty && e.prq.isEmpty

/-- Whether every unit of a core is idle: the sequencer, the engines, the configuration engine, the pools and their banks, the elements and
the router. -/
def Core.unitsIdle (c : Core) : Bool :=
  c.run != .running && c.accesses.isEmpty && c.engines.toList.all (fun e => e.job.isNone && e.di.toList.all fun p => p.toks.isEmpty) &&
    c.cfg.loads.isEmpty && c.pools.toList.all (fun p => p.queue.isEmpty) && c.banks.toList.all (fun b => b.queue.isEmpty && b.parked.isEmpty) &&
    c.elems.all (fun e => e.2.atRest) && c.router.entries.isEmpty && c.router.stores.isEmpty && c.takePort.toks.isEmpty

/-- DUSK_ENTRY: a core with no launch whose units are idle goes to Dusk (R444). -/
def execDuskEntry (s : State) : Out :=
  let c := s.cur.unit
  if s.variant.coreCount ≤ c || s.dusk.contains c || (s.launchOf c).isSome || s.addressed c || !(s.core c).unitsIdle then .next s
  else .next { s with dusk := s.dusk ++ [c] }

/-- DUSK_EXIT: what addresses the core wakes it (R444); a placement does so itself. -/
def execDuskExit (s : State) : Out :=
  let c := s.cur.unit
  if s.addressed c then .next { s with dusk := s.dusk.filter (· != c) } else .next s

/-- A core whose state is lost in Midnight: nothing of it is kept, and what its scratch holds is open (R444; log entry 14). -/
def lostCore (tick core : Nat) : Core :=
  { Core.reset with scratch := (List.range 65536).map fun a => (a, Config.lostByte tick core a) }

/-- The windows of the lead cores after their clocks have begun anew: the units retired so far are those of windows that are past (R344). -/
def Journal.newClocks (j : Journal) (units : Sparse Nat) (cores : Nat) : Journal :=
  { j with windows := (List.range cores).map (fun c => (c, { index := 0, snaps := [units] })),
           records := j.records.map fun t => { t with window := 0 } }

/-- A saved launch of a protected context leaves its source cores, whose state is lost. -/
def State.releaseSources (s : State) : State := (s.launches.filter fun l => l.saved).foldl State.endLaunch s

/-- MIDNIGHT_ENTRY (R418): every running launch is pre-empted and its save awaited; then the open tag checks; then keys, firmware's own
among them, and sessions are wrapped, and HBM keeps its contents while the cores lose theirs. -/
def execMidnightEntry (s : State) : Out :=
  let running := s.launches.filter fun l => l.placed && !l.saved
  if !running.isEmpty then
    .next (running.foldl
      (fun s l => match execPreemptRequest { s with cur := { s.cur with n := l.id } } with
        | .next t => { t with cur := s.cur }
        | _ => s) s)
  else if !s.checks.isEmpty then .next s
  else
    let s := s.releaseSources
    let wrap (c : Context) : Context := { c with wrapped := c.slot, slot := none }
    .next ({ s with
      ctxs := s.ctxs.map (fun (c : Nat × Context) => (c.1, wrap c.2)),
      spdm := { s.spdm with sessions := s.spdm.sessions.map fun (x : Nat × Session) => (x.1, { x.2 with wrapped := true }) },
      saves := s.saves.map fun (a : SaveArea) => { a with sealed_ := false }, flights := [], credits := [], net := [],
      tlb2 := Vector.replicate 2 [],
      cores := (List.range s.variant.coreCount).map (fun c => (c, { lostCore s.tick c with units := (s.core c).units })),
      journal := s.journal.newClocks s.unitSnapshot s.variant.coreCount, power := .midnight }.rewritePermits.emit 0 0 0 0 4 0 0)

/-- WAKE (R419): in Midnight, with retention power held, the turn's flag, keys and sessions are unwrapped, and the contexts resume by restore;
else every context that was alive is lost with every session, a new SLEEPKEY is drawn, and firmware's key slot is filled anew (log entry
32). -/
def execWake (s : State) : Out :=
  if s.power ≠ .midnight then .next s
  else if s.cur.flag then
    let s := { s with power := .on }
    let unwrap (c : Context) : Context := { c with slot := c.wrapped, wrapped := none }
    .next ({ s with
      ctxs := s.ctxs.map (fun (c : Nat × Context) => (c.1, unwrap c.2)),
      spdm := { s.spdm with
        sessions := s.spdm.sessions.map fun (x : Nat × Session) => (x.1, { x.2 with wrapped := false }) } }.rewritePermits.emit 0 0 0 0 4 0 0)
  else
    let s := { s with power := .on }
    let t := s.liveTags.foldl State.loseContext s
    .next (({ t with spdm := { t.spdm with sessions := [] }, sleepKey := Config.drawn256 t.draws, draws := t.draws + 5 }.onCtx 0
      fun c => { c with slot := some (KeySlot.drawn (t.draws + 1)), draw := t.draws + 1, wrapped := none }).rewritePermits.emit 0 0 0 0 4 0 0)

/-! ### Reset (R420, R422, R445) -/

/-- The first `n` stages of the boot chain have been measured (R420, R422): ROM and security-core firmware into MR0, management-core firmware
into MR1, F-level code into MR2. -/
def State.measureStages (s : State) (n : Nat) : State :=
  (([0, 0, 1, 2].take n).zipIdx).foldl (fun s p => s.extend p.1 (registerBytes (Config.bootMeasure (5 * s.tick + p.2)))) s

/-- The machine after the boot chain: its stages and the security configuration measured, SLEEPKEY drawn, firmware's key slot filled, the
links trained, and the ready event sent. -/
def State.boot (s : State) : State :=
  let s := (s.measureStages 4).extend 3 (registerBytes (Config.bootMeasure (5 * s.tick + 4)))
  ({ s with power := .on, ready := true, sleepKey := Config.drawn256 s.draws, draws := s.draws + 5 }.onCtx 0
    fun c => { c with slot := some (KeySlot.drawn (s.draws + 1)), draw := s.draws + 1 }).rewritePermits.emit 0 0 0 0 3 0 0

/-- DEVICE_RESET (R445): every unit is reset, every TLB and pool bank zeroised and every generation zero; the boot chain runs. With the turn's
flag set every stage passes its check, and the device sends its ready event; otherwise one of the stages 2 to 4 fails, by the turn's n, and
the boot stops before it (R422). -/
def execDeviceReset (s : State) : Out :=
  let fresh : State := { State.reset with variant := s.variant, agenda := s.agenda, cur := s.cur, tick := s.tick, draws := s.draws }
  .next (if s.cur.flag then fresh.boot else fresh.measureStages (1 + s.cur.n % 3))

end Sys2Proof.Machine
end

