-- ==== Sys2Proof/Machine/Probe.lean ====
section
/-! DEFINITION. Blocked waits and the probes that find cycles of them across cores (R37, R44, R45, R273). -/

namespace Sys2Proof.Machine

/-- A wait that is blocked now: SRCK, UNIT, which of a unit's waits it is (for a parked read its pool's core and its request), and the cores
that hold what it waits for. -/
structure WaitView where
  srck : BitVec 3
  unit : Nat
  sub : Nat
  targets : List Nat
  deriving DecidableEq, Repr

/-- Whether an allocation request of a requester stands blocked in a queue of a core: one that draws on a reservation never is. -/
def Core.queuesFor (c : Core) (who : Requester) : Bool :=
  c.pools.toList.any fun p => p.queue.any (fun q => q.who == who) && p.reservedBy who.core == 0

/-- The cores in whose pools a requester waits for a slot. -/
def State.queuedAt (s : State) (who : Requester) : List Nat := (s.cores.filter fun e => e.2.queuesFor who).map (·.1)

/-- The wait of the sequencer in POOL.AL. -/
def State.sequencerWait (s : State) (core : Nat) : List WaitView :=
  match (s.core core).wait with
  | .pool _ id => let ts := s.queuedAt (.seq core); if ts.isEmpty then [] else [⟨0, 0, id, ts⟩]
  | _ => []

/-- One wait of an element: for room in receivers, or for a resource of its own core. -/
def State.elementWait (s : State) (core ea sub : Nat) (e : Elem) (blocked : Option Needs) : Option WaitView :=
  match blocked with
  | none => none
  | some ds =>
    let full := (ds.filter fun d => decide (s.freeFor core d.1 < d.2)).map fun d => d.1.core
    if e.halted || e.passed then none
    else if ds.isEmpty then
      if e.opst.req.isSome && (s.queuedAt (.elem core ea)).isEmpty then none else some ⟨1, ea, sub, [core]⟩
    else if full.isEmpty then none
    else some ⟨1, ea, sub, full.eraseDups⟩

/-- The waits of elements: of a firing, of MROW's weight loader and of a drain (R251, R273). -/
def State.elementWaits (s : State) (core : Nat) : List WaitView :=
  (s.core core).elems.flatMap fun p =>
    [(0, p.2.blocked), (1, p.2.blockedLoad), (2, p.2.blockedDrain)].filterMap fun b => s.elementWait core p.1 b.1 p.2 b.2

/-- The waits of stream engines, each for the tile slots or the link slots of one beat. -/
def State.streamWaits (s : State) (core : Nat) : List WaitView :=
  (List.range 8).filterMap fun k =>
    let e := (s.core core).engine k
    match e.job with
    | none => none
    | some j =>
      if e.state ≠ 1 || !j.walks then none
      else if j.reqs.toList.any (·.isSome) then
        let ts := ((List.range 4).flatMap fun i => s.queuedAt (.stream core k i)).eraseDups
        if ts.isEmpty then none else some ⟨2, k, 2 * j.next, ts⟩
      else if j.linked || !j.toRequest.isEmpty then none
      else
        let full := ((s.lackingFor core ((j.beatLinks core j.next).map fun d => (d, 1))).map fun d => d.1.core).eraseDups
        if full.isEmpty then none else some ⟨2, k, 2 * j.next + 1, full⟩

/-- The reads of a core's units that are parked at a bank of any core, toward the cores that allocated their slots (R45). -/
def State.parkedWaits (s : State) (core : Nat) : List WaitView :=
  s.cores.flatMap fun q => q.2.banks.toList.flatMap fun b => (b.parked.filter fun r => r.who.core == core).map fun r =>
    ⟨3, handlePool r.handle, r.num * 512 + q.1, [((q.2.pool (handlePool r.handle)).slot (handleSlot r.handle)).owner]⟩

/-- The waits of the router for room in an EXIT port, one for each record that may leave. -/
def State.routerWaits (s : State) (core : Nat) : List WaitView :=
  let c := s.core core
  (c.router.entries.filter fun e => e.complete && e.releasing.isSome && !e.slotted && s.freeFor core (c.setPort core e.set.toNat 2) == 0).map
    fun e => ⟨4, e.set.toNat, e.since, [core]⟩

/-- Every blocked wait of a core. -/
def State.blockedWaits (s : State) (core : Nat) : List WaitView :=
  s.sequencerWait core ++ s.elementWaits core ++ s.streamWaits core ++ s.parkedWaits core ++ s.routerWaits core

/-- Whether a record and a view are of one wait. -/
def BlockedWait.isOf (b : BlockedWait) (w : WaitView) : Bool := b.srck == w.srck && b.unit == w.unit && b.sub == w.sub

/-- The record of a view brought up to the present cycle: one that goes on is kept, a new one begins now under a new number. -/
def Core.syncWait (old : List BlockedWait) (c : Core) (w : WaitView) : Core :=
  match old.find? fun b => b.isOf w with
  | some b => { c with waits := c.waits ++ [b] }
  | none =>
    let b : BlockedWait := ⟨w.srck, w.unit, w.sub, c.nextId, c.cycle, 0⟩
    Core.nextNumber { c with waits := c.waits ++ [b] }

/-- The records of a core's waits brought up to the present cycle. -/
def Core.syncWaits (c : Core) (ws : List WaitView) : Core := ws.foldl (Core.syncWait c.waits) { c with waits := [] }

/-- The waits of a core recorded as they are in the present cycle. -/
def State.syncWaitsAt (s : State) (core : Nat) : State := s.onCore core fun c => c.syncWaits (s.blockedWaits core)

/-- The blocked waits of a core with their targets. -/
def State.recordedWaits (s : State) (core : Nat) : List (BlockedWait × List Nat) :=
  (s.blockedWaits core).filterMap fun w => ((s.core core).waits.find? fun b => b.isOf w).map fun b => (b, w.targets)

/-- A wait of a core as a probe names it. -/
def BlockedWait.stop (b : BlockedWait) (core : Nat) : ProbeStop := ⟨core, b.srck, b.unit, b.num⟩

/-- Copies a probe that has passed a path along a wait to each of its targets in other cores, with one hop more (R44, R273). -/
def State.sendProbe (s : State) (core hops : Nat) (path : List ProbeStop) (targets : List Nat) : State :=
  if 384 ≤ hops + 1 then s
  else (targets.filter (· != core)).foldl (fun s t => s.send core t (.probe (hops + 1) path)) s

/-- A probe is judged at a core: it is copied along every blocked wait of the core that it has not passed, and a copy whose target is that
core goes on within it, along one wait more where the first argument admits it: the path of such a copy names every wait that a longer way
within the core would name (R44, R273). Each copy keeps the waits that it has passed, and two copies of a probe may both pass along one wait: DESIGN
CHOICE (log entry 63). -/
def State.judgeProbe (s : State) (core hops : Nat) : Nat → List ProbeStop → State
  | fuel, path =>
    ((s.recordedWaits core).filter fun w => !path.contains (w.1.stop core)).foldl (fun u w =>
      let path := path ++ [w.1.stop core]
      let u := u.sendProbe core hops path w.2
      match fuel with
      | 0 => u
      | n + 1 => if w.2.contains core then u.judgeProbe core hops n path else u) s

/-- The timer of wait n of a core: after each 65,536 cycles of blocking, a probe to each of its targets. -/
def State.probeTimer (s : State) (parked : Bool) : State :=
  let core := s.cur.core
  match s.here.waits[s.cur.n]? with
  | none => s
  | some b =>
    match (s.blockedWaits core).find? fun w => b.isOf w with
    | none => s
    | some w =>
      if (b.srck == 3) != parked || (s.here.cycle - b.since).toNat < 65536 * (b.sent + 1) then s
      else
        let t := s.on fun c => { c with waits := c.waits.set s.cur.n { b with sent := b.sent + 1 } }
        let t := t.sendProbe core 0 [b.stop core] w.targets
        if w.targets.contains core then t.judgeProbe core 0 1 [b.stop core] else t

/-- ALLOC_WAIT_PROBE_TIMER: blocked allocation n of the turn's core has waited 65,536 cycles more (R44). -/
def execAllocWaitProbeTimer (s : State) : Out := .next (s.probeTimer false)

/-- PARKED_READ_PROBE_TIMER: parked read n of the turn's core has waited 65,536 cycles more (R45). -/
def execParkedReadProbeTimer (s : State) : Out := .next (s.probeTimer true)

/-- The stop with the lowest SRCK, and within it the lowest UNIT. -/
def lowestStop : List ProbeStop → Option ProbeStop
  | [] => none
  | p :: ps =>
    match lowestStop ps with
    | none => some p
    | some q => if p.srck.toNat < q.srck.toNat || (p.srck = q.srck && p.unit ≤ q.unit) then some p else some q

/-- The core to which a path goes on from a stop: that of the next stop in another core, or the origin. -/
def nextCore (origin : Nat) (p : ProbeStop) : List ProbeStop → Nat
  | [] => origin
  | q :: qs => if q = p then ((qs.find? fun x => x.core != p.core).map (·.core)).getD origin else nextCore origin p qs

/-- Raises ALLOC_CYCLE at a core on a probe's path, once for each wait, naming the lowest of its waits there (R44): TVAL is the next core
along the cycle. -/
def State.reportCycle (s : State) (origin : Nat) (path : List ProbeStop) (core : Nat) : State :=
  match lowestStop (path.filter fun p => p.core == core) with
  | none => s
  | some p =>
    if (s.core core).told.contains p.num then s
    else
      (s.onCore core fun c => { c with told := c.told ++ [p.num] }).raise core 0x34 p.srck p.unit (BitVec.ofNat 64 (nextCore origin p path))

/-- PROBE_ARRIVAL: a probe (packet n) reaches a core: it has returned, where the very wait that sent it is still blocked; it is relayed; or
it is discarded (R44, R45, R273). -/
def execProbeArrival (s : State) : Out :=
  match s.arriving s.cur.n with
  | some { dst, kind := .probe hops path, .. } =>
    let t := (s.takePacket s.cur.n).syncWaitsAt dst
    match path with
    | [] => .next t
    | o :: _ =>
      if o.core = dst then
        if (t.core dst).waits.any fun b => b.stop dst == o then
          .next (((path.map (·.core)).eraseDups).foldl (fun t c => t.reportCycle dst path c) t)
        else .next t
      else .next (t.judgeProbe dst hops 1 path)
  | _ => .next s

end Sys2Proof.Machine
end

