-- ==== Sys2Proof/Machine/TokenIns.lean ====
section
/-! DEFINITION. The token instructions (R128–R130) and CKPT (R138). -/

namespace Sys2Proof.Machine

/-- The port that a target names (R128). -/
def targetOf (v : Word) : Nat × Nat := ((v.extractLsb' 0 6).toNat, (v.extractLsb' 8 2).toNat)

/-- The status of an injection into a port of the core (R129, R180), and the state after it. -/
def State.inject (s : State) (v : Word) (t : Token) : State × Word :=
  let (ea, i) := targetOf v
  let dst := Dest.port s.cur.core ea i
  if !enabled s.here.cfg.active ea || bindKind s.here.cfg.active ea i != 2 then (s, 2)
  else if s.freeAt dst = 0 then (s, 1)
  else (s.injectToken dst t, 0)

/-- TOK.INJ (R129). -/
def execTokInj (d a b c : SReg) (p : PReg) (s : State) : Out :=
  s.guarded p <|
    let addr := s.here.reg b
    match scratchFault addr 32 32 with
    | some code => .next (s.precise code addr)
    | none =>
      let t := tokenOf (BitVec.ofNat 256 (readScratch s.here addr.toNat 32)) ((s.here.reg c).setWidth 32)
      let r := s.inject (s.here.reg a) { t with taint := false }
      .next (s.retire (r.1.on fun k => k.setReg d r.2) 4)

/-- TOK.MARK (R129). -/
def execTokMark (d a b : SReg) (p : PReg) (s : State) : Out :=
  s.guarded p <|
    let r := s.inject (s.here.reg a) (markToken ((s.here.reg b).setWidth 8) 0 0)
    .next (s.retire (r.1.on fun k => k.setReg d r.2) 4)

/-- The oldest token of the take port goes to scratch and its sideband to d; the instruction at the pc completes (R130). -/
def State.takeToken (s : State) (d : SReg) (addr : Word) (t : Token) : State :=
  let u := (s.freeHeads (.take s.cur.core) 1).on fun c =>
    (writeScratch { c with wait := .none } addr.toNat t.payload.toNat 32).setReg d (t.side.setWidth 64)
  s.retire u 4

/-- TOK.TAKE (R130): the scratch address is checked before the wait. -/
def execTokTake (d a : SReg) (p : PReg) (s : State) : Out :=
  s.guarded p <|
    let addr := s.here.reg a
    match scratchFault addr 32 32 with
    | some code => .next (s.precise code addr)
    | none =>
      match s.here.takePort.toks with
      | t :: _ => .next (s.takeToken d addr t.tok)
      | [] => .next (s.on fun c => { c with wait := .take d addr })

/-- TOK_TAKE_RETURN: a token has reached the take port of a waiting TOK.TAKE (R130). -/
def execTokTakeReturn (s : State) : Out :=
  match s.here.wait, s.here.takePort.toks with
  | .take d addr, t :: _ => .next (s.takeToken d addr t.tok)
  | _, _ => .next s

/-- CKPT (R138, R389): every entry takes its MARK, or none. -/
def execCkpt (d a b : SReg) (p : PReg) (s : State) : Out :=
  s.guarded p <|
    let es := s.here.checkpointEntries s.cur.core
    let tag : BitVec 12 := 0x100#12 ||| ((s.here.reg a).setWidth 8).setWidth 12
    if es.isEmpty then s.answer s d 2
    else if es.any fun q => s.freeAt q == 0 then s.answer s d 1
    else s.answer ((es.foldl (fun s q => s.injectToken q (markToken ((s.here.reg b).setWidth 8) 0 tag)) s).holdAtCheckpoint s.cur.core) d 0

end Sys2Proof.Machine
end

