-- ==== Sys2Proof/Machine/Translation.lean ====
section
/-! DEFINITION. Walks that run on their own (R158, R319, R321, R323) and shootdowns (R324). -/

namespace Sys2Proof.Machine

/-- The index of a page in its group of 32 (R321). -/
def groupIndex (a : Nat) : Nat := a / 65536 % 32

/-- The 2 MiB translation of the group in which a level-3 entry lies, as derived from it: all 32 entries are leaves with CH = 1, and the
entry's PA[20:16] is its index, so that its own page stays where it is (R321). -/
def State.groupOf (s : State) (t : BitVec 6) (e : TlbEntry) : Option TlbEntry :=
  let base := e.base / 2 ^ 21 * 2 ^ 21
  let all := (List.range 32).all fun i => (s.walk t (base + 65536 * i)).any fun x => x.ch
  if e.ch && groupIndex e.phys = groupIndex e.base && all then
    some { e with base := base, size := 2 ^ 21, phys := e.phys / 2 ^ 21 * 2 ^ 21 }
  else none

/-- The translation of an entry with CH = 1 as derived from another one of its group, entry i (R321). -/
def State.derivedFrom (s : State) (t : BitVec 6) (e : TlbEntry) (i : Nat) : Option TlbEntry :=
  if e.ch && i < 32 && i != groupIndex e.base then
    match s.walk t (e.base / 2 ^ 21 * 2 ^ 21 + 65536 * i) with
    | some x => if x.ch then some { x with base := e.base, size := e.size, phys := x.phys / 2 ^ 21 * 2 ^ 21 + 65536 * groupIndex e.base } else none
    | none => none
  else none

/-- TRANSLATION_WALK: the translation unit of the turn's core walks to virtual address n of its context ahead of an access, and holds a
translation that it finds; with the turn's flag set it holds the 2 MiB group, or, where m is not 0, the page as derived from entry m − 1 of
the group (R319, R321, R322). -/
def execTranslationWalk (s : State) : Out :=
  let tag := s.here.ctxTag
  if 2 ^ 55 ≤ s.cur.n then .next s
  else
    s.ifArrives (s.walkFate s.cur.core tag s.cur.n) tag <|
    match s.walk tag s.cur.n with
    | none => .next s
    | some e =>
      let held := if !s.cur.flag then e
        else if s.cur.m = 0 then (s.groupOf tag e).getD e
        else (s.derivedFrom tag e (s.cur.m - 1)).getD e
      .next (s.cacheTranslation s.cur.core held)

/-- Whether a translation overlaps a range of a context. -/
def TlbEntry.overlapsRange (e : TlbEntry) (tag : BitVec 6) (a n : Nat) : Bool :=
  e.tag == tag && decide (e.base < a + n) && decide (a < e.base + e.size)

/-- Whether a stream has beats under way that were translated when they were issued. -/
def StreamJob.translated (j : StreamJob) : Bool :=
  j.beats.any fun b => !b.mem.isEmpty || !b.updates.isEmpty || (j.op == .upd && b.waits != 0) ||
    match b.src, b.data with
    | .mem _, none => true
    | _, _ => false

/-- Whether a core has accesses or beats under way that were translated before. -/
def Core.translated (c : Core) : Bool := !c.accesses.isEmpty || c.engines.toList.any fun e => e.job.any StreamJob.translated

/-- TLB_SHOOTDOWN: for the context of tag `unit`, the range of m bytes from page-aligned address n is dropped from the TLBs, the
instruction caches and the prefetch lines of every core of its partition; it completes once their outstanding accesses and issued beats have
been performed (R324). -/
def execTlbShootdown (s : State) : Out :=
  let tag := BitVec.ofNat 6 s.cur.unit
  let a := s.cur.n
  let n := s.cur.m
  let part := (s.ctx tag).part
  let mine (core : Nat) : Bool := s.partOf core == some part
  if a % 65536 ≠ 0 || (s.cores.any fun e => mine e.1 && e.2.translated) then .next s
  else
    let outside (w : Nat × Insn) : Bool := !(decide (a ≤ w.1) && decide (w.1 < a + n))
    let drop (c : Core) : Core :=
      { c with tlb := c.tlb.filter fun e => !e.overlapsRange tag a n,
               icache := if c.ctxTag = tag then c.icache.filter outside else c.icache,
               prefetch := if c.ctxTag = tag then c.prefetch.filter outside else c.prefetch }
    .next { s with cores := s.cores.map fun e => if mine e.1 then (e.1, drop e.2) else e,
                   tlb2 := s.tlb2.map fun l => l.filter fun e => !e.overlapsRange tag a n }

end Sys2Proof.Machine
end

