-- ==== Sys2Proof/Machine/Dispatch.lean ====
section
/-! DEFINITION. The meaning of every instruction: one arm for each constructor of Instr. -/

namespace Sys2Proof.Machine

def exec (i : Instr) (s : State) : Host.Outcome State Fault Refusal :=
  match i with
  | .add d a b => Sys2Proof.Machine.execAdd d a b s
  | .sub d a b => Sys2Proof.Machine.execSub d a b s
  | .mul d a b => Sys2Proof.Machine.execMul d a b s
  | .mulh d a b => Sys2Proof.Machine.execMulh d a b s
  | .mulhn d a b => Sys2Proof.Machine.execMulhn d a b s
  | .div d a b => Sys2Proof.Machine.execDiv d a b s
  | .divn d a b => Sys2Proof.Machine.execDivn d a b s
  | .rem d a b => Sys2Proof.Machine.execRem d a b s
  | .remn d a b => Sys2Proof.Machine.execRemn d a b s
  | .and d a b => Sys2Proof.Machine.execAnd d a b s
  | .or d a b => Sys2Proof.Machine.execOr d a b s
  | .xor d a b => Sys2Proof.Machine.execXor d a b s
  | .shl d a b => Sys2Proof.Machine.execShl d a b s
  | .shr d a b => Sys2Proof.Machine.execShr d a b s
  | .sha d a b => Sys2Proof.Machine.execSha d a b s
  | .min d a b => Sys2Proof.Machine.execMin d a b s
  | .max d a b => Sys2Proof.Machine.execMax d a b s
  | .minn d a b => Sys2Proof.Machine.execMinn d a b s
  | .maxn d a b => Sys2Proof.Machine.execMaxn d a b s
  | .clz d a => Sys2Proof.Machine.execClz d a s
  | .popc d a => Sys2Proof.Machine.execPopc d a s
  | .sel d a b n => Sys2Proof.Machine.execSel d a b n s
  | .addi d a imm => Sys2Proof.Machine.execAddi d a imm s
  | .andi d a imm => Sys2Proof.Machine.execAndi d a imm s
  | .ori d a imm => Sys2Proof.Machine.execOri d a imm s
  | .xori d a imm => Sys2Proof.Machine.execXori d a imm s
  | .shli d a n => Sys2Proof.Machine.execShli d a n s
  | .shri d a n => Sys2Proof.Machine.execShri d a n s
  | .shai d a n => Sys2Proof.Machine.execShai d a n s
  | .lih d imm => Sys2Proof.Machine.execLih d imm s
  | .addiLong d a imm => Sys2Proof.Machine.execAddiLong d a imm s
  | .andiLong d a imm => Sys2Proof.Machine.execAndiLong d a imm s
  | .oriLong d a imm => Sys2Proof.Machine.execOriLong d a imm s
  | .xoriLong d a imm => Sys2Proof.Machine.execXoriLong d a imm s
  | .cmpiLong c q a imm => Sys2Proof.Machine.execCmpiLong c q a imm s
  | .cmpiNaturalLong c q a imm => Sys2Proof.Machine.execCmpiNaturalLong c q a imm s
  | .ldLong d a n w imm => Sys2Proof.Machine.execLdLong d a n w imm s
  | .stLong d a w imm => Sys2Proof.Machine.execStLong d a w imm s
  | .ldlStlLong d a n w imm => Sys2Proof.Machine.execLdlStlLong d a n w imm s
  | .jalLong d imm => Sys2Proof.Machine.execJalLong d imm s
  | .cmp q a b c => Sys2Proof.Machine.execCmp q a b c s
  | .cmpi c q a imm => Sys2Proof.Machine.execCmpi c q a imm s
  | .cmpiNatural c q a imm => Sys2Proof.Machine.execCmpiNatural c q a imm s
  | .pand d a b => Sys2Proof.Machine.execPand d a b s
  | .por d a b => Sys2Proof.Machine.execPor d a b s
  | .pnot d a => Sys2Proof.Machine.execPnot d a s
  | .ld d a w imm => Sys2Proof.Machine.execLd d a w imm s
  | .ldn d a w imm => Sys2Proof.Machine.execLdn d a w imm s
  | .st d a w imm => Sys2Proof.Machine.execSt d a w imm s
  | .ldl d a w imm => Sys2Proof.Machine.execLdl d a w imm s
  | .stl d a w imm => Sys2Proof.Machine.execStl d a w imm s
  | .amoAdd d a b w => Sys2Proof.Machine.execAmoAdd d a b w s
  | .amoFadd d a b => Sys2Proof.Machine.execAmoFadd d a b s
  | .amoBadd d a b => Sys2Proof.Machine.execAmoBadd d a b s
  | .amoMin d a b w => Sys2Proof.Machine.execAmoMin d a b w s
  | .amoMax d a b w => Sys2Proof.Machine.execAmoMax d a b w s
  | .amoMinn d a b w => Sys2Proof.Machine.execAmoMinn d a b w s
  | .amoMaxn d a b w => Sys2Proof.Machine.execAmoMaxn d a b w s
  | .amoAnd d a b w => Sys2Proof.Machine.execAmoAnd d a b w s
  | .amoOr d a b w => Sys2Proof.Machine.execAmoOr d a b w s
  | .amoXor d a b w => Sys2Proof.Machine.execAmoXor d a b w s
  | .amoSwap d a b w => Sys2Proof.Machine.execAmoSwap d a b w s
  | .amoCas d a b w => Sys2Proof.Machine.execAmoCas d a b w s
  | .amoIncw d a b w => Sys2Proof.Machine.execAmoIncw d a b w s
  | .b p n imm => Sys2Proof.Machine.execB p n imm s
  | .jal d imm => Sys2Proof.Machine.execJal d imm s
  | .br a => Sys2Proof.Machine.execBr a s
  | .jr d a => Sys2Proof.Machine.execJr d a s
  | .loopImm l c o => Sys2Proof.Machine.execLoopImm l c o s
  | .loopReg l x o => Sys2Proof.Machine.execLoopReg l x o s
  | .loopsImm l c o => Sys2Proof.Machine.execLoopsImm l c o s
  | .loopsReg l x o => Sys2Proof.Machine.execLoopsReg l x o s
  | .lbrk l => Sys2Proof.Machine.execLbrk l s
  | .barArv d a p => Sys2Proof.Machine.execBarArv d a p s
  | .barWt d a b p => Sys2Proof.Machine.execBarWt d a b p s
  | .barSyn d a p => Sys2Proof.Machine.execBarSyn d a p s
  | .barPhs d a p => Sys2Proof.Machine.execBarPhs d a p s
  | .barMap d a b p => Sys2Proof.Machine.execBarMap d a b p s
  | .cfgLd d a b c p => Sys2Proof.Machine.execCfgLd d a b c p s
  | .cfgSwp d p => Sys2Proof.Machine.execCfgSwp d p s
  | .cfgDrn d p => Sys2Proof.Machine.execCfgDrn d p s
  | .cfgWt d p => Sys2Proof.Machine.execCfgWt d p s
  | .cfgSel d a b c p => Sys2Proof.Machine.execCfgSel d a b c p s
  | .cfgQry d a p => Sys2Proof.Machine.execCfgQry d a p s
  | .tokInj d a b c p => Sys2Proof.Machine.execTokInj d a b c p s
  | .tokTake d a p => Sys2Proof.Machine.execTokTake d a p s
  | .tokMark d a b p => Sys2Proof.Machine.execTokMark d a b p s
  | .trap imm => Sys2Proof.Machine.execTrap imm s
  | .csrr d n => Sys2Proof.Machine.execCsrr d n s
  | .csrw a n => Sys2Proof.Machine.execCsrw a n s
  | .csrs a n => Sys2Proof.Machine.execCsrs a n s
  | .loopRegisterWrite r v => Sys2Proof.Machine.execLoopRegisterWrite r v s
  | .cntSelWrite v => Sys2Proof.Machine.execCntSelWrite v s
  | .tstatWrite v => Sys2Proof.Machine.execTstatWrite v s
  | .evt a => Sys2Proof.Machine.execEvt a s
  | .seedGet d => Sys2Proof.Machine.execSeedGet d s
  | .fenceAcq scope => Sys2Proof.Machine.execFenceAcq scope s
  | .fenceRel scope => Sys2Proof.Machine.execFenceRel scope s
  | .ckpt d a b p => Sys2Proof.Machine.execCkpt d a b p s
  | .launch d a p => Sys2Proof.Machine.execLaunch d a p s
  | .shpMk d a b p => Sys2Proof.Machine.execShpMk d a b p s
  | .strmLd d a b c p => Sys2Proof.Machine.execStrmLd d a b c p s
  | .strmSv d a b c p => Sys2Proof.Machine.execStrmSv d a b c p s
  | .strmCp d a b c p => Sys2Proof.Machine.execStrmCp d a b c p s
  | .strmGa d a b c p => Sys2Proof.Machine.execStrmGa d a b c p s
  | .strmSc d a b c p => Sys2Proof.Machine.execStrmSc d a b c p s
  | .strmUpd d a b c p => Sys2Proof.Machine.execStrmUpd d a b c p s
  | .strmOrg d a b p => Sys2Proof.Machine.execStrmOrg d a b p s
  | .strmWt d a p => Sys2Proof.Machine.execStrmWt d a p s
  | .strmQry d a p => Sys2Proof.Machine.execStrmQry d a p s
  | .strmRsm d a p => Sys2Proof.Machine.execStrmRsm d a p s
  | .strmKil d a p => Sys2Proof.Machine.execStrmKil d a p s
  | .poolAl d a p => Sys2Proof.Machine.execPoolAl d a p s
  | .poolTal d a p => Sys2Proof.Machine.execPoolTal d a p s
  | .poolPb d a b p => Sys2Proof.Machine.execPoolPb d a b p s
  | .poolRd d a b c p => Sys2Proof.Machine.execPoolRd d a b c p s
  | .poolAb d a b p => Sys2Proof.Machine.execPoolAb d a b p s
  | .poolQry d a b p => Sys2Proof.Machine.execPoolQry d a b p s
  | .poolFnc d a b p => Sys2Proof.Machine.execPoolFnc d a b p s
  | .poolRsv d a b p => Sys2Proof.Machine.execPoolRsv d a b p s
  | .fadd w => Sys2Proof.Machine.execFadd w s
  | .fsub w => Sys2Proof.Machine.execFsub w s
  | .fmul w => Sys2Proof.Machine.execFmul w s
  | .fma w => Sys2Proof.Machine.execFma w s
  | .fms w => Sys2Proof.Machine.execFms w s
  | .fnma w => Sys2Proof.Machine.execFnma w s
  | .fmin w => Sys2Proof.Machine.execFmin w s
  | .fmax w => Sys2Proof.Machine.execFmax w s
  | .fabs w => Sys2Proof.Machine.execFabs w s
  | .fneg w => Sys2Proof.Machine.execFneg w s
  | .fcps w => Sys2Proof.Machine.execFcps w s
  | .frcp w => Sys2Proof.Machine.execFrcp w s
  | .frsq w => Sys2Proof.Machine.execFrsq w s
  | .fsqrt w => Sys2Proof.Machine.execFsqrt w s
  | .fex2 w => Sys2Proof.Machine.execFex2 w s
  | .flg2 w => Sys2Proof.Machine.execFlg2 w s
  | .fcmp w => Sys2Proof.Machine.execFcmp w s
  | .fcls w => Sys2Proof.Machine.execFcls w s
  | .iadd w => Sys2Proof.Machine.execIadd w s
  | .isub w => Sys2Proof.Machine.execIsub w s
  | .iadds w => Sys2Proof.Machine.execIadds w s
  | .isubs w => Sys2Proof.Machine.execIsubs w s
  | .imul w => Sys2Proof.Machine.execImul w s
  | .imulh w => Sys2Proof.Machine.execImulh w s
  | .imad w => Sys2Proof.Machine.execImad w s
  | .imulq w => Sys2Proof.Machine.execImulq w s
  | .imin w => Sys2Proof.Machine.execImin w s
  | .imax w => Sys2Proof.Machine.execImax w s
  | .iabs w => Sys2Proof.Machine.execIabs w s
  | .iand w => Sys2Proof.Machine.execIand w s
  | .ior w => Sys2Proof.Machine.execIor w s
  | .ixor w => Sys2Proof.Machine.execIxor w s
  | .inot w => Sys2Proof.Machine.execInot w s
  | .ishl w => Sys2Proof.Machine.execIshl w s
  | .ishr w => Sys2Proof.Machine.execIshr w s
  | .isha w => Sys2Proof.Machine.execIsha w s
  | .icmp w => Sys2Proof.Machine.execIcmp w s
  | .iclz w => Sys2Proof.Machine.execIclz w s
  | .cvt w => Sys2Proof.Machine.execCvt w s
  | .deq w => Sys2Proof.Machine.execDeq w s
  | .qnt w => Sys2Proof.Machine.execQnt w s
  | .clmp w => Sys2Proof.Machine.execClmp w s
  | .selLanes w => Sys2Proof.Machine.execSelLanes w s
  | .shuf w => Sys2Proof.Machine.execShuf w s
  | .bcst w => Sys2Proof.Machine.execBcst w s
  | .rotl w => Sys2Proof.Machine.execRotl w s
  | .slid w => Sys2Proof.Machine.execSlid w s
  | .iota w => Sys2Proof.Machine.execIota w s
  | .rsum w => Sys2Proof.Machine.execRsum w s
  | .rmax w => Sys2Proof.Machine.execRmax w s
  | .rmin w => Sys2Proof.Machine.execRmin w s
  | .acc w => Sys2Proof.Machine.execAcc w s
  | .amax w => Sys2Proof.Machine.execAmax w s
  | .dot w => Sys2Proof.Machine.execDot w s
  | .steer w => Sys2Proof.Machine.execSteer w s
  | .merge w => Sys2Proof.Machine.execMerge w s
  | .carry w => Sys2Proof.Machine.execCarry w s
  | .gate w => Sys2Proof.Machine.execGate w s
  | .invar w => Sys2Proof.Machine.execInvar w s
  | .drop w => Sys2Proof.Machine.execDrop w s
  | .pass w => Sys2Proof.Machine.execPass w s
  | .prmi w => Sys2Proof.Machine.execPrmi w s
  | .prmo w => Sys2Proof.Machine.execPrmo w s
  | .mkgn w => Sys2Proof.Machine.execMkgn w s
  | .cntr w => Sys2Proof.Machine.execCntr w s
  | .dly w => Sys2Proof.Machine.execDly w s
  | .rmk w => Sys2Proof.Machine.execRmk w s
  | .rfld w => Sys2Proof.Machine.execRfld w s
  | .rins w => Sys2Proof.Machine.execRins w s
  | .sent w => Sys2Proof.Machine.execSent w s
  | .sret w => Sys2Proof.Machine.execSret w s
  | .aloc w => Sys2Proof.Machine.execAloc w s
  | .pwr w => Sys2Proof.Machine.execPwr w s
  | .ppub w => Sys2Proof.Machine.execPpub w s
  | .prq w => Sys2Proof.Machine.execPrq w s
  | .lut w => Sys2Proof.Machine.execLut w s
  | .wld w => Sys2Proof.Machine.execWld w s
  | .mrow w => Sys2Proof.Machine.execMrow w s
  | .mdrn w => Sys2Proof.Machine.execMdrn w s
  | .macc w => Sys2Proof.Machine.execMacc w s
  | .rtCfg d a b p => Sys2Proof.Machine.execRtCfg d a b p s
  | .rtMode d a b p => Sys2Proof.Machine.execRtMode d a b p s
  | .rtQry d a p => Sys2Proof.Machine.execRtQry d a p s
  | .rtLog d a b c p => Sys2Proof.Machine.execRtLog d a b c p s
  | .jrnProp d a p => Sys2Proof.Machine.execJrnProp d a p s
  | .jrnSub d a p => Sys2Proof.Machine.execJrnSub d a p s
  | .jrnUsub d a p => Sys2Proof.Machine.execJrnUsub d a p s
  | .jrnPin d a b p => Sys2Proof.Machine.execJrnPin d a b p s
  | .jrnUpin d a p => Sys2Proof.Machine.execJrnUpin d a p s
  | .jrnVer d a p => Sys2Proof.Machine.execJrnVer d a p s
  | .jrnRd d a b p => Sys2Proof.Machine.execJrnRd d a b p s
  | .jrnRvt d a p => Sys2Proof.Machine.execJrnRvt d a p s
  | .jrnExp d a p => Sys2Proof.Machine.execJrnExp d a p s
  | .jrnLoad d a p => Sys2Proof.Machine.execJrnLoad d a p s
  | .illegalOp w => Sys2Proof.Machine.execIllegalOp w s
  | .loadReply => Sys2Proof.Machine.execLoadReply s
  | .amoReply => Sys2Proof.Machine.execAmoReply s
  | .barrierArrival => Sys2Proof.Machine.execBarrierArrival s
  | .barrierWaitRelease => Sys2Proof.Machine.execBarrierWaitRelease s
  | .cfgWtReturn => Sys2Proof.Machine.execCfgWtReturn s
  | .configStreamLoad => Sys2Proof.Machine.execConfigStreamLoad s
  | .sealChecksComplete => Sys2Proof.Machine.execSealChecksComplete s
  | .tokTakeReturn => Sys2Proof.Machine.execTokTakeReturn s
  | .takePortDrain => Sys2Proof.Machine.execTakePortDrain s
  | .eret => Sys2Proof.Machine.execEret s
  | .wfe => Sys2Proof.Machine.execWfe s
  | .halt => Sys2Proof.Machine.execHalt s
  | .nop => Sys2Proof.Machine.execNop s
  | .eventFlagDelivery => Sys2Proof.Machine.execEventFlagDelivery s
  | .wfeReturn => Sys2Proof.Machine.execWfeReturn s
  | .asyncTrapTake => Sys2Proof.Machine.execAsyncTrapTake s
  | .strmWtReturn => Sys2Proof.Machine.execStrmWtReturn s
  | .streamLinkAllocation => Sys2Proof.Machine.execStreamLinkAllocation s
  | .streamSourceReply => Sys2Proof.Machine.execStreamSourceReply s
  | .streamInputToken => Sys2Proof.Machine.execStreamInputToken s
  | .streamDrainInput => Sys2Proof.Machine.execStreamDrainInput s
  | .streamWritePerformed => Sys2Proof.Machine.execStreamWritePerformed s
  | .streamComplete => Sys2Proof.Machine.execStreamComplete s
  | .streamTranslationStop => Sys2Proof.Machine.execStreamTranslationStop s
  | .streamDrainSend => Sys2Proof.Machine.execStreamDrainSend s
  | .translationWalk => Sys2Proof.Machine.execTranslationWalk s
  | .tlbShootdown => Sys2Proof.Machine.execTlbShootdown s
  | .poolRemoteReply => Sys2Proof.Machine.execPoolRemoteReply s
  | .poolAllocGrant => Sys2Proof.Machine.execPoolAllocGrant s
  | .poolRemoteRequest => Sys2Proof.Machine.execPoolRemoteRequest s
  | .bankAccess => Sys2Proof.Machine.execBankAccess s
  | .drainCollectorAbandon => Sys2Proof.Machine.execDrainCollectorAbandon s
  | .allocWaitProbeTimer => Sys2Proof.Machine.execAllocWaitProbeTimer s
  | .parkedReadProbeTimer => Sys2Proof.Machine.execParkedReadProbeTimer s
  | .probeArrival => Sys2Proof.Machine.execProbeArrival s
  | .bankMove => Sys2Proof.Machine.execBankMove s
  | .bankZeroiseComplete => Sys2Proof.Machine.execBankZeroiseComplete s
  | .bankBusyExpiry => Sys2Proof.Machine.execBankBusyExpiry s
  | .tokenArrival => Sys2Proof.Machine.execTokenArrival s
  | .freeCountReturn => Sys2Proof.Machine.execFreeCountReturn s
  | .permitDenyDrop => Sys2Proof.Machine.execPermitDenyDrop s
  | .routeBroken => Sys2Proof.Machine.execRouteBroken s
  | .roundClose => Sys2Proof.Machine.execRoundClose s
  | .elementDrainPass => Sys2Proof.Machine.execElementDrainPass s
  | .haltedDiscard => Sys2Proof.Machine.execHaltedDiscard s
  | .coreDrainReport => Sys2Proof.Machine.execCoreDrainReport s
  | .drainBeginNotice => Sys2Proof.Machine.execDrainBeginNotice s
  | .drainResolution => Sys2Proof.Machine.execDrainResolution s
  | .resolutionApply => Sys2Proof.Machine.execResolutionApply s
  | .mkgnMarkInsert => Sys2Proof.Machine.execMkgnMarkInsert s
  | .poolReadReply => Sys2Proof.Machine.execPoolReadReply s
  | .weightLoaderRow => Sys2Proof.Machine.execWeightLoaderRow s
  | .bankAccumulateWrite => Sys2Proof.Machine.execBankAccumulateWrite s
  | .matrixDrain => Sys2Proof.Machine.execMatrixDrain s
  | .routerAdmission => Sys2Proof.Machine.execRouterAdmission s
  | .routerDraw => Sys2Proof.Machine.execRouterDraw s
  | .routerReturn => Sys2Proof.Machine.execRouterReturn s
  | .routerExit => Sys2Proof.Machine.execRouterExit s
  | .sideStore => Sys2Proof.Machine.execSideStore s
  | .routerDrain => Sys2Proof.Machine.execRouterDrain s
  | .supdWindowGrant => Sys2Proof.Machine.execSupdWindowGrant s
  | .supdApply => Sys2Proof.Machine.execSupdApply s
  | .journalExportComplete => Sys2Proof.Machine.execJournalExportComplete s
  | .journalLoadStep => Sys2Proof.Machine.execJournalLoadStep s
  | .progressWindowExpiry => Sys2Proof.Machine.execProgressWindowExpiry s
  | .trialEnd => Sys2Proof.Machine.execTrialEnd s
  | .controllerProposal => Sys2Proof.Machine.execControllerProposal s
  | .kick => Sys2Proof.Machine.execKick s
  | .queueMap => Sys2Proof.Machine.execQueueMap s
  | .queueUnmap => Sys2Proof.Machine.execQueueUnmap s
  | .queueRegister => Sys2Proof.Machine.execQueueRegister s
  | .queueArbitration => Sys2Proof.Machine.execQueueArbitration s
  | .nopPacket => Sys2Proof.Machine.execNopPacket s
  | .launchPacket => Sys2Proof.Machine.execLaunchPacket s
  | .signalPacket => Sys2Proof.Machine.execSignalPacket s
  | .waitPacket => Sys2Proof.Machine.execWaitPacket s
  | .waitReread => Sys2Proof.Machine.execWaitReread s
  | .seedPush => Sys2Proof.Machine.execSeedPush s
  | .seedPop => Sys2Proof.Machine.execSeedPop s
  | .seedFork => Sys2Proof.Machine.execSeedFork s
  | .jrnPacketProp => Sys2Proof.Machine.execJrnPacketProp s
  | .jrnPacketRvt => Sys2Proof.Machine.execJrnPacketRvt s
  | .jrnPacketExp => Sys2Proof.Machine.execJrnPacketExp s
  | .jrnPacketLoad => Sys2Proof.Machine.execJrnPacketLoad s
  | .launchPlacement => Sys2Proof.Machine.execLaunchPlacement s
  | .launchCompletion => Sys2Proof.Machine.execLaunchCompletion s
  | .contextTeardown => Sys2Proof.Machine.execContextTeardown s
  | .preemptRequest => Sys2Proof.Machine.execPreemptRequest s
  | .checkpointSave => Sys2Proof.Machine.execCheckpointSave s
  | .ckptOverdue => Sys2Proof.Machine.execCkptOverdue s
  | .contextRestore => Sys2Proof.Machine.execContextRestore s
  | .handoverPhase1 => Sys2Proof.Machine.execHandoverPhase1 s
  | .handoverPhase2 => Sys2Proof.Machine.execHandoverPhase2 s
  | .create => Sys2Proof.Machine.execCreate s
  | .registerObject => Sys2Proof.Machine.execRegisterObject s
  | .sealContext => Sys2Proof.Machine.execSealContext s
  | .getVersion => Sys2Proof.Machine.execGetVersion s
  | .getCapabilities => Sys2Proof.Machine.execGetCapabilities s
  | .negotiateAlgorithms => Sys2Proof.Machine.execNegotiateAlgorithms s
  | .getDigests => Sys2Proof.Machine.execGetDigests s
  | .getCertificate => Sys2Proof.Machine.execGetCertificate s
  | .challenge => Sys2Proof.Machine.execChallenge s
  | .getMeasurements => Sys2Proof.Machine.execGetMeasurements s
  | .keyExchange => Sys2Proof.Machine.execKeyExchange s
  | .finish => Sys2Proof.Machine.execFinish s
  | .heartbeat => Sys2Proof.Machine.execHeartbeat s
  | .keyUpdate => Sys2Proof.Machine.execKeyUpdate s
  | .endSession => Sys2Proof.Machine.execEndSession s
  | .measurementExtend => Sys2Proof.Machine.execMeasurementExtend s
  | .tagCheckPass => Sys2Proof.Machine.execTagCheckPass s
  | .integrity => Sys2Proof.Machine.execIntegrity s
  | .rdmaWrite => Sys2Proof.Machine.execRdmaWrite s
  | .rdmaReadRequest => Sys2Proof.Machine.execRdmaReadRequest s
  | .readReply => Sys2Proof.Machine.execReadReply s
  | .acknowledgment => Sys2Proof.Machine.execAcknowledgment s
  | .managementMessage => Sys2Proof.Machine.execManagementMessage s
  | .softErrorCorrected => Sys2Proof.Machine.execSoftErrorCorrected s
  | .uncorrectable => Sys2Proof.Machine.execUncorrectable s
  | .healthWindowExpiry => Sys2Proof.Machine.execHealthWindowExpiry s
  | .coreRetire => Sys2Proof.Machine.execCoreRetire s
  | .thermal => Sys2Proof.Machine.execThermal s
  | .supply => Sys2Proof.Machine.execSupply s
  | .shutdown => Sys2Proof.Machine.execShutdown s
  | .debugUnlock => Sys2Proof.Machine.execDebugUnlock s
  | .duskEntry => Sys2Proof.Machine.execDuskEntry s
  | .duskExit => Sys2Proof.Machine.execDuskExit s
  | .midnightEntry => Sys2Proof.Machine.execMidnightEntry s
  | .wake => Sys2Proof.Machine.execWake s
  | .deviceReset => Sys2Proof.Machine.execDeviceReset s
  | .storeCompletion => Sys2Proof.Machine.execStoreCompletion s
  | .barrierCommandReply => Sys2Proof.Machine.execBarrierCommandReply s
  | .journalReply => Sys2Proof.Machine.execJournalReply s
  | .connectionRequest => Sys2Proof.Machine.execConnectionRequest s

end Sys2Proof.Machine
end

