-- ==== Sys2Proof/Machine/Operands.lean ====
section
/-! DEFINITION. Operand forms: which scalars an instruction reads and writes, for the interlock of R75 and R108. The operand forms of
elements stand with the firing of an element (Element.lean). -/

namespace Sys2Proof.Machine

/-- The scalars that an instruction reads. -/
def readsOf : Instr → List SReg
  | .add _ a b => [a, b]
  | .sub _ a b => [a, b]
  | .mul _ a b => [a, b]
  | .mulh _ a b => [a, b]
  | .mulhn _ a b => [a, b]
  | .div _ a b => [a, b]
  | .divn _ a b => [a, b]
  | .rem _ a b => [a, b]
  | .remn _ a b => [a, b]
  | .and _ a b => [a, b]
  | .or _ a b => [a, b]
  | .xor _ a b => [a, b]
  | .shl _ a b => [a, b]
  | .shr _ a b => [a, b]
  | .sha _ a b => [a, b]
  | .min _ a b => [a, b]
  | .max _ a b => [a, b]
  | .minn _ a b => [a, b]
  | .maxn _ a b => [a, b]
  | .clz _ a => [a]
  | .popc _ a => [a]
  | .sel _ a b _ => [a, b]
  | .addi _ a _ => [a]
  | .andi _ a _ => [a]
  | .ori _ a _ => [a]
  | .xori _ a _ => [a]
  | .shli _ a _ => [a]
  | .shri _ a _ => [a]
  | .shai _ a _ => [a]
  | .addiLong _ a _ => [a]
  | .andiLong _ a _ => [a]
  | .oriLong _ a _ => [a]
  | .xoriLong _ a _ => [a]
  | .cmpiLong _ _ a _ => [a]
  | .cmpiNaturalLong _ _ a _ => [a]
  | .ldLong _ a _ _ _ => [a]
  | .stLong d a _ _ => [a, d]
  | .ldlStlLong d a n _ _ => if n == 0#1 then [a] else [a, d]
  | .cmp _ a b _ => [a, b]
  | .cmpi _ _ a _ => [a]
  | .cmpiNatural _ _ a _ => [a]
  | .ld _ a _ _ => [a]
  | .ldn _ a _ _ => [a]
  | .st d a _ _ => [a, d]
  | .ldl _ a _ _ => [a]
  | .stl d a _ _ => [a, d]
  | .amoAdd _ a b _ => [a, b]
  | .amoFadd _ a b => [a, b]
  | .amoBadd _ a b => [a, b]
  | .amoMin _ a b _ => [a, b]
  | .amoMax _ a b _ => [a, b]
  | .amoMinn _ a b _ => [a, b]
  | .amoMaxn _ a b _ => [a, b]
  | .amoAnd _ a b _ => [a, b]
  | .amoOr _ a b _ => [a, b]
  | .amoXor _ a b _ => [a, b]
  | .amoSwap _ a b _ => [a, b]
  | .amoCas d a b _ => [a, b, d]
  | .amoIncw _ a b _ => [a, b]
  | .br a => [a]
  | .jr _ a => [a]
  | .loopReg _ x _ => [x]
  | .loopsReg _ x _ => [x]
  | .barArv _ a _ => [a]
  | .barWt _ a b _ => [a, b]
  | .barSyn _ a _ => [a]
  | .barPhs _ a _ => [a]
  | .barMap _ a b _ => [a, b]
  | .cfgLd _ a b c _ => [a, b, c]
  | .cfgSel _ a b c _ => [a, b, c]
  | .cfgQry _ a _ => [a]
  | .tokInj _ a b c _ => [a, b, c]
  | .tokTake _ a _ => [a]
  | .tokMark _ a b _ => [a, b]
  | .csrw a _ => [a]
  | .csrs a _ => [a]
  | .evt a => [a]
  | .ckpt _ a b _ => [a, b]
  | .launch _ a _ => [a]
  | .shpMk _ a b _ => [a, b]
  | .strmLd _ a b c _ => [a, b, c]
  | .strmSv _ a b c _ => [a, b, c]
  | .strmCp _ a b c _ => [a, b, c]
  | .strmGa _ a b c _ => [a, b, c]
  | .strmSc _ a b c _ => [a, b, c]
  | .strmUpd _ a b c _ => [a, b, c]
  | .strmOrg _ a b _ => [a, b]
  | .strmWt _ a _ => [a]
  | .strmQry _ a _ => [a]
  | .strmRsm _ a _ => [a]
  | .strmKil _ a _ => [a]
  | .poolAl _ a _ => [a]
  | .poolTal _ a _ => [a]
  | .poolPb _ a b _ => [a, b]
  | .poolRd _ a b c _ => [a, b, c]
  | .poolAb _ a b _ => [a, b]
  | .poolQry _ a b _ => [a, b]
  | .poolFnc _ a b _ => [a, b]
  | .poolRsv _ a b _ => [a, b]
  | .rtCfg _ a b _ => [a, b]
  | .rtMode _ a b _ => [a, b]
  | .rtQry _ a _ => [a]
  | .rtLog _ a b c _ => [a, b, c]
  | .jrnProp _ a _ => [a]
  | .jrnSub _ a _ => [a]
  | .jrnUsub _ a _ => [a]
  | .jrnPin _ a b _ => [a, b]
  | .jrnUpin _ a _ => [a]
  | .jrnVer _ a _ => [a]
  | .jrnRd _ a b _ => [a, b]
  | .jrnRvt _ a _ => [a]
  | .jrnExp _ a _ => [a]
  | .jrnLoad _ a _ => [a]
  | _ => []

/-- The scalars that an instruction writes. -/
def writesOf : Instr → List SReg
  | .add d _ _ => [d]
  | .sub d _ _ => [d]
  | .mul d _ _ => [d]
  | .mulh d _ _ => [d]
  | .mulhn d _ _ => [d]
  | .div d _ _ => [d]
  | .divn d _ _ => [d]
  | .rem d _ _ => [d]
  | .remn d _ _ => [d]
  | .and d _ _ => [d]
  | .or d _ _ => [d]
  | .xor d _ _ => [d]
  | .shl d _ _ => [d]
  | .shr d _ _ => [d]
  | .sha d _ _ => [d]
  | .min d _ _ => [d]
  | .max d _ _ => [d]
  | .minn d _ _ => [d]
  | .maxn d _ _ => [d]
  | .clz d _ => [d]
  | .popc d _ => [d]
  | .sel d _ _ _ => [d]
  | .addi d _ _ => [d]
  | .andi d _ _ => [d]
  | .ori d _ _ => [d]
  | .xori d _ _ => [d]
  | .shli d _ _ => [d]
  | .shri d _ _ => [d]
  | .shai d _ _ => [d]
  | .lih d _ => [d]
  | .addiLong d _ _ => [d]
  | .andiLong d _ _ => [d]
  | .oriLong d _ _ => [d]
  | .xoriLong d _ _ => [d]
  | .ldLong d _ _ _ _ => [d]
  | .ldlStlLong d _ n _ _ => if n == 0#1 then [d] else []
  | .jalLong d _ => [d]
  | .ld d _ _ _ => [d]
  | .ldn d _ _ _ => [d]
  | .ldl d _ _ _ => [d]
  | .amoAdd d _ _ _ => [d]
  | .amoFadd d _ _ => [d]
  | .amoBadd d _ _ => [d]
  | .amoMin d _ _ _ => [d]
  | .amoMax d _ _ _ => [d]
  | .amoMinn d _ _ _ => [d]
  | .amoMaxn d _ _ _ => [d]
  | .amoAnd d _ _ _ => [d]
  | .amoOr d _ _ _ => [d]
  | .amoXor d _ _ _ => [d]
  | .amoSwap d _ _ _ => [d]
  | .amoCas d _ _ _ => [d]
  | .amoIncw d _ _ _ => [d]
  | .jal d _ => [d]
  | .jr d _ => [d]
  | .barArv d _ _ => [d]
  | .barWt d _ _ _ => [d]
  | .barSyn d _ _ => [d]
  | .barPhs d _ _ => [d]
  | .barMap d _ _ _ => [d]
  | .cfgLd d _ _ _ _ => [d]
  | .cfgSwp d _ => [d]
  | .cfgDrn d _ => [d]
  | .cfgWt d _ => [d]
  | .cfgSel d _ _ _ _ => [d]
  | .cfgQry d _ _ => [d]
  | .tokInj d _ _ _ _ => [d]
  | .tokTake d _ _ => [d]
  | .tokMark d _ _ _ => [d]
  | .csrr d _ => [d]
  | .seedGet d => [d]
  | .ckpt d _ _ _ => [d]
  | .launch d _ _ => [d]
  | .shpMk d _ _ _ => [d]
  | .strmLd d _ _ _ _ => [d]
  | .strmSv d _ _ _ _ => [d]
  | .strmCp d _ _ _ _ => [d]
  | .strmGa d _ _ _ _ => [d]
  | .strmSc d _ _ _ _ => [d]
  | .strmUpd d _ _ _ _ => [d]
  | .strmOrg d _ _ _ => [d]
  | .strmWt d _ _ => [d]
  | .strmQry d _ _ => [d]
  | .strmRsm d _ _ => [d]
  | .strmKil d _ _ => [d]
  | .poolAl d _ _ => [d]
  | .poolTal d _ _ => [d]
  | .poolPb d _ _ _ => [d]
  | .poolRd d _ _ _ _ => [d]
  | .poolAb d _ _ _ => [d]
  | .poolQry d _ _ _ => [d]
  | .poolFnc d _ _ _ => [d]
  | .poolRsv d _ _ _ => [d]
  | .rtCfg d _ _ _ => [d]
  | .rtMode d _ _ _ => [d]
  | .rtQry d _ _ => [d]
  | .rtLog d _ _ _ _ => [d]
  | .jrnProp d _ _ => [d]
  | .jrnSub d _ _ => [d]
  | .jrnUsub d _ _ => [d]
  | .jrnPin d _ _ _ => [d]
  | .jrnUpin d _ _ => [d]
  | .jrnVer d _ _ => [d]
  | .jrnRd d _ _ _ => [d]
  | .jrnRvt d _ _ => [d]
  | .jrnExp d _ _ => [d]
  | .jrnLoad d _ _ => [d]
  | _ => []

/-- The scalars whose value has still to come: destinations of outstanding loads and AMOs, and of commands to other cores
(R108, R111, R119). -/
def Core.awaiting (c : Core) : List SReg :=
  (c.accesses.filterMap fun a => match a.kind with
    | .load _ => some a.d
    | .amo _ => some a.d
    | .store => none) ++ c.awaited

/-- The interlock: an instruction that reads or writes a scalar whose value has still to come stalls (R75; log entry 10). -/
def Core.interlocked (c : Core) (i : Instr) : Bool :=
  (readsOf i ++ writesOf i).any fun r => r != 0 && c.awaiting.contains r

end Sys2Proof.Machine
end

