-- ==== Sys2Proof/Machine/Sched.lean ====
section
/-! DEFINITION. What a step chooses to run: the turn at the head of the schedule, its core's clock, and for a sequencer the instruction
at its pc (R14, R20, R75, R76, R90, R112; log entries 1, 8 and 10). -/

namespace Sys2Proof.Machine

/-- What a step does: nothing more on a device that is off; a finished state; or an instruction to run. -/
inductive Chosen where
  | stop
  | done (s : State)
  | run (i : Instr) (s : State)
  deriving DecidableEq, Repr

/-- The event that counts the cycles of a wait (R86); 0x00, which counts nothing, where none does. A hold for the reply of a pool or journal command,
for which R275 and R364 name no event, is counted under 0x0B: DESIGN CHOICE (log entry 63). -/
def Wait.counter : Wait → BitVec 8
  | .pool _ _ => 0x05
  | .barrier .. => 0x06
  | .barrierCommand _ => 0x06
  | .cfg _ => 0x07
  | .stream _ _ => 0x08
  | .take _ _ => 0x09
  | .event => 0x0A
  | .poolReply _ => 0x0B
  | .journal _ => 0x0B
  | .fence _ => 0x00
  | .none => 0x00

/-- A core's clock advances by `n` cycles, with the counters of cycles (R7, R71, R86). -/
def Core.advance (c : Core) (n : Nat) : Core :=
  let c := c.tickBy n
  if c.run = .running && c.wait.counter != 0 then c.countBy c.wait.counter n else c

/-- What the element whose turn it is does (R174, R189). -/
def State.elementTurn (s : State) : Chosen :=
  match s.elementAction with
  | some i => .run i s
  | none => .done s

/-- Whether a constructor is an event, which happens to the machine rather than being issued. -/
def isEvent : Instr → Bool
  | .loadReply => true
  | .amoReply => true
  | .barrierArrival => true
  | .barrierWaitRelease => true
  | .cfgWtReturn => true
  | .configStreamLoad => true
  | .sealChecksComplete => true
  | .tokTakeReturn => true
  | .takePortDrain => true
  | .eventFlagDelivery => true
  | .wfeReturn => true
  | .asyncTrapTake => true
  | .strmWtReturn => true
  | .streamLinkAllocation => true
  | .streamSourceReply => true
  | .streamInputToken => true
  | .streamDrainInput => true
  | .streamWritePerformed => true
  | .streamComplete => true
  | .streamTranslationStop => true
  | .streamDrainSend => true
  | .translationWalk => true
  | .tlbShootdown => true
  | .poolRemoteReply => true
  | .poolAllocGrant => true
  | .poolRemoteRequest => true
  | .bankAccess => true
  | .drainCollectorAbandon => true
  | .allocWaitProbeTimer => true
  | .parkedReadProbeTimer => true
  | .probeArrival => true
  | .bankMove => true
  | .bankZeroiseComplete => true
  | .bankBusyExpiry => true
  | .tokenArrival => true
  | .freeCountReturn => true
  | .permitDenyDrop => true
  | .routeBroken => true
  | .roundClose => true
  | .elementDrainPass => true
  | .haltedDiscard => true
  | .coreDrainReport => true
  | .drainBeginNotice => true
  | .drainResolution => true
  | .resolutionApply => true
  | .mkgnMarkInsert => true
  | .poolReadReply => true
  | .weightLoaderRow => true
  | .bankAccumulateWrite => true
  | .matrixDrain => true
  | .routerAdmission => true
  | .routerDraw => true
  | .routerReturn => true
  | .routerExit => true
  | .sideStore => true
  | .routerDrain => true
  | .supdWindowGrant => true
  | .supdApply => true
  | .journalExportComplete => true
  | .journalLoadStep => true
  | .progressWindowExpiry => true
  | .trialEnd => true
  | .controllerProposal => true
  | .kick => true
  | .queueMap => true
  | .queueUnmap => true
  | .queueRegister => true
  | .queueArbitration => true
  | .nopPacket => true
  | .launchPacket => true
  | .signalPacket => true
  | .waitPacket => true
  | .waitReread => true
  | .seedPush => true
  | .seedPop => true
  | .seedFork => true
  | .jrnPacketProp => true
  | .jrnPacketRvt => true
  | .jrnPacketExp => true
  | .jrnPacketLoad => true
  | .launchPlacement => true
  | .launchCompletion => true
  | .contextTeardown => true
  | .preemptRequest => true
  | .checkpointSave => true
  | .ckptOverdue => true
  | .contextRestore => true
  | .handoverPhase1 => true
  | .handoverPhase2 => true
  | .create => true
  | .registerObject => true
  | .sealContext => true
  | .getVersion => true
  | .getCapabilities => true
  | .negotiateAlgorithms => true
  | .getDigests => true
  | .getCertificate => true
  | .challenge => true
  | .getMeasurements => true
  | .keyExchange => true
  | .finish => true
  | .heartbeat => true
  | .keyUpdate => true
  | .endSession => true
  | .measurementExtend => true
  | .tagCheckPass => true
  | .integrity => true
  | .rdmaWrite => true
  | .rdmaReadRequest => true
  | .readReply => true
  | .acknowledgment => true
  | .managementMessage => true
  | .softErrorCorrected => true
  | .uncorrectable => true
  | .healthWindowExpiry => true
  | .coreRetire => true
  | .thermal => true
  | .supply => true
  | .shutdown => true
  | .debugUnlock => true
  | .duskEntry => true
  | .duskExit => true
  | .midnightEntry => true
  | .wake => true
  | .deviceReset => true
  | .storeCompletion => true
  | .barrierCommandReply => true
  | .journalReply => true
  | .connectionRequest => true
  | _ => false

/-- Whether a sequencer is held after its CKPT, or its region is stopped (R389, R393, R397). -/
def State.isHeld (s : State) (core : Nat) : Bool :=
  s.isStopped core || s.launches.any fun l => l.placed && l.heldCores.contains core

/-- Events that are work of elements, the router or the drain collector, or the end of a drain: none takes place in a stopped region (R390,
R393). -/
def stopsWithRegion : Instr → Bool
  | .drainCollectorAbandon => true
  | .coreDrainReport => true
  | .drainBeginNotice => true
  | .drainResolution => true
  | .resolutionApply => true
  | .roundClose => true
  | .elementDrainPass => true
  | .haltedDiscard => true
  | .mkgnMarkInsert => true
  | .poolReadReply => true
  | .weightLoaderRow => true
  | .bankAccumulateWrite => true
  | .matrixDrain => true
  | .routerAdmission => true
  | .routerDraw => true
  | .routerReturn => true
  | .routerExit => true
  | .sideStore => true
  | .routerDrain => true
  | _ => false

/-- Events that go on with a sequencer's work: none takes place where it is held (R389, R395). -/
def goesOnWithSequencer : Instr → Bool
  | .asyncTrapTake => true
  | .barrierWaitRelease => true
  | .cfgWtReturn => true
  | .tokTakeReturn => true
  | .wfeReturn => true
  | .strmWtReturn => true
  | _ => false

/-- The sequencer fetches and decodes; a stall on an interlock leaves it where it is (R75, R90, R112). -/
def State.issueTurn (s : State) : Chosen :=
  match s.fetch s.cur.core with
  | (t, .error (code, va)) => .done (if code = noAnswer then t else t.precise code va)
  | (t, .ok (.illegal v)) => .run (.illegalOp v) t
  | (t, .ok .short) => .done t
  | (t, .ok (.instr i _)) =>
    if t.here.interlocked i then .done (t.on fun c => c.count 0x03) else .run i t

/-- The sequencer's turn: a waiting asynchronous fault is taken first, then the instruction at the pc issues (R76, R79); a fence that
has not completed tries again, and no fault is taken and the sequencer does not stop before it has (R136, R389). -/
def State.sequencerTurn (s : State) : Chosen :=
  let c := s.here
  if c.run ≠ .running then .done s
  else
    match c.wait with
    | .none =>
      if s.isHeld s.cur.core then .done s else if !c.tin && !c.faults.isEmpty then .run .asyncTrapTake s else s.issueTurn
    | .fence _ => s.issueTurn
    | _ => .done s

/-- The state in which a turn runs: it leaves the schedule, and the clocks advance: that of its core, with the times of its blocked waits,
unless the core is in Dusk or the part is not on (R442, R444), and the management core's, unless it is frozen. Before that the journal applies
what an ended launch or a refused transaction held up (R351), a region that has come to stand at its checkpoint point is marked (R390), and the changes
of queue control blocks that updates held up are made (R330). -/
def State.begin (s : State) (t : Turn) (rest : List Turn) : State :=
  let elapsed := if s.power = .frozen then 0 else Config.managementCycles s.tick
  let v := s.journalPoint.markPoints
  let u := { State.flushQcb v.qcbWrites v with agenda := rest, cur := t, tick := s.tick + 1, mcycle := s.mcycle + BitVec.ofNat 64 elapsed }
  if s.power ≠ .on || s.dusk.contains t.core then u
    else (u.onCore t.core fun c => c.advance (1 + Config.extraCycles s.tick)).syncWaitsAt t.core

/-- The next turn and the schedule after it. -/
def State.nextTurn (s : State) : Option Turn × List Turn :=
  match s.agenda with
  | t :: ts => (some t, ts)
  | [] => (Config.scheduled s.tick, [])

/-- The core at which an event acts: the receiver of the packet of a notice or a resolution, and otherwise the turn's. -/
def State.coreOf (s : State) (i : Instr) (t : Turn) : Nat :=
  match i with
  | .drainBeginNotice => ((s.net[t.n]?).map Packet.dst).getD t.core
  | .resolutionApply => ((s.net[t.n]?).map Packet.dst).getD t.core
  | _ => t.core

/-- Whether an event waits because its region is stopped, its core in Dusk (R444) or its sequencer held. -/
def State.heldBack (s : State) (i : Instr) (t : Turn) : Bool :=
  (stopsWithRegion i && (s.isStopped (s.coreOf i t) || s.dusk.contains (s.coreOf i t))) || (goesOnWithSequencer i && s.isHeld t.core)

/-- Requests that the security core answers over SPDM (R421). -/
def isSpdm : Instr → Bool
  | .getVersion => true
  | .getCapabilities => true
  | .negotiateAlgorithms => true
  | .getDigests => true
  | .getCertificate => true
  | .challenge => true
  | .getMeasurements => true
  | .keyExchange => true
  | .finish => true
  | .heartbeat => true
  | .keyUpdate => true
  | .endSession => true
  | _ => false

/-- Whether an event may happen in a power state: all while the part is on; a reset always; GET_VERSION and an upload of firmware where the boot
chain has not run; the wake message in Midnight; what the security core and the management port do while the clocks are frozen (R419, R422, R442, R444). -/
def Power.admits (p : Power) (i : Instr) : Bool :=
  match p, i with
  | _, .deviceReset => true
  | .on, _ => true
  | .boot, .getVersion => true
  | .boot, .managementMessage => true
  | .midnight, .wake => true
  | .frozen, i => isSpdm i
  | _, _ => false

/-- What the next step runs. -/
def State.choose (s : State) : Chosen :=
  match s.nextTurn with
  | (none, rest) => if s.power = .off then .stop else .done { s with agenda := rest, tick := s.tick + 1 }
  | (some t, rest) =>
    let s' := s.begin t rest
    match t.act with
    | .event i =>
      if s.power = .off && !s.power.admits i then .stop
      else if isEvent i && s.power.admits i && !s'.heldBack i t then .run i s'
      else .done s'
    | .seq => if s.power = .off then .stop else if s.power = .on then s'.sequencerTurn else .done s'
    | .elem => if s.power = .off then .stop else if s.power = .on && !s'.isStopped t.core && !s'.dusk.contains t.core then s'.elementTurn else .done s'

end Sys2Proof.Machine
end

