-- ==== Sys2Proof/Machine/Step.lean ====
section
/-! DEFINITION. One step of the machine, and the state in which the host's word is the next instruction. -/

namespace Sys2Proof.Machine

/-- One step: the next turn runs (R14, R20). -/
def step (s : State) : Host.Outcome State Fault Refusal :=
  match s.choose with
  | .stop => .fault .deviceOff
  | .done t => .next t
  | .run i t => exec i t

/-- The physical address of the code page of `withFetchWord`. -/
abbrev codePage : Nat := 0x40000

/-- The state with an instruction stored where the next step fetches: core 0 runs owner tag 0 with virtual page 0 mapped to an
executable page, and its sequencer has the next turn. It stands for the host's loading of a kernel and its launch (log entry 11). -/
def State.withFetchWord (s : State) (nbits w : Nat) : State :=
  let mem := writeBytes s.mem codePage (bytesOf 8 (w % 2 ^ nbits))
  let mem := writeBytes mem 0x10000 (bytesOf 8 0x20001)
  let mem := writeBytes mem 0x20000 (bytesOf 8 0x30001)
  let mem := writeBytes mem 0x30000 (bytesOf 8 0x4000B)
  { ({ s with mem := mem, power := .on, agenda := [{ core := 0, unit := 0, n := 0, m := 0, flag := false, act := .seq }] }.onCtx 0
      fun c => { c with root := 0x10000 }).onCore 0 fun c =>
        { c with run := .running, wait := .none, pc := 0, icache := [], prefetch := [], tlb := [], faults := [], accesses := [], awaited := [] }
    with tlb2 := Vector.replicate 2 [], launches := [] }

end Sys2Proof.Machine
end

