-- ==== Sys2Proof/Laws/Memory.lean ====
section
/-! SUPPORT. What the operations over sparse maps and device memory do: read after write, what a write leaves alone, and the
canonical form. -/

namespace Sys2Proof.Machine

section
variable {α : Type}

theorem Sparse.get_put (d : α) (m : Sparse α) (k j : Nat) (v : α) :
    Sparse.get d (Sparse.put m k v) j = if j = k then v else Sparse.get d m j := by
  induction m with
  | nil => simp only [put, get]; grind
  | cons e m ih => obtain ⟨i, u⟩ := e; simp only [put]; grind [get]

theorem Sparse.get_drop (d : α) (m : Sparse α) (k j : Nat) :
    Sparse.get d (Sparse.drop m k) j = if j = k then d else Sparse.get d m j := by
  induction m with
  | nil => simp [drop, get]
  | cons e m ih => obtain ⟨i, u⟩ := e; simp only [drop]; grind [get]

theorem Sparse.find_put (m : Sparse α) (k j : Nat) (v : α) :
    Sparse.find (Sparse.put m k v) j = if j = k then some v else Sparse.find m j := by
  induction m with
  | nil => simp only [put, find]; grind
  | cons e m ih => obtain ⟨i, u⟩ := e; simp only [put]; grind [find]

theorem Sparse.find_drop (m : Sparse α) (k j : Nat) :
    Sparse.find (Sparse.drop m k) j = if j = k then none else Sparse.find m j := by
  induction m with
  | nil => simp [drop, find]
  | cons e m ih => obtain ⟨i, u⟩ := e; simp only [drop]; grind [find]

theorem Sparse.get_set [DecidableEq α] (d : α) (m : Sparse α) (k j : Nat) (v : α) :
    Sparse.get d (Sparse.set d m k v) j = if j = k then v else Sparse.get d m j := by
  unfold set; split
  · rw [get_drop]; grind
  · exact get_put d m k j v

theorem Sparse.get_upd (d : α) (m : Sparse α) (k j : Nat) (f : α → α) :
    Sparse.get d (Sparse.upd d m k f) j = if j = k then f (Sparse.get d m k) else Sparse.get d m j :=
  get_put d m k j _

/-- A lower bound may be lowered. -/
theorem Sparse.risesFrom_mono (m : Sparse α) {a b : Nat} (h : Sparse.risesFrom (some b) m = true) (hab : a ≤ b) :
    Sparse.risesFrom (some a) m = true := by
  cases m with
  | nil => rfl
  | cons e m => obtain ⟨i, u⟩ := e; simp only [risesFrom, Bool.and_eq_true, decide_eq_true_eq] at *; exact ⟨by omega, h.2⟩

theorem Sparse.risesFrom_none (m : Sparse α) {b : Option Nat} (h : Sparse.risesFrom b m = true) :
    Sparse.risesFrom none m = true := by
  cases m with
  | nil => rfl
  | cons e m => obtain ⟨i, u⟩ := e; cases b <;> simp_all [risesFrom]

theorem Sparse.risesFrom_put (m : Sparse α) (k : Nat) (v : α) (b : Option Nat) (h : Sparse.risesFrom b m = true)
    (hb : ∀ x, b = some x → x < k) : Sparse.risesFrom b (Sparse.put m k v) = true := by
  induction m generalizing b with
  | nil => cases b <;> simp_all [put, risesFrom]
  | cons e m ih =>
    obtain ⟨i, u⟩ := e
    have hm : Sparse.risesFrom (some i) m = true := by cases b <;> simp_all [risesFrom]
    simp only [put]
    split
    · cases b <;> simp_all [risesFrom]
    · split
      · next he => subst he; cases b <;> simp_all [risesFrom]
      · have := ih (some i) hm (by grind)
        cases b <;> simp_all [risesFrom]

theorem Sparse.risesFrom_filter (p : Nat × α → Bool) (m : Sparse α) (b : Option Nat) (h : Sparse.risesFrom b m = true) :
    Sparse.risesFrom b (m.filter p) = true := by
  induction m generalizing b with
  | nil => exact h
  | cons e m ih =>
    obtain ⟨i, u⟩ := e
    have hm : Sparse.risesFrom (some i) m = true := by cases b <;> simp_all [risesFrom]
    simp only [List.filter_cons]
    split
    · have := ih (some i) hm
      cases b <;> simp_all [risesFrom]
    · cases b with
      | none => exact risesFrom_none _ (ih (some i) hm)
      | some x =>
        refine risesFrom_mono _ (ih (some i) hm) ?_
        simp only [risesFrom, Bool.and_eq_true, decide_eq_true_eq] at h; omega

theorem Sparse.drop_eq_filter (m : Sparse α) (k : Nat) : Sparse.drop m k = m.filter (fun e => decide (e.1 ≠ k)) := by
  induction m with
  | nil => rfl
  | cons e m ih => obtain ⟨i, u⟩ := e; simp only [drop, List.filter_cons, ih]; grind

theorem Sparse.mem_put (m : Sparse α) (k : Nat) (v : α) {e : Nat × α} (h : e ∈ Sparse.put m k v) : e = (k, v) ∨ e ∈ m := by
  induction m with
  | nil => simp_all [put]
  | cons c m ih => obtain ⟨i, u⟩ := c; simp only [put] at h; grind

theorem Sparse.wf_put [DecidableEq α] {d : α} {m : Sparse α} (h : Sparse.wf d m = true) (k : Nat) {v : α} (hv : v ≠ d) :
    Sparse.wf d (Sparse.put m k v) = true := by
  simp only [wf, Bool.and_eq_true, List.all_eq_true, decide_eq_true_eq] at *
  exact ⟨risesFrom_put m k v none h.1 (by simp), fun e he => (mem_put m k v he).elim (by rintro rfl; exact hv) (h.2 e)⟩

theorem Sparse.wf_filter [DecidableEq α] {d : α} {m : Sparse α} (h : Sparse.wf d m = true) (p : Nat × α → Bool) :
    Sparse.wf d (m.filter p) = true := by
  simp only [wf, Bool.and_eq_true, List.all_eq_true, decide_eq_true_eq] at *
  exact ⟨risesFrom_filter p m none h.1, fun e he => h.2 e (List.mem_filter.mp he).1⟩

theorem Sparse.wf_set [DecidableEq α] {d : α} {m : Sparse α} (h : Sparse.wf d m = true) (k : Nat) (v : α) :
    Sparse.wf d (Sparse.set d m k v) = true := by
  unfold set; split
  · rw [drop_eq_filter]; exact wf_filter h _
  · exact wf_put h k ‹_›

end

/-! ### Device memory -/

theorem Memory.wf_nil : Memory.wf [] = true := rfl

theorem Memory.wf_writeByte {m : List Host.Cell} (h : Memory.wf m = true) (a : Nat) (b : Byte) :
    Memory.wf (writeByte m a b) = true :=
  Sparse.wf_set h a b

theorem Memory.wf_filter {m : List Host.Cell} (h : Memory.wf m = true) (p : Host.Cell → Bool) :
    Memory.wf (m.filter p) = true :=
  Sparse.wf_filter h p

theorem Memory.wf_writeBytes {m : List Host.Cell} (h : Memory.wf m = true) (a : Nat) (bs : List Byte) :
    Memory.wf (writeBytes m a bs) = true := by
  induction bs generalizing m a with
  | nil => exact h
  | cons b bs ih => exact ih (wf_writeByte h a b) (a + 1)

theorem readByte_writeByte (m : List Host.Cell) (a x : Nat) (b : Byte) :
    readByte (writeByte m a b) x = if x = a then b else readByte m x :=
  Sparse.get_set _ m a x b

/-- A write leaves every byte outside it alone. -/
theorem readByte_writeBytes_outside (m : List Host.Cell) (a x : Nat) (bs : List Byte) (h : x < a ∨ a + bs.length ≤ x) :
    readByte (writeBytes m a bs) x = readByte m x := by
  induction bs generalizing m a with
  | nil => rfl
  | cons b bs ih =>
    simp only [List.length_cons] at h
    rw [writeBytes, ih _ _ (by omega), readByte_writeByte, if_neg (by omega)]

/-- A read of a written byte gives it. -/
theorem readByte_writeBytes_inside (m : List Host.Cell) (a i : Nat) (bs : List Byte) (h : i < bs.length) :
    readByte (writeBytes m a bs) (a + i) = bs[i] := by
  induction bs generalizing m a i with
  | nil => simp at h
  | cons b bs ih =>
    rw [writeBytes]
    cases i with
    | zero => rw [readByte_writeBytes_outside _ _ _ _ (by omega), readByte_writeByte]; simp
    | succ i =>
      have := ih (writeByte m a b) (a + 1) i (by simpa using h)
      rw [show a + (i + 1) = a + 1 + i by omega, this]; rfl

@[simp] theorem bytesOf_length (n v : Nat) : (bytesOf n v).length = n := by
  induction n generalizing v with
  | zero => rfl
  | succ n ih => simp [bytesOf, ih]

theorem readMem_congr {m m' : List Host.Cell} (a n : Nat) (h : ∀ x, a ≤ x → x < a + n → readByte m x = readByte m' x) :
    readMem m a n = readMem m' a n := by
  induction n generalizing a with
  | zero => rfl
  | succ n ih =>
    simp only [readMem]
    rw [h a (by omega) (by omega), ih (a + 1) (fun x h1 h2 => h x (by omega) (by omega))]

/-- Reading `n` bytes where they were written gives the value's low `n` bytes. -/
theorem readMem_writeBytes (m : List Host.Cell) (a n v : Nat) :
    readMem (writeBytes m a (bytesOf n v)) a n = v % 256 ^ n := by
  induction n generalizing m a v with
  | zero => simp [readMem, Nat.mod_one]
  | succ n ih =>
    rw [bytesOf, writeBytes, readMem, ih, readByte_writeBytes_outside _ _ _ _ (by omega), readByte_writeByte]
    simp only [if_true, BitVec.toNat_ofNat]
    rw [show (256 : Nat) ^ (n + 1) = 256 * 256 ^ n by rw [Nat.pow_succ, Nat.mul_comm], Nat.mod_mul]

/-- Reading bytes that a write does not touch. -/
theorem readMem_writeBytes_outside (m : List Host.Cell) (a b n : Nat) (bs : List Byte)
    (h : b + n ≤ a ∨ a + bs.length ≤ b) : readMem (writeBytes m a bs) b n = readMem m b n :=
  readMem_congr b n fun x _ _ => readByte_writeBytes_outside m a x bs (by omega)

theorem Memory.wf_writeStretches {m : List Host.Cell} (h : Memory.wf m = true) (as : List (Nat × Nat)) (bs : List Byte) :
    Memory.wf (writeStretches m as bs) = true := by
  induction as generalizing m bs with
  | nil => exact h
  | cons a as ih => exact ih (wf_writeBytes h a.1 _) _

end Sys2Proof.Machine
end

