-- ==== Sys2Proof/Safety.lean ====
section
/-! DEFINITION. What counts as a safe run: no step stops. -/

namespace Sys2Proof

/-- A run of `k` steps from a state meets no fault and no refusal. -/
def RunsFor (k : Nat) (s : Machine.State) : Prop := ∃ t, Host.Core.run core k s = .next t

/-- The invariant of the machine: device memory is in its canonical form. -/
def MemoryCanonical (s : Machine.State) : Prop := Machine.Memory.wf s.mem = true

end Sys2Proof
end

