-- ==== Sys2Proof/WellFormed.lean ====
section
/-! DEFINITION. Well-formed instructions: the field values that the encodings admit (R93, R94, R190). -/

namespace Sys2Proof

/-- The values of an instruction's fields that its encoding admits: CMP has conditions 0–5 (R93), LDN has no width .d (R94);
every other field takes every value. -/
def Instr.wf : Instr → Bool
  | .cmp _ _ _ c => decide (c.toNat < 6)
  | .ldn _ _ w _ => decide (w.toNat < 3)
  | .ldLong _ _ n w _ => !(n == 1#1 && w == 3#2)
  | _ => true

end Sys2Proof
end

