-- ==== Sys2Proof/Certificates/Slice0/Obligations.lean ====
section
/-! DEFINITION. The statements for the provers. Each names the rules of the spec that it formalises; what an instruction leaves
unchanged is said by giving its next state whole: `s.on f` differs from `s` in the core whose turn it is alone, by `f`. -/

open Sys2Proof Sys2Proof.Machine

namespace Sys2Proof

/-- The instruction completes wherever it is issued, its effect on the core whose turn it is being `f` and its length `len` bytes: the
back-edge test of R80 (`finish`) then chooses the pc. A pc that this test leaves misaligned, a loop start with bits 1:0 not zero, traps
MISALIGN at the instruction with no effect (R76, R87). -/
def Completes (i : Instr) (len : Nat) (f : Core → Core) : Prop :=
  ∀ s : State,
    (misaligned ((f s.here).finish len).pc = false → exec i s = .next (s.on fun c => (f c).finish len)) ∧
    (misaligned ((f s.here).finish len).pc = true → exec i s = .next (s.precise 0x02 ((f s.here).finish len).pc))

/-- A trap of the core whose turn it is, taken outside a handler, with SRCK and UNIT 0 (R76, R78, R79): EPC keeps the pc, TVAL the
value, PLVL the level; LVL and TIN are set and the pc goes to TVEC. -/
def TakesTrap (i : Instr) (s : State) (code : BitVec 8) (v : Word) : Prop :=
  s.here.tin = false → exec i s = .next (s.on fun c => c.enterTrap c.pc (trapCause code 0 0 false) v)

end Sys2Proof

namespace Sys2Proof

/-- The instruction, issued in `s`, completes: exec answers the state `u` with the effect `f` on its core, and the core goes on. The one
condition is on `s`: the loop test of `s` leads to no misaligned start (R76, R80, R87), as it never does outside a loop. -/
def CompletesIn (i : Instr) (s u : State) (len : Nat) (f : Core → Core) : Prop :=
  misaligned (s.here.finish len).pc = false → exec i s = .next (u.on fun c => (f c).finish len)

/-- The same of an instruction that changes the registers of the loop test itself (R71, R80): the pc it goes on at is that of its effect. -/
def CompletesWith (i : Instr) (s : State) (f : Core → Core) : Prop :=
  misaligned ((f s.here).finish 4).pc = false → exec i s = .next (s.on fun c => (f c).finish 4)

/-- How an access to device memory issues (R107, R108, R111): with 16 accesses outstanding it waits; a misaligned address traps MISALIGN;
a translation fault traps with its code; both with the address in TVAL; where the walk's reads are dropped on their way it waits (R18; log entry 59);
else it goes on as `k` says, in the state after translation, with the physical address. -/
def DeviceAccessIssue (i : Instr) (addr : Core → Word) (size : Nat) (need : Need) (k : State → State → Nat → Prop) : Prop :=
  ∀ s : State,
    (16 ≤ s.here.accesses.length → exec i s = .next s) ∧
    (s.here.accesses.length < 16 → (addr s.here).toNat % size ≠ 0 → TakesTrap i s 0x02 (addr s.here)) ∧
    (s.here.accesses.length < 16 → (addr s.here).toNat % size = 0 → s.here.tin = false →
      ∀ u e, s.translate s.cur.core s.here.ctxTag need (addr s.here) = (u, .error e) → e ≠ noAnswer →
        exec i s = .next (u.on fun c => c.enterTrap c.pc (trapCause e 0 0 false) (addr s.here))) ∧
    (s.here.accesses.length < 16 → (addr s.here).toNat % size = 0 →
      ∀ u, s.translate s.cur.core s.here.ctxTag need (addr s.here) = (u, .error noAnswer) → exec i s = .next u) ∧
    (s.here.accesses.length < 16 → (addr s.here).toNat % size = 0 →
      ∀ u p, s.translate s.cur.core s.here.ctxTag need (addr s.here) = (u, .ok p) → k s u p)

/-- Leaves an outstanding access of the sequencer, numbered by the core, and counts it under an event (R86, R108). -/
def withAccess (ev : BitVec 8) (kind : AccessKind) (d : SReg) (phys size : Nat) (value cmp : Word) (c : Core) : Core :=
  ({ c with accesses := c.accesses ++ [⟨c.nextId, kind, d, phys, size, value, cmp, none⟩], nextId := c.nextId + 1 } : Core).count ev

/-- The predicate field of a Format E command (R98). -/
def predicateOf : Instr → Option PReg
  | .barArv _ _ p | .barWt _ _ _ p | .barSyn _ _ p | .barPhs _ _ p | .barMap _ _ _ p => some p
  | .cfgLd _ _ _ _ p | .cfgSwp _ p | .cfgDrn _ p | .cfgWt _ p | .cfgSel _ _ _ _ p | .cfgQry _ _ p => some p
  | .tokInj _ _ _ _ p | .tokTake _ _ p | .tokMark _ _ _ p | .ckpt _ _ _ p | .launch _ _ p => some p
  | .shpMk _ _ _ p | .strmLd _ _ _ _ p | .strmSv _ _ _ _ p | .strmCp _ _ _ _ p | .strmGa _ _ _ _ p => some p
  | .strmSc _ _ _ _ p | .strmUpd _ _ _ _ p | .strmOrg _ _ _ p | .strmWt _ _ p | .strmQry _ _ p | .strmRsm _ _ p | .strmKil _ _ p => some p
  | .poolAl _ _ p | .poolTal _ _ p | .poolPb _ _ _ p | .poolRd _ _ _ _ p | .poolAb _ _ _ p | .poolQry _ _ _ p | .poolFnc _ _ _ p => some p
  | .poolRsv _ _ _ p | .rtCfg _ _ _ p | .rtMode _ _ _ p | .rtQry _ _ p | .rtLog _ _ _ _ p => some p
  | .jrnProp _ _ p | .jrnSub _ _ p | .jrnUsub _ _ p | .jrnPin _ _ _ p | .jrnUpin _ _ p | .jrnVer _ _ p | .jrnRd _ _ _ p => some p
  | .jrnRvt _ _ p | .jrnExp _ _ p | .jrnLoad _ _ p => some p
  | _ => none

end Sys2Proof

/-- Decode and encode agree (R87–R100): no bit of a sequencer encoding is dropped. -/
def Obligations.SequencerEncodingRoundTrip : Prop :=
  ∀ (i : Instr) (rest : List Byte), i.wf = true → encode i ≠ [] →
    decodeBytes (bytesOfWords (encode i) ++ rest) = .instr i (4 * (encode i).length)

/-- Each word has one meaning, and a reserved field that is not zero has none (R88, R90). -/
def Obligations.OneWordOneInstruction : Prop :=
  (∀ w i, isLong w = false → decodeWord w = some i → encode i = [w] ∧ i.wf = true) ∧
  (∀ p w i, isLong p = true → decodePair p w = some i → encode i = [p, w] ∧ i.wf = true)

/-- The fields of an element operation word stand where R189 puts them, and OP names the operation (R190). -/
def Obligations.OperationWordRoundTrip : Prop :=
  (∀ i v, encodeEow i = some v → decodeEow v = some i) ∧ (∀ v i, decodeEow v = some i → encodeEow i = some v)

/-- Words of several families, bit by bit (R88–R98, R189). -/
def Obligations.SpecWordsDecode : Prop :=
  decodeWord (0b000000_00011_00001_00010_00000000000#32) = some (.add 3 1 2) ∧
  decodeWord (0b010100_00101_00100_0_10_0000000010000#32) = some (.ld 5 4 2 16) ∧
  decodeWord (0b011000_011_0_1111111111111111111101#32) = some (.b 3 0 (-3)) ∧
  decodeWord (0b011011_00_0_00000001100_000000000101#32) = some (.loopImm 0 12 5) ∧
  decodeWord (0b101000_00111_01000_01001_01010_010_001#32) = some (.strmLd 7 8 9 10 2) ∧
  decodePair 0b111111_00000100100011010001010110#32 0b000001_00110_00000_0111100010011010#32 = some (.addiLong 6 0 0x123456789A) ∧
  decodeEow 0b00000000_0001_0000_000_001_111_01_0000_0000_00011_00000000_0000000000000000#64 =
    some (.fadd ⟨1, 0, 0, 1, 7, 1, 0, 0, 3, 0, 0⟩) ∧
  decodeEow 0b01100010_0000_0000_000_001_010_01_0000_0000_00001_00000000_0000000000000000#64 =
    some (.carry ⟨0, 0, 0, 1, 2, 1, 0, 0, 1, 0, 0⟩)

/-- A step runs the decoded instruction. What a step adds: `begin` (the turn leaves the schedule, clocks advance) and the fetch's own
effects on the caches. -/
def Obligations.StepRunsTheDecodedInstruction : Prop :=
  (∀ (s u : State) (t : Turn) (rest : List Turn) (i : Instr) (len : Nat),
    s.power = .on → s.nextTurn = (some t, rest) → t.act = .seq →
    (s.begin t rest).here.run = .running → (s.begin t rest).isHeld t.core = false → (s.begin t rest).here.wait = .none →
    ((s.begin t rest).here.tin = true ∨ (s.begin t rest).here.faults = []) →
    (s.begin t rest).fetch t.core = (u, .ok (.instr i len)) → u.here.interlocked i = false →
    step s = exec i u) ∧
  (∀ (s t : State) (core : Nat) (va : Word) (a : Nat),
    Sparse.find (s.core core).icache va.toNat = none →
    s.translate core (s.core core).ctxTag .fetch va = (t, .ok a) → t.inWindow a 4 = false → t.memoryFate core a = .arrives →
    (s.fetchWord core va).2 = .ok (BitVec.ofNat 32 (readMem t.mem a 4))) ∧
  (∀ (w : Insn) (bs : List Byte), isLong w = false → decodeBytes (bytesOf 4 w.toNat ++ bs) = readSingle w) ∧
  (∀ (p w : Insn) (bs : List Byte), isLong p = true → decodeBytes (bytesOf 4 p.toNat ++ (bytesOf 4 w.toNat ++ bs)) = readPair p w) ∧
  (∀ (s : State) (t : Turn) (rest : List Turn), s.power = .on → s.dusk.contains t.core = false → s.journal.unsettled = false →
    s.qcbWrites = [] →
    (s.begin t rest).agenda = rest ∧ (s.begin t rest).cur = t ∧ (s.begin t rest).mem = s.mem ∧
    (s.begin t rest).here.pc = (s.core t.core).pc ∧ (s.begin t rest).here.regs = (s.core t.core).regs ∧
    (s.begin t rest).here.cycle = (s.core t.core).cycle + BitVec.ofNat 64 (1 + Config.extraCycles s.tick) ∧
    (s.begin t rest).launches = s.launches.map s.markPoint) ∧
  (∀ (s : State) (l : Launch), l.placed = true → l.pending = true → l.saved = false → l.stopped = false → l.point = none →
    s.overdue l = false → s.markPoint l = { l with point := s.checkpointPoint l })

/-- Unassigned encodings (R90). -/
def Obligations.UnassignedWordsTrap : Prop :=
  (∀ w, decodeWord w = none → readSingle w = .illegal (w.setWidth 64)) ∧
  (∀ p w, decodePair p w = none → readPair p w = .illegal ((p.setWidth 64 <<< 32) ||| w.setWidth 64)) ∧
  (∀ (s u : State) (t : Turn) (rest : List Turn) (v : Word),
    s.power = .on → s.nextTurn = (some t, rest) → t.act = .seq →
    (s.begin t rest).here.run = .running → (s.begin t rest).isHeld t.core = false → (s.begin t rest).here.wait = .none →
    ((s.begin t rest).here.tin = true ∨ (s.begin t rest).here.faults = []) →
    (s.begin t rest).fetch t.core = (u, .ok (.illegal v)) → step s = exec (.illegalOp v) u) ∧
  (∀ s v, TakesTrap (.illegalOp v) s 0x01 v)

/-- No instruction stops the machine. -/
def Obligations.EveryInstructionGoesOn : Prop := ∀ (i : Instr) (s : State), ∃ t, exec i s = .next t

/-- The canonical form of device memory is an invariant. -/
def Obligations.StepKeepsMemoryCanonical : Prop :=
  ∀ s t : State, MemoryCanonical s → step s = .next t → MemoryCanonical t

/-- The invariant holds at reset. -/
def Obligations.ResetMemoryCanonical : Prop :=
  MemoryCanonical State.reset ∧ ∀ s nbits w, MemoryCanonical s → MemoryCanonical (s.withFetchWord nbits w)

/-- Byte order and frames of memory and scratch (R5, R72). -/
def Clause.MemoryReadsWhatWasWritten : Prop :=
  (∀ m a n v, readMem (writeBytes m a (bytesOf n v)) a n = v % 256 ^ n) ∧
  (∀ m a n v i, i < n → readByte (writeBytes m a (bytesOf n v)) (a + i) = BitVec.ofNat 8 (v / 256 ^ i)) ∧
  (∀ m a x bs, (x < a ∨ a + bs.length ≤ x) → readByte (writeBytes m a bs) x = readByte m x) ∧
  (∀ c a n v, readScratch (writeScratch c a v n) a n = v % 256 ^ n) ∧
  (∀ c a n v b k, (b + k ≤ a ∨ a + n ≤ b) → readScratch (writeScratch c a v n) b k = readScratch c b k)

/-- The register files (R70, R101). -/
def Clause.ScalarsAndPredicatesHoldTheirValues : Prop :=
  ∀ c : Core,
    c.reg 0 = 0 ∧ c.pred 0 = true ∧ (∀ v, c.setReg 0 v = c) ∧ (∀ v, c.setPred 0 v = c) ∧
    (∀ d v, d ≠ 0 → (c.setReg d v).reg d = v) ∧ (∀ d r v, r ≠ d → (c.setReg d v).reg r = c.reg r) ∧
    (∀ d v, d ≠ 0 → (c.setPred d v).pred d = v) ∧ (∀ d p v, p ≠ d → (c.setPred d v).pred p = c.pred p) ∧
    (∀ d v p, (c.setReg d v).pred p = c.pred p) ∧ (∀ d v r, (c.setPred d v).reg r = c.reg r)

/-- Both parts. -/
def Obligations.ReadsGiveWhatWasWritten : Prop := Clause.MemoryReadsWhatWasWritten ∧ Clause.ScalarsAndPredicatesHoldTheirValues

/-- The frame of memory at issue: stores are performed later (R107, R108). -/
def Obligations.SequencerInstructionsLeaveMemoryAlone : Prop :=
  ∀ (i : Instr) (s t : State), encode i ≠ [] → s.here.tin = false → exec i s = .next t →
    (∀ d a p, i ≠ .jrnProp d a p ∧ i ≠ .jrnSub d a p ∧ i ≠ .jrnUpin d a p ∧ i ≠ .jrnRvt d a p) →
    ((∃ d a p, i = .launch d a p) → ∀ u ∈ s.supd, u.window = []) →
    ∀ a, readByte t.mem a = readByte s.mem a

/-- Bits 1:0 of the pc stay zero (R87). TVEC's are never written (R71). -/
def Obligations.SequencerPcStaysAligned : Prop :=
  ∀ (i : Instr) (s t : State), encode i ≠ [] → misaligned s.here.pc = false → misaligned s.here.tvec = false →
    exec i s = .next t → misaligned t.here.pc = false ∧ misaligned t.here.tvec = false

/-- Reset values that the spec states (R70–R71, R77, R141, R262, R287, R401, R440). -/
def Obligations.ResetLeaves : Prop :=
  ∀ core : Nat,
    (∀ r, (State.reset.core core).reg r = 0) ∧ (∀ p, (State.reset.core core).pred p = decide (p = 0)) ∧
    (State.reset.core core).loops = Loops.reset ∧ (State.reset.core core).tvec = 0 ∧ (State.reset.core core).epc = 0 ∧
    (State.reset.core core).tcause = 0 ∧ (State.reset.core core).tval = 0 ∧ (State.reset.core core).cycle = 0 ∧
    (State.reset.core core).tstat = 1 ∧
    (∀ k (h : k < 8), ((State.reset.core core).engines[k]).state = 0 ∧ ((State.reset.core core).engines[k]).result = 4) ∧
    (∀ k (h : k < 16), ((State.reset.core core).pools[k]).slots = []) ∧ (State.reset.core core).router.entries = [] ∧
    (∀ tag, (State.reset.ctx tag).state = .free) ∧ State.reset.hthr = 16 ∧
    State.reset.csr core 0x16 = 0x188E0

/-- The table of R103, with the immediates of R92 and R89. x is s[a], y is s[b] or the extended immediate. -/
def Obligations.IntegerResults : Prop :=
  (∀ d a b, Completes (.add d a b) 4 fun c => c.setReg d (c.reg a + c.reg b)) ∧
  (∀ d a b, Completes (.sub d a b) 4 fun c => c.setReg d (c.reg a - c.reg b)) ∧
  (∀ d a b, Completes (.mul d a b) 4 fun c => c.setReg d (BitVec.ofNat 64 ((c.reg a).toNat * (c.reg b).toNat))) ∧
  (∀ d a b, Completes (.mulh d a b) 4 fun c => c.setReg d (BitVec.ofInt 64 ((c.reg a).toInt * (c.reg b).toInt / 2 ^ 64))) ∧
  (∀ d a b, Completes (.mulhn d a b) 4 fun c => c.setReg d (BitVec.ofNat 64 ((c.reg a).toNat * (c.reg b).toNat / 2 ^ 64))) ∧
  (∀ d a b, Completes (.div d a b) 4 fun c =>
    ((c.tickBy (divisionCycles (c.reg a).toInt.natAbs - 1)).countBy 0x16 (divisionCycles (c.reg a).toInt.natAbs)).setReg d (divSigned (c.reg a) (c.reg b))) ∧
  (∀ d a b, Completes (.divn d a b) 4 fun c =>
    ((c.tickBy (divisionCycles (c.reg a).toNat - 1)).countBy 0x16 (divisionCycles (c.reg a).toNat)).setReg d (divNatural (c.reg a) (c.reg b))) ∧
  (∀ d a b, Completes (.rem d a b) 4 fun c =>
    ((c.tickBy (divisionCycles (c.reg a).toInt.natAbs - 1)).countBy 0x16 (divisionCycles (c.reg a).toInt.natAbs)).setReg d
      (if c.reg b = 0 then c.reg a else c.reg a - divSigned (c.reg a) (c.reg b) * c.reg b)) ∧
  (∀ d a b, Completes (.remn d a b) 4 fun c =>
    ((c.tickBy (divisionCycles (c.reg a).toNat - 1)).countBy 0x16 (divisionCycles (c.reg a).toNat)).setReg d
      (if c.reg b = 0 then c.reg a else c.reg a - divNatural (c.reg a) (c.reg b) * c.reg b)) ∧
  (∀ d a b, Completes (.and d a b) 4 fun c => c.setReg d (c.reg a &&& c.reg b)) ∧
  (∀ d a b, Completes (.or d a b) 4 fun c => c.setReg d (c.reg a ||| c.reg b)) ∧
  (∀ d a b, Completes (.xor d a b) 4 fun c => c.setReg d (c.reg a ^^^ c.reg b)) ∧
  (∀ d a b, Completes (.shl d a b) 4 fun c => c.setReg d (c.reg a <<< ((c.reg b).extractLsb' 0 6).toNat)) ∧
  (∀ d a b, Completes (.shr d a b) 4 fun c => c.setReg d (c.reg a >>> ((c.reg b).extractLsb' 0 6).toNat)) ∧
  (∀ d a b, Completes (.sha d a b) 4 fun c => c.setReg d ((c.reg a).sshiftRight ((c.reg b).extractLsb' 0 6).toNat)) ∧
  (∀ d a b, Completes (.min d a b) 4 fun c => c.setReg d (if (c.reg a).toInt ≤ (c.reg b).toInt then c.reg a else c.reg b)) ∧
  (∀ d a b, Completes (.max d a b) 4 fun c => c.setReg d (if (c.reg a).toInt ≤ (c.reg b).toInt then c.reg b else c.reg a)) ∧
  (∀ d a b, Completes (.minn d a b) 4 fun c => c.setReg d (if (c.reg a).toNat ≤ (c.reg b).toNat then c.reg a else c.reg b)) ∧
  (∀ d a b, Completes (.maxn d a b) 4 fun c => c.setReg d (if (c.reg a).toNat ≤ (c.reg b).toNat then c.reg b else c.reg a)) ∧
  (∀ d a, Completes (.clz d a) 4 fun c => c.setReg d (leadingZeros (c.reg a))) ∧
  (∀ d a, Completes (.popc d a) 4 fun c => c.setReg d (onesCount (c.reg a))) ∧
  (∀ d a b n, Completes (.sel d a b n) 4 fun c => c.setReg d (if c.pred n then c.reg a else c.reg b)) ∧
  (∀ d a i, Completes (.addi d a i) 4 fun c => c.setReg d (c.reg a + i.signExtend 64)) ∧
  (∀ d a i, Completes (.andi d a i) 4 fun c => c.setReg d (c.reg a &&& i.setWidth 64)) ∧
  (∀ d a i, Completes (.ori d a i) 4 fun c => c.setReg d (c.reg a ||| i.setWidth 64)) ∧
  (∀ d a i, Completes (.xori d a i) 4 fun c => c.setReg d (c.reg a ^^^ i.setWidth 64)) ∧
  (∀ d a n, Completes (.shli d a n) 4 fun c => c.setReg d (c.reg a <<< n.toNat)) ∧
  (∀ d a n, Completes (.shri d a n) 4 fun c => c.setReg d (c.reg a >>> n.toNat)) ∧
  (∀ d a n, Completes (.shai d a n) 4 fun c => c.setReg d ((c.reg a).sshiftRight n.toNat)) ∧
  (∀ d i, Completes (.lih d i) 4 fun c => c.setReg d (i.signExtend 64 <<< 16)) ∧
  (∀ d a i, Completes (.addiLong d a i) 8 fun c => c.setReg d (c.reg a + i.signExtend 64)) ∧
  (∀ d a i, Completes (.andiLong d a i) 8 fun c => c.setReg d (c.reg a &&& i.setWidth 64)) ∧
  (∀ d a i, Completes (.oriLong d a i) 8 fun c => c.setReg d (c.reg a ||| i.setWidth 64)) ∧
  (∀ d a i, Completes (.xoriLong d a i) 8 fun c => c.setReg d (c.reg a ^^^ i.setWidth 64))

/-- Quotients, remainders and bit counts (R103, R104). -/
def Clause.DivisionAndCountResults : Prop :=
  (∀ x, divSigned x 0 = BitVec.allOnes 64 ∧ divNatural x 0 = BitVec.allOnes 64 ∧ remSigned x 0 = x ∧ remNatural x 0 = x) ∧
  (∀ x y : Word, y ≠ 0 → ¬(x = 0x8000000000000000 ∧ y = -1) →
    (divSigned x y).toInt = Int.tdiv x.toInt y.toInt ∧ (remSigned x y).toInt = Int.tmod x.toInt y.toInt) ∧
  divSigned 0x8000000000000000 (-1) = 0x8000000000000000 ∧ remSigned 0x8000000000000000 (-1) = 0 ∧
  (∀ x y : Word, y ≠ 0 → (divNatural x y).toNat = x.toNat / y.toNat ∧ (remNatural x y).toNat = x.toNat % y.toNat) ∧
  divisionCycles 0 = 18 ∧ (∀ m k : Nat, 2 ^ k ≤ m → m < 2 ^ (k + 1) → divisionCycles m = 18 + (k + 1) / 4) ∧
  divSigned 7 (-2) = -3 ∧ remSigned 7 (-2) = 1 ∧ divNatural 7 (-2) = 0 ∧ remNatural 7 (-2) = 7 ∧
  divSigned (-7) 2 = -3 ∧ remSigned (-7) 2 = -1 ∧ divNatural (-7) 2 = 0x7FFFFFFFFFFFFFFC ∧ remNatural (-7) 2 = 1 ∧
  divSigned (-1) 3 = 0 ∧ remSigned (-1) 3 = -1 ∧ divNatural (-1) 3 = 0x5555555555555555 ∧ remNatural (-1) 3 = 0 ∧
  (∀ x : Word, x ≠ 0 → ∃ k : Nat, k < 64 ∧ leadingZeros x = BitVec.ofNat 64 (63 - k) ∧ x.getLsbD k = true ∧
    ∀ j, k < j → x.getLsbD j = false) ∧
  leadingZeros 0 = 64 ∧
  (∀ x : Word, ∃ n : Nat, n ≤ 64 ∧ onesCount x = BitVec.ofNat 64 n ∧ n = ((List.finRange 64).filter fun i => x[i]).length)

/-- R105, with the immediates of R89. -/
def Clause.CompareAndPredicateResults : Prop :=
  (∀ q a b, Completes (.cmp q a b 0) 4 fun c => c.setPred q (decide (c.reg a = c.reg b))) ∧
  (∀ q a b, Completes (.cmp q a b 1) 4 fun c => c.setPred q (decide (c.reg a ≠ c.reg b))) ∧
  (∀ q a b, Completes (.cmp q a b 2) 4 fun c => c.setPred q (decide ((c.reg a).toInt < (c.reg b).toInt))) ∧
  (∀ q a b, Completes (.cmp q a b 3) 4 fun c => c.setPred q (decide ((c.reg a).toInt ≤ (c.reg b).toInt))) ∧
  (∀ q a b, Completes (.cmp q a b 4) 4 fun c => c.setPred q (decide ((c.reg a).toNat < (c.reg b).toNat))) ∧
  (∀ q a b, Completes (.cmp q a b 5) 4 fun c => c.setPred q (decide ((c.reg a).toNat ≤ (c.reg b).toNat))) ∧
  (∀ q a i, Completes (.cmpi 0 q a i) 4 fun c => c.setPred q (decide (c.reg a = i.signExtend 64))) ∧
  (∀ q a i, Completes (.cmpi 1 q a i) 4 fun c => c.setPred q (decide (c.reg a ≠ i.signExtend 64))) ∧
  (∀ q a i, Completes (.cmpi 2 q a i) 4 fun c => c.setPred q (decide ((c.reg a).toInt < i.toInt))) ∧
  (∀ q a i, Completes (.cmpi 3 q a i) 4 fun c => c.setPred q (decide ((c.reg a).toInt ≤ i.toInt))) ∧
  (∀ q a i, Completes (.cmpiNatural 0 q a i) 4 fun c => c.setPred q (decide ((c.reg a).toNat < i.toNat))) ∧
  (∀ q a i, Completes (.cmpiNatural 1 q a i) 4 fun c => c.setPred q (decide ((c.reg a).toNat ≤ i.toNat))) ∧
  (∀ q a i, Completes (.cmpiLong 0 q a i) 8 fun c => c.setPred q (decide (c.reg a = i.signExtend 64))) ∧
  (∀ q a i, Completes (.cmpiLong 1 q a i) 8 fun c => c.setPred q (decide (c.reg a ≠ i.signExtend 64))) ∧
  (∀ q a i, Completes (.cmpiLong 2 q a i) 8 fun c => c.setPred q (decide ((c.reg a).toInt < i.toInt))) ∧
  (∀ q a i, Completes (.cmpiLong 3 q a i) 8 fun c => c.setPred q (decide ((c.reg a).toInt ≤ i.toInt))) ∧
  (∀ q a i, Completes (.cmpiNaturalLong 0 q a i) 8 fun c => c.setPred q (decide ((c.reg a).toNat < i.toNat))) ∧
  (∀ q a i, Completes (.cmpiNaturalLong 1 q a i) 8 fun c => c.setPred q (decide ((c.reg a).toNat ≤ i.toNat))) ∧
  (∀ d a b, Completes (.pand d a b) 4 fun c => c.setPred d (c.pred a && c.pred b)) ∧
  (∀ d a b, Completes (.por d a b) 4 fun c => c.setPred d (c.pred a || c.pred b)) ∧
  (∀ d a, Completes (.pnot d a) 4 fun c => c.setPred d (!c.pred a))

/-- Both parts. -/
def Obligations.DivisionCompareAndPredicateResults : Prop := Clause.DivisionAndCountResults ∧ Clause.CompareAndPredicateResults

/-- R112, R87, R80. -/
def Obligations.BranchesAndJumps : Prop :=
  let goes (i : Instr) (target : Core → Word) (f : Core → Core) (when : Core → Prop) : Prop := ∀ s : State, when s.here →
    (misaligned (target s.here) = false → exec i s = .next (s.on fun c => { ((f c).count 0x02).count 0x04 with pc := target c })) ∧
    (misaligned (target s.here) = true → TakesTrap i s 0x02 (target s.here))
  (∀ p n i, goes (.b p n i) (fun c => c.pc + 4 * i.signExtend 64) id fun c => c.pred p ≠ (n == 1#1)) ∧
  (∀ p n i (s : State), s.here.pred p = (n == 1#1) → misaligned (s.here.finish 4).pc = false →
    exec (.b p n i) s = .next (s.on fun c => c.finish 4)) ∧
  (∀ d i, goes (.jal d i) (fun c => c.pc + 4 * i.signExtend 64) (fun c => c.setReg d (c.pc + 4)) fun _ => True) ∧
  (∀ d i, goes (.jalLong d i) (fun c => c.pc + 4 * i.signExtend 64) (fun c => c.setReg d (c.pc + 8)) fun _ => True) ∧
  (∀ a, goes (.br a) (fun c => c.reg a) id fun _ => True) ∧
  (∀ d a, goes (.jr d a) (fun c => c.reg a) (fun c => c.setReg d (c.pc + 4)) fun _ => True)

/-- R114, R115 and the test of R80. -/
def Obligations.HardwareLoops : Prop :=
  let loops (i : Instr) (n : BitVec 2) (o : BitVec 12) (count : Core → BitVec 32) : Prop := ∀ s : State,
    let c := s.here
    let ls := if o = 0 then c.loops.pls[n.toNat].getD c.loops.ls[n.toNat] else c.pc + 4
    let le := if o = 0 then c.loops.ple[n.toNat].getD c.loops.le[n.toNat] else c.pc + 4 * o.setWidth 64
    let aimed : Loops := { c.loops with
      ls := c.loops.ls.set n.toNat ls, le := c.loops.le.set n.toNat le, pls := c.loops.pls.set n.toNat none, ple := c.loops.ple.set n.toNat none }
    let on_ : Loops := { aimed with lc := aimed.lc.set n.toNat (count c), active := n :: aimed.active.filter (· != n) }
    let off_ : Loops := { aimed with lc := aimed.lc.set n.toNat 0, active := aimed.active.filter (· != n) }
    (count c ≠ 0 → misaligned (({ c with loops := on_ } : Core).finish 4).pc = false →
      exec i s = .next (s.on fun k => ({ k with loops := on_ } : Core).finish 4)) ∧
    (count c = 0 → misaligned (le + 4) = false →
      exec i s = .next (s.on fun k => { (({ k with loops := off_ } : Core).count 0x02).count 0x04 with pc := le + 4 })) ∧
    (count c = 0 → misaligned (le + 4) = true → TakesTrap i s 0x02 (le + 4))
  (∀ n c o, loops (.loopImm n c o) n o fun _ => c.setWidth 32) ∧
  (∀ n x o, loops (.loopReg n x o) n o fun c => (c.reg x).extractLsb' 0 32) ∧
  (∀ n c o, loops (.loopsImm n c o) n o fun _ => BitVec.ofNat 32 ((c.toNat + 15) / 16)) ∧
  (∀ n x o, loops (.loopsReg n x o) n o fun c => BitVec.ofNat 32 ((((c.reg x).extractLsb' 0 32).toNat + 15) / 16)) ∧
  (∀ n (s : State), ¬n ∈ s.here.loops.active → misaligned (s.here.finish 4).pc = false →
    exec (.lbrk n) s = .next (s.on fun c => c.finish 4)) ∧
  (∀ n (s : State) (before after : List (BitVec 2)), s.here.loops.active = before ++ n :: after → ¬n ∈ before →
    misaligned (s.here.loops.le[n.toNat] + 4) = false →
    ∃ l : Loops, exec (.lbrk n) s = .next (s.on fun c => { (({ c with loops := l } : Core).count 0x02).count 0x04 with
        pc := c.loops.le[n.toNat] + 4 }) ∧
      l.ls = s.here.loops.ls ∧ l.le = s.here.loops.le ∧
      (∀ m : BitVec 2, m ∈ n :: before →
        ¬m ∈ l.active ∧ l.lc[m.toNat] = 0 ∧ l.pls[m.toNat] = none ∧ l.ple[m.toNat] = none) ∧
      (∀ m : BitVec 2, ¬m ∈ n :: before →
        (m ∈ l.active ↔ m ∈ after) ∧ l.lc[m.toNat] = s.here.loops.lc[m.toNat] ∧ l.pls[m.toNat] = s.here.loops.pls[m.toNat] ∧
        l.ple[m.toNat] = s.here.loops.ple[m.toNat])) ∧
  (∀ (c : Core) (n : BitVec 2) (ns : List (BitVec 2)) (len : Nat), c.tin = false → c.loops.active = n :: ns → c.loops.le[n.toNat] = c.pc →
    1 < (c.loops.lc[n.toNat]).toNat →
    (c.finish len).pc = c.loops.ls[n.toNat] ∧ (c.finish len).loops.active = c.loops.active ∧
    (c.finish len).loops.lc[n.toNat] = c.loops.lc[n.toNat] - 1) ∧
  (∀ (c : Core) (n : BitVec 2) (ns : List (BitVec 2)) (len : Nat), c.tin = false → c.loops.active = n :: ns → ¬n ∈ ns →
    c.loops.le[n.toNat] = c.pc → (c.loops.lc[n.toNat]).toNat ≤ 1 →
    c.finish len = Core.finish { c with loops := { c.loops with lc := c.loops.lc.set n.toNat 0, active := ns } } len) ∧
  (∀ (c : Core) (len : Nat), (c.tin = true ∨ ∀ n ∈ c.loops.active, c.loops.le[n.toNat] ≠ c.pc) →
    (c.finish len).pc = c.pc + BitVec.ofNat 64 len ∧ (c.finish len).loops = c.loops)

/-- Guarded commands (R98, R101). -/
def Obligations.FalsePredicateDoesNothing : Prop :=
  ∀ (i : Instr) (p : PReg) (s : State), predicateOf i = some p → s.here.pred p = false → CompletesIn i s s 4 id

/-- R106–R108, R110, R111, R326 and the long forms of R89. -/
def Obligations.MemoryAccessesIssue : Prop :=
  let loads (i : Instr) (signed : Bool) (d a : SReg) (w : BitVec 2) (disp : Word) (len : Nat) : Prop :=
    DeviceAccessIssue i (fun c => c.reg a + disp) (2 ^ w.toNat) .read fun s u p =>
      CompletesIn i s u len (withAccess 0x0D (.load signed) d p (2 ^ w.toNat) 0 0)
  let stores (i : Instr) (d a : SReg) (w : BitVec 2) (disp : Word) (len : Nat) : Prop :=
    DeviceAccessIssue i (fun c => c.reg a + disp) (2 ^ w.toNat) .write fun s u p =>
      CompletesIn i s u len fun c => withAccess 0x0E .store 0 p (2 ^ w.toNat) (c.reg d) 0 c
  let amo (i : Instr) (op : AmoOp) (d a b : SReg) (size : Nat) : Prop :=
    DeviceAccessIssue i (fun c => c.reg a) size .write fun s u p =>
      let x := BitVec.ofNat 64 ((u.here.reg b).toNat % 2 ^ (8 * size))
      let y := BitVec.ofNat 64 ((u.here.reg d).toNat % 2 ^ (8 * size))
      let r : Update := { phys := p, size := size, op := op, value := x, cmp := y, tag := u.here.ctxTag, amo := true, folded := [],
                          part := { core := u.cur.core, unit := 8, id := u.here.nextId, ord := true, seq := u.seqPlain u.cur.core } }
      (u.variant = .y7 → CompletesIn i s (u.requestUpdate r) 4 (withAccess 0x0F (.amo op) d p size x y)) ∧
      (u.variant = .y7l → CompletesIn i s u 4 fun c => c.setReg d 0x8000000000000000)
  (∀ d a w i, loads (.ld d a w i) true d a w (i.signExtend 64) 4) ∧
  (∀ d a w i, loads (.ldn d a w i) false d a w (i.signExtend 64) 4) ∧
  (∀ d a w i, loads (.ldLong d a 0 w i) true d a w (i.signExtend 64) 8) ∧
  (∀ d a w i, loads (.ldLong d a 1 w i) false d a w (i.signExtend 64) 8) ∧
  (∀ d a w i, stores (.st d a w i) d a w (i.signExtend 64) 4) ∧
  (∀ d a w i, stores (.stLong d a w i) d a w (i.signExtend 64) 8) ∧
  (∀ d a b, amo (.amoAdd d a b 0) .add d a b 4 ∧ amo (.amoAdd d a b 1) .add d a b 8) ∧
  (∀ d a b, amo (.amoFadd d a b) .fadd d a b 4) ∧ (∀ d a b, amo (.amoBadd d a b) .badd d a b 4) ∧
  (∀ d a b, amo (.amoMin d a b 0) .min d a b 4 ∧ amo (.amoMin d a b 1) .min d a b 8) ∧
  (∀ d a b, amo (.amoMax d a b 0) .max d a b 4 ∧ amo (.amoMax d a b 1) .max d a b 8) ∧
  (∀ d a b, amo (.amoMinn d a b 0) .minn d a b 4 ∧ amo (.amoMinn d a b 1) .minn d a b 8) ∧
  (∀ d a b, amo (.amoMaxn d a b 0) .maxn d a b 4 ∧ amo (.amoMaxn d a b 1) .maxn d a b 8) ∧
  (∀ d a b, amo (.amoAnd d a b 0) .and d a b 4 ∧ amo (.amoAnd d a b 1) .and d a b 8) ∧
  (∀ d a b, amo (.amoOr d a b 0) .or d a b 4 ∧ amo (.amoOr d a b 1) .or d a b 8) ∧
  (∀ d a b, amo (.amoXor d a b 0) .xor d a b 4 ∧ amo (.amoXor d a b 1) .xor d a b 8) ∧
  (∀ d a b, amo (.amoSwap d a b 0) .swap d a b 4 ∧ amo (.amoSwap d a b 1) .swap d a b 8) ∧
  (∀ d a b, amo (.amoCas d a b 0) .cas d a b 4 ∧ amo (.amoCas d a b 1) .cas d a b 8) ∧
  (∀ d a b, amo (.amoIncw d a b 0) .incw d a b 4 ∧ amo (.amoIncw d a b 1) .incw d a b 8)

/-- R109. -/
def Obligations.ScratchAccesses : Prop :=
  let accesses (i : Instr) (a : SReg) (w : BitVec 2) (disp : Word) (len : Nat) (f : Nat → Core → Core) : Prop := ∀ s : State,
    let addr := s.here.reg a + disp
    (addr.toNat % 2 ^ w.toNat ≠ 0 → TakesTrap i s 0x02 addr) ∧
    (addr.toNat % 2 ^ w.toNat = 0 → 0x10000 < addr.toNat + 2 ^ w.toNat → TakesTrap i s 0x09 addr) ∧
    (addr.toNat % 2 ^ w.toNat = 0 → addr.toNat + 2 ^ w.toNat ≤ 0x10000 → CompletesIn i s s len (f addr.toNat))
  let loaded (d : SReg) (w : BitVec 2) (addr : Nat) (c : Core) : Core :=
    c.setReg d ((BitVec.ofNat (8 * 2 ^ w.toNat) (readScratch c addr (2 ^ w.toNat))).signExtend 64)
  let stored (d : SReg) (w : BitVec 2) (addr : Nat) (c : Core) : Core := writeScratch c addr (c.reg d).toNat (2 ^ w.toNat)
  (∀ d a w i, accesses (.ldl d a w i) a w (i.signExtend 64) 4 (loaded d w)) ∧
  (∀ d a w i, accesses (.ldlStlLong d a 0 w i) a w (i.signExtend 64) 8 (loaded d w)) ∧
  (∀ d a w i, accesses (.stl d a w i) a w (i.signExtend 64) 4 (stored d w)) ∧
  (∀ d a w i, accesses (.ldlStlLong d a 1 w i) a w (i.signExtend 64) 8 (stored d w))

/-- The later performance of accesses (R107, R108); an access that a link without a permit drops is recorded and tried again at another turn (R18; log
entry 59). -/
def Clause.LoadsReturnAndStoresArePerformed : Prop :=
  (∀ (s : State) (a : Access) (signed : Bool), s.here.accesses[s.cur.n]? = some a → a.kind = .load signed →
    blockedByEarlier s.here.accesses s.cur.n a = false → s.inWindow a.phys a.size = false →
    (s.memoryFate s.cur.core a.phys = .arrives →
      exec .loadReply s = .next (s.on fun c => ({ c with accesses := c.accesses.eraseIdx s.cur.n } : Core).setReg a.d
        (if signed then (BitVec.ofNat (8 * a.size) (readMem s.mem a.phys a.size)).signExtend 64
         else (BitVec.ofNat (8 * a.size) (readMem s.mem a.phys a.size)).setWidth 64))) ∧
    (∀ c dir, s.memoryFate s.cur.core a.phys = .denied c dir → exec .loadReply s = .next (s.emit 0x26 s.here.ctxTag 0 0 0 0 0))) ∧
  (∀ (s : State) (a : Access) (cs : List Chain), s.here.accesses[s.cur.n]? = some a → a.kind = .store →
    blockedByEarlier s.here.accesses s.cur.n a = false → s.inWindow a.phys a.size = false → s.memoryFate s.cur.core a.phys = .arrives →
    chainStepOf s.chains (stackOf a.phys) (s.seqPlain s.cur.core) = some cs →
    ∃ t, exec .storeCompletion s = .next t ∧
      t = { s.on (fun c => { c with accesses := c.accesses.eraseIdx s.cur.n }) with mem := t.mem, chains := cs } ∧
      readMem t.mem a.phys a.size = a.value.toNat % 256 ^ a.size ∧
      ∀ x, (x < a.phys ∨ a.phys + a.size ≤ x) → readByte t.mem x = readByte s.mem x)

/-- R111, R326–R330. The sums of FP32 and BF16 lanes are those of the element adders, rounded RNE; a unit's order is that of log entry 44. -/
def Clause.AtomicsAreApplied : Prop :=
  (∀ (s : State) (u : Update) (n : Nat), s.cur.flag = false → (s.unitOf s.cur.unit).granted s.chains s.cur.unit = some n →
    (s.unitOf s.cur.unit).waiting[n]? = some u →
    exec .supdWindowGrant s = .next (s.setUnit s.cur.unit { s.unitOf s.cur.unit with
      window := (s.unitOf s.cur.unit).window ++ [u], waiting := (s.unitOf s.cur.unit).waiting.eraseIdx n })) ∧
  (∀ (w : SupdUnit) (cs : List Chain) (die : Nat) (u : Update) (us : List Update), w.waiting = u :: us → w.window.length < 240 →
    w.granted cs die = some 0) ∧
  (∀ (w : SupdUnit) (cs : List Chain) (die : Nat), 256 ≤ w.window.length → w.granted cs die = none) ∧
  (∀ (s : State) (u : Update), s.cur.flag = true → (s.unitOf s.cur.unit).coming[s.cur.n]? = some u →
    s.mayReach (s.unitOf s.cur.unit) s.cur.n u = true → s.memoryFate u.part.core u.phys = .arrives →
    exec .supdWindowGrant s = .next (s.setUnit s.cur.unit { s.unitOf s.cur.unit with
      waiting := (s.unitOf s.cur.unit).waiting ++ [u], coming := (s.unitOf s.cur.unit).coming.eraseIdx s.cur.n })) ∧
  (∀ (s : State) (u : Update), s.cur.flag = false → (s.unitOf s.cur.unit).window[s.cur.n]? = some u → s.owned u.tag u.phys = true →
    Update.waitsIn s.chains s.cur.unit (s.unitOf s.cur.unit).window s.cur.n u = false → s.cur.unit < 8 →
    ∃ t, exec .supdApply s = .next t ∧ (t.unitOf s.cur.unit).window = (s.unitOf s.cur.unit).window.eraseIdx s.cur.n ∧
      readMem t.mem u.phys u.size =
        amoResult u.op (8 * u.size) (readMem s.mem u.phys u.size) u.value.toNat u.cmp.toNat % 256 ^ u.size ∧
      (∀ x, (x < u.phys ∨ u.phys + u.size ≤ x) → readByte t.mem x = readByte s.mem x) ∧
      (∀ p ∈ u.parts, p.unit = 8 → ∀ a ∈ (s.core p.core).accesses, a.id = p.id →
        { a with reply := some (if u.size = 4 then (BitVec.ofNat 32 (readMem s.mem u.phys u.size)).signExtend 64
                                else BitVec.ofNat 64 (readMem s.mem u.phys u.size)) } ∈ (t.core p.core).accesses) ∧
      ∀ c r, (t.core c).reg r = (s.core c).reg r) ∧
  (∀ (s : State) (w : SupdUnit), s.cur.flag = true → (s.unitOf s.cur.unit).merge s.chains s.cur.unit s.cur.n s.cur.m = some w →
    exec .supdApply s = .next (s.setUnit s.cur.unit w)) ∧
  (∀ (s : State) (a : Access) (op : AmoOp) (v : Word), s.here.accesses[s.cur.n]? = some a → a.kind = .amo op → a.reply = some v →
    exec .amoReply s = .next (s.on fun c => ({ c with accesses := c.accesses.eraseIdx s.cur.n } : Core).setReg a.d v)) ∧
  (∀ n old x c : Nat, old < 2 ^ n → x < 2 ^ n →
    amoResult .add n old x c = (old + x) % 2 ^ n ∧ amoResult .minn n old x c = Nat.min old x ∧ amoResult .maxn n old x c = Nat.max old x ∧
    amoResult .and n old x c = old &&& x ∧ amoResult .or n old x c = old ||| x ∧ amoResult .xor n old x c = old ^^^ x ∧
    amoResult .swap n old x c = x ∧ amoResult .cas n old x c = (if old = c then x else old) ∧
    amoResult .incw n old x c = (if old < x then old + 1 else 0) ∧
    (BitVec.ofNat n (amoResult .min n old x c)).toInt = min (BitVec.ofNat n old).toInt (BitVec.ofNat n x).toInt ∧
    (BitVec.ofNat n (amoResult .max n old x c)).toInt = max (BitVec.ofNat n old).toInt (BitVec.ofNat n x).toInt) ∧
  (∀ old x c : Nat, amoResult .fadd 32 old x c = (fadd fp32 .rne (decodeFloat fp32 old) (decodeFloat fp32 x)).1) ∧
  (∀ lo hi x y c : Nat, lo < 65536 → x < 65536 → amoResult .badd 32 (lo + 65536 * hi) (x + 65536 * y) c =
    (fadd bf16 .rne (decodeFloat bf16 lo) (decodeFloat bf16 x)).1 + 65536 * (fadd bf16 .rne (decodeFloat bf16 hi) (decodeFloat bf16 y)).1)

/-- Both parts. -/
def Obligations.AccessesArePerformed : Prop := Clause.LoadsReturnAndStoresArePerformed ∧ Clause.AtomicsAreApplied

/-- R82, R83, R116, R117, R119. -/
def Obligations.BarrierArrivals : Prop :=
  let unmapped (i : Instr) (a : SReg) (p : PReg) : Prop := ∀ s : State, s.here.pred p = true → s.handleOf (s.here.reg a) = none →
    TakesTrap i s 0x07 (s.here.reg a)
  let arrived (b : Barrier) : Barrier := if b.a + 1 = b.n then { b with a := 0, p := b.p + 1 } else { b with a := b.a + 1 }
  (∀ d a b p, unmapped (.barArv d a p) a p ∧ unmapped (.barWt d a b p) a p ∧ unmapped (.barSyn d a p) a p ∧ unmapped (.barPhs d a p) a p) ∧
  (∀ (s : State) (h : Word), s.handleOf h = none ↔ 1024 ≤ h.toNat ∨ ((s.ctx s.here.ctxTag).handle h.toNat).valid = false ∨
    ((s.core ((s.ctx s.here.ctxTag).handle h.toNat).core.toNat).bar ((s.ctx s.here.ctxTag).handle h.toNat).bar.toNat).n = 0) ∧
  (∀ d a p (s : State) (bar : Nat), s.here.pred p = true → s.handleOf (s.here.reg a) = some (s.cur.core, bar) →
    s.arrivesNow s.cur.core bar = true →
    CompletesIn (.barArv d a p) s s 4 fun c =>
      ({ c with bars := Sparse.put c.bars bar (arrived (c.bar bar)) } : Core).setReg d (((c.bar bar).p + 1).setWidth 64)) ∧
  (∀ d a p (s : State) (core bar : Nat), s.here.pred p = true → s.handleOf (s.here.reg a) = some (core, bar) →
    s.arrivesNow core bar = false →
    CompletesIn (.barArv d a p) s (s.send s.cur.core core (.arrive bar s.here.outstanding d false s.here.nextId)) 4 fun c =>
      { c with nextId := c.nextId + 1, awaited := d :: c.awaited }) ∧
  (∀ (s : State) (src dst bar id : Nat) (after : List Nat) (d : SReg) (tag : BitVec 6), s.arriving s.cur.n = some ⟨src, dst, .arrive bar after d false id, tag⟩ →
    (∀ i ∈ after, ¬i ∈ (s.core src).outstanding) → s.orderedBehind s.cur.n src dst bar = false → src ≠ dst →
    exec .barrierArrival s = .next (((s.takePacket s.cur.n).onCore dst fun c =>
      { c with bars := Sparse.put c.bars bar (arrived (c.bar bar)) }).send dst src
        (.barrierReply d ((((s.core dst).bar bar).p + 1).setWidth 64) id))) ∧
  (∀ (s : State) (core bar id : Nat) (after : List Nat) (d : SReg) (tag : BitVec 6),
    s.arriving s.cur.n = some ⟨core, core, .arrive bar after d false id, tag⟩ →
    (∀ i ∈ after, ¬i ∈ (s.core core).outstanding) → s.orderedBehind s.cur.n core core bar = false →
    exec .barrierArrival s = .next (((s.takePacket s.cur.n).onCore core fun c =>
      { c with bars := Sparse.put c.bars bar (arrived (c.bar bar)) }).onCore core fun c =>
        ({ c with awaited := c.awaited.erase d } : Core).setReg d ((((s.core core).bar bar).p + 1).setWidth 64))) ∧
  (∀ (s : State) (src dst bar id : Nat) (after : List Nat) (d : SReg) (tag : BitVec 6), s.arriving s.cur.n = some ⟨src, dst, .arrive bar after d true id, tag⟩ →
    (∀ i ∈ after, ¬i ∈ (s.core src).outstanding) → s.orderedBehind s.cur.n src dst bar = false → (s.core src).wait = .barrierCommand id →
    exec .barrierArrival s = .next (((s.takePacket s.cur.n).onCore dst fun c =>
      { c with bars := Sparse.put c.bars bar (arrived (c.bar bar)) }).onCore src fun c =>
        { c with wait := .barrier dst bar (((s.core dst).bar bar).p + 1) d true })) ∧
  (∀ (s : State) (src dst id : Nat) (d : SReg) (v : Word) (tag : BitVec 6), s.arriving s.cur.n = some ⟨src, dst, .barrierReply d v id, tag⟩ →
    exec .barrierCommandReply s = .next ((s.takePacket s.cur.n).onCore dst fun c =>
      ({ c with awaited := c.awaited.erase d } : Core).setReg d v)) ∧
  (∀ (b : Barrier) (k : Nat), 0 < k → (b.a.toNat + k < b.n.toNat) →
    (Nat.repeat arrived k b).p = b.p ∧ (Nat.repeat arrived k b).a = b.a + BitVec.ofNat 16 k)

/-- R84, R117–R119. -/
def Obligations.BarrierWaits : Prop :=
  (∀ d a b p (s : State) (bar : Nat), s.here.pred p = true → s.handleOf (s.here.reg a) = some (s.cur.core, bar) →
    s.arrivalPending s.cur.core bar = false →
    let t : BitVec 16 := (s.here.reg b).extractLsb' 0 16
    let δ := (t - (s.here.bar bar).p).toNat
    let idle (c : Core) : Core := { c with wait := .none }
    (δ = 0 → CompletesIn (.barWt d a b p) s s 4 fun c => (idle c).setReg d 0) ∧
    (δ = 1 → exec (.barWt d a b p) s = .next (s.on fun c => { c with wait := .barrier s.cur.core bar t d false })) ∧
    (2 ≤ δ → δ < 256 → s.here.tin = false →
      exec (.barWt d a b p) s = .next (s.on fun c => c.enterTrap c.pc (trapCause 0x08 0 0 false) (t.setWidth 64))) ∧
    (256 ≤ δ → CompletesIn (.barWt d a b p) s s 4 fun c => (idle c).setReg d (BitVec.ofNat 64 (65536 - δ)))) ∧
  (∀ d a b p (s : State) (core bar : Nat), s.here.pred p = true → s.handleOf (s.here.reg a) = some (core, bar) →
    s.arrivalPending core bar = true → exec (.barWt d a b p) s = .next (s.on fun c => c.count 0x06)) ∧
  (∀ (s : State) (dst bar id : Nat) (tk : BitVec 16) (d : SReg) (tag : BitVec 6),
    s.arriving s.cur.n = some ⟨s.cur.core, dst, .barrierQuery bar (some tk) d id, tag⟩ → s.orderedBehind s.cur.n s.cur.core dst bar = false →
    s.here.wait = .barrierCommand id →
    let δ := (tk - ((s.core dst).bar bar).p).toNat
    let t := s.takePacket s.cur.n
    let idle (c : Core) : Core := { c with wait := .none }
    (δ = 0 → CompletesIn .barrierCommandReply s t 4 fun c => (idle c).setReg d 0) ∧
    (δ = 1 → exec .barrierCommandReply s = .next (t.on fun c => { c with wait := .barrier dst bar tk d false })) ∧
    (2 ≤ δ → δ < 256 → s.here.tin = false →
      exec .barrierCommandReply s = .next (t.on fun c => c.enterTrap c.pc (trapCause 0x08 0 0 false) (tk.setWidth 64))) ∧
    (256 ≤ δ → CompletesIn .barrierCommandReply s t 4 fun c => (idle c).setReg d (BitVec.ofNat 64 (65536 - δ)))) ∧
  (∀ d a p (s : State) (core bar : Nat), s.here.pred p = true → s.handleOf (s.here.reg a) = some (core, bar) →
    (core = s.cur.core → CompletesIn (.barPhs d a p) s s 4 fun c => c.setReg d ((c.bar bar).p.setWidth 64)) ∧
    (core ≠ s.cur.core → CompletesIn (.barPhs d a p) s (s.send s.cur.core core (.barrierQuery bar none d s.here.nextId)) 4 fun c =>
      { c with nextId := c.nextId + 1, awaited := d :: c.awaited })) ∧
  (∀ (s : State) (src dst bar id : Nat) (d : SReg) (tag : BitVec 6), s.arriving s.cur.n = some ⟨src, dst, .barrierQuery bar none d id, tag⟩ →
    exec .barrierCommandReply s = .next ((s.takePacket s.cur.n).onCore src fun c =>
      ({ c with awaited := c.awaited.erase d } : Core).setReg d (((s.core dst).bar bar).p.setWidth 64))) ∧
  (∀ d a b p (s : State) (core bar : Nat), s.here.pred p = true → s.handleOf (s.here.reg a) = some (core, bar) → core ≠ s.cur.core →
    s.arrivalPending core bar = false →
    exec (.barWt d a b p) s = .next ((s.send s.cur.core core (.barrierQuery bar (some ((s.here.reg b).setWidth 16)) d s.here.nextId)).on
      fun c => { c with nextId := c.nextId + 1, wait := .barrierCommand s.here.nextId })) ∧
  (∀ d a p (s : State) (bar : Nat), s.here.pred p = true → s.handleOf (s.here.reg a) = some (s.cur.core, bar) →
    s.arrivesNow s.cur.core bar = true → (s.here.bar bar).a + 1 ≠ (s.here.bar bar).n → misaligned (s.here.finish 4).pc = false →
    exec (.barSyn d a p) s = .next (s.on fun c =>
      { c with bars := Sparse.put c.bars bar { c.bar bar with a := (c.bar bar).a + 1 },
               wait := .barrier s.cur.core bar ((c.bar bar).p + 1) d true })) ∧
  (∀ d a p (s : State) (bar : Nat), s.here.pred p = true → s.handleOf (s.here.reg a) = some (s.cur.core, bar) →
    s.arrivesNow s.cur.core bar = true → (s.here.bar bar).a + 1 = (s.here.bar bar).n →
    CompletesIn (.barSyn d a p) s s 4 fun c =>
      ({ c with bars := Sparse.put c.bars bar { c.bar bar with a := 0, p := (c.bar bar).p + 1 }, wait := .none } : Core).setReg d 0) ∧
  (∀ d a p (s : State) (core bar : Nat), s.here.pred p = true → s.handleOf (s.here.reg a) = some (core, bar) →
    s.arrivesNow core bar = false → misaligned (s.here.finish 4).pc = false →
    exec (.barSyn d a p) s = .next ((s.send s.cur.core core (.arrive bar s.here.outstanding d true s.here.nextId)).on fun c =>
      { c with nextId := c.nextId + 1, wait := .barrierCommand s.here.nextId })) ∧
  (∀ (s : State) (core bar : Nat) (t : BitVec 16) (d : SReg) (syn : Bool), s.here.wait = .barrier core bar t d syn →
    (((s.core core).bar bar).p = t ∨ 256 ≤ (t - ((s.core core).bar bar).p).toNat) →
    CompletesIn .barrierWaitRelease s s 4 fun c => ({ c with wait := .none } : Core).setReg d 0) ∧
  (∀ d a b p (s : State), s.here.pred p = true → s.here.lvl = false → s.here.tin = false →
    ∃ v, exec (.barMap d a b p) s = .next (s.on fun c => c.enterTrap c.pc (trapCause 0x03 0 0 false) v)) ∧
  (∀ d a b p (s : State), s.here.pred p = true → s.here.lvl = true →
    let h := (s.here.reg a).toNat
    let v := s.here.reg b
    let e : Handle := ⟨v.getLsbD 63, v.extractLsb' 32 2, v.extractLsb' 23 9, v.extractLsb' 16 7, v.extractLsb' 0 16⟩
    let bad := v.extractLsb' 34 29 ≠ 0 ∨ e.scope = 3 ∨ (e.valid = true ∧ e.n = 0)
    let mapped := s.onCtx s.here.ctxTag fun c => { c with handles := Sparse.put c.handles h e }
    (1024 ≤ h → CompletesIn (.barMap d a b p) s s 4 fun c => c.setReg d 2) ∧
    (h < 1024 → bad → CompletesIn (.barMap d a b p) s s 4 fun c => c.setReg d 3) ∧
    (h < 1024 → ¬bad → s.inPartition s.cur.core e.core.toNat = false → CompletesIn (.barMap d a b p) s s 4 fun c => c.setReg d 4) ∧
    (h < 1024 → ¬bad → s.inPartition s.cur.core e.core.toNat = true → e.valid = false →
      CompletesIn (.barMap d a b p) s mapped 4 fun c => c.setReg d 0) ∧
    (h < 1024 → ¬bad → s.inPartition s.cur.core e.core.toNat = true → e.valid = true →
      CompletesIn (.barMap d a b p) s (mapped.onCore e.core.toNat fun c =>
        { c with bars := Sparse.put c.bars e.bar.toNat { c.bar e.bar.toNat with n := e.n, a := 0 } }) 4 fun c => c.setReg d 0))

/-- The access table of R71 and the checks of R132. -/
def Obligations.ControlRegisterAccess : Prop :=
  let listed (k : Nat) : Prop := k ≤ 4 ∨ (0x10 ≤ k ∧ k ≤ 0x16) ∨ k = 0x18 ∨ k = 0x19 ∨ (0x20 ≤ k ∧ k ≤ 0x23) ∨ (0x30 ≤ k ∧ k ≤ 0x3B) ∨ k = 0x40 ∨
    (0x50 ≤ k ∧ k ≤ 0x5F)
  let firmwareOnly (k : Nat) : Prop := 1 ≤ k ∧ k ≤ 4
  let readOnly (k : Nat) : Prop := k = 2 ∨ (0x10 ≤ k ∧ k ≤ 0x16) ∨ k = 0x18 ∨ k = 0x19
  let word (d a : SReg) (op : BitVec 4) (n : BitVec 12) : Word := ((57#6 ++ (d ++ (a ++ (op ++ n)))) : BitVec 32).setWidth 64
  (∀ d a n (s : State), ¬listed n.toNat →
    TakesTrap (.csrr d n) s 0x01 (word d 0 0 n) ∧ TakesTrap (.csrw a n) s 0x01 (word 0 a 1 n) ∧ TakesTrap (.csrs a n) s 0x01 (word 0 a 2 n)) ∧
  (∀ d a n (s : State), s.here.lvl = false → firmwareOnly n.toNat →
    TakesTrap (.csrr d n) s 0x03 (n.setWidth 64) ∧ TakesTrap (.csrw a n) s 0x03 (n.setWidth 64) ∧
    TakesTrap (.csrs a n) s 0x03 (n.setWidth 64)) ∧
  (∀ a n (s : State), (readOnly n.toNat ∨ (n = 0 ∧ s.here.lvl = false)) →
    TakesTrap (.csrw a n) s 0x03 (n.setWidth 64) ∧ TakesTrap (.csrs a n) s 0x03 (n.setWidth 64)) ∧
  (∀ d n (s : State), listed n.toNat → (s.here.lvl = true ∨ ¬firmwareOnly n.toNat) →
    CompletesIn (.csrr d n) s s 4 fun c => c.setReg d (s.csr s.cur.core n))

/-- R71, R77, R81, R85. -/
def Clause.ControlRegisterReads : Prop :=
  ∀ (s : State) (k : Nat), let c := s.core k
    s.csr k 0x00 = c.tvec ∧ s.csr k 0x01 = c.epc ∧ s.csr k 0x02 = c.tcause ∧ s.csr k 0x03 = c.tval ∧
    (c.faults.length ≤ 16 → (s.csr k 0x04).extractLsb' 8 8 = BitVec.ofNat 8 c.faults.length ∧
      (s.csr k 0x04).getLsbD 4 = c.ovf ∧ (s.csr k 0x04).getLsbD 2 = c.tin ∧ (s.csr k 0x04).getLsbD 1 = c.plvl ∧
      (s.csr k 0x04).getLsbD 0 = c.lvl ∧ (s.csr k 0x04) &&& ~~~0xFF17#64 = 0) ∧
    s.csr k 0x10 = BitVec.ofNat 64 k ∧ s.csr k 0x11 = c.regionOrg.setWidth 64 ∧ s.csr k 0x12 = c.regionExt.setWidth 64 ∧
    s.csr k 0x13 = (c.ctxPart ++ (0#2 ++ c.ctxTag)).setWidth 64 ∧ s.csr k 0x14 = c.cfg.idx.setWidth 64 ∧ s.csr k 0x15 = c.cycle ∧
    s.csr k 0x16 = (match s.variant with | .y7 => 0x188E0 | .y7l => 0x14411) ∧
    s.csr k 0x18 = c.seedLo.setWidth 64 ∧ s.csr k 0x19 = c.seedHi.setWidth 64 ∧
    (∀ n (h : n < 4), s.csr k (BitVec.ofNat 12 (0x20 + n)) = c.org[n] ∧ s.csr k (BitVec.ofNat 12 (0x30 + n)) = c.loops.lc[n].setWidth 64 ∧
      s.csr k (BitVec.ofNat 12 (0x34 + n)) = c.loops.pls[n].getD c.loops.ls[n] ∧
      s.csr k (BitVec.ofNat 12 (0x38 + n)) = c.loops.ple[n].getD c.loops.le[n]) ∧
    (s.csr k 0x40).getLsbD 16 = c.cntEn[c.cntSel.toNat] ∧ (s.csr k 0x40).extractLsb' 8 8 = c.cntEvent[c.cntSel.toNat] ∧
    (s.csr k 0x40).extractLsb' 0 8 = c.cntSel.setWidth 8 ∧
    (∀ n (h : n < 16), s.csr k (BitVec.ofNat 12 (0x50 + n)) = c.cnt[n])

/-- R132, R71, R77, R81, R85. A CSRS of TSTAT clears OVF only where the operand has bit 4: log entry 53. -/
def Clause.ControlRegisterWrites : Prop :=
  let wrote (n : BitVec 12) (level : Core → Prop) (f : Word → Core → Core) : Prop := ∀ a (s : State), level s.here →
    CompletesWith (.csrw a n) s (fun c => f (c.reg a) c) ∧
    CompletesWith (.csrs a n) s (fun c => f ((if n = 4 then s.csr s.cur.core n &&& ~~~0x10#64 else s.csr s.cur.core n) ||| c.reg a) c)
  let loopSet (lv : BitVec 2) (v : Word) (c : Core) : Core × Core :=
    (if lv ∈ c.loops.active then { c with loops := { c.loops with pls := c.loops.pls.set lv.toNat (some v) } }
     else { c with loops := { c.loops with ls := c.loops.ls.set lv.toNat v, pls := c.loops.pls.set lv.toNat none } },
     if lv ∈ c.loops.active then { c with loops := { c.loops with ple := c.loops.ple.set lv.toNat (some v) } }
     else { c with loops := { c.loops with le := c.loops.le.set lv.toNat v, ple := c.loops.ple.set lv.toNat none } })
  let counterSet (v : Word) (c : Core) : Core :=
    { c with cntSel := v.extractLsb' 0 4, cntEvent := c.cntEvent.set (v.extractLsb' 0 4).toNat (v.extractLsb' 8 8),
             cntEn := c.cntEn.set (v.extractLsb' 0 4).toNat (v.getLsbD 16) }
  let statusSet (v : Word) (c : Core) : Core := { c with ovf := c.ovf && !v.getLsbD 4, plvl := v.getLsbD 1 }
  wrote 0x00 (fun c => c.lvl = true) (fun v c => { c with tvec := v &&& ~~~3#64 }) ∧
  wrote 0x01 (fun c => c.lvl = true) (fun v c => { c with epc := v }) ∧
  wrote 0x03 (fun c => c.lvl = true) (fun v c => { c with tval := v }) ∧
  wrote 0x04 (fun c => c.lvl = true) statusSet ∧
  (∀ n (h : n < 4), wrote (BitVec.ofNat 12 (0x20 + n)) (fun _ => True) fun v c => { c with org := c.org.set n v }) ∧
  (∀ n (h : n < 4), wrote (BitVec.ofNat 12 (0x30 + n)) (fun _ => True) fun v c =>
    { c with loops := { c.loops with lc := c.loops.lc.set n (v.extractLsb' 0 32) } }) ∧
  (∀ lv : BitVec 2, wrote (BitVec.ofNat 12 (0x34 + lv.toNat)) (fun _ => True) fun v c => (loopSet lv v c).1) ∧
  (∀ lv : BitVec 2, wrote (BitVec.ofNat 12 (0x38 + lv.toNat)) (fun _ => True) fun v c => (loopSet lv v c).2) ∧
  wrote 0x40 (fun _ => True) counterSet ∧
  (∀ n (h : n < 16), wrote (BitVec.ofNat 12 (0x50 + n)) (fun _ => True) fun v c => { c with cnt := c.cnt.set n v }) ∧
  (∀ (s : State) v, exec (.cntSelWrite v) s = .next (s.on (counterSet v)) ∧ exec (.tstatWrite v) s = .next (s.on (statusSet v))) ∧
  (∀ (s : State) v n (h : n < 4), exec (.loopRegisterWrite (BitVec.ofNat 12 (0x30 + n)) v) s =
    .next (s.on fun c => { c with loops := { c.loops with lc := c.loops.lc.set n (v.extractLsb' 0 32) } })) ∧
  (∀ (s : State) v (lv : BitVec 2),
    exec (.loopRegisterWrite (BitVec.ofNat 12 (0x34 + lv.toNat)) v) s = .next (s.on fun c => (loopSet lv v c).1) ∧
    exec (.loopRegisterWrite (BitVec.ofNat 12 (0x38 + lv.toNat)) v) s = .next (s.on fun c => (loopSet lv v c).2))

/-- Both parts. -/
def Obligations.ControlRegisterReadsAndWrites : Prop := Clause.ControlRegisterReads ∧ Clause.ControlRegisterWrites

/-- R76, R78, R79, R131, R133. -/
def Obligations.TrapEntryAndReturn : Prop :=
  let kept (c k : Core) : Prop := k.regs = c.regs ∧ k.preds = c.preds ∧ k.loops = c.loops ∧ k.tvec = c.tvec ∧ k.scratch = c.scratch ∧ k.org = c.org
  (∀ (i : BitVec 16) (s : State), s.here.tin = false → ∃ t, exec (.trap i) s = .next t ∧ t = s.setCore s.cur.core t.here ∧
    kept s.here t.here ∧ t.here.epc = s.here.pc ∧ t.here.tcause = 0x04 ∧ t.here.tval = i.setWidth 64 ∧ t.here.plvl = s.here.lvl ∧
    t.here.lvl = true ∧ t.here.tin = true ∧ t.here.pc = s.here.tvec ∧ t.here.faults = s.here.faults ∧
    t.here.endAsked = ((!s.here.lvl && i == 0) || s.here.endAsked)) ∧
  (∀ (s : State) (f : AsyncFault) (fs : List AsyncFault), s.here.faults = f :: fs → s.here.run = .running → s.here.tin = false →
    s.here.wait.interruptible = true → (∀ d id, s.here.wait ≠ .pool d id) →
    ∃ t, exec .asyncTrapTake s = .next t ∧ t = s.setCore s.cur.core t.here ∧ kept s.here t.here ∧ t.here.epc = s.here.pc ∧
      t.here.tcause = (f.unit ++ (0#4 ++ (f.srck ++ (1#1 ++ f.code)))).setWidth 64 ∧ t.here.tval = f.tval ∧ t.here.plvl = s.here.lvl ∧
      t.here.lvl = true ∧ t.here.tin = true ∧ t.here.pc = s.here.tvec ∧ t.here.faults = fs ∧ t.here.wait = .none) ∧
  (∀ s : State, s.here.lvl = true → ∃ t, exec .eret s = .next t ∧ t = s.recordFault.setCore s.cur.core t.here ∧ kept s.here t.here ∧
    t.here.pc = s.here.epc &&& ~~~3#64 ∧ t.here.lvl = s.here.plvl ∧ t.here.tin = false ∧ t.here.plvl = s.here.plvl ∧
    t.here.epc = s.here.epc ∧ t.here.tcause = s.here.tcause ∧ t.here.tval = s.here.tval ∧ t.here.faults = s.here.faults) ∧
  (∀ s : State, (s.cur.flag = false → s.recordFault = s) ∧
    (s.cur.flag = true → ∃ o, s.recordFault = { s with outbox := s.outbox ++ [o] } ∧ (o.payload.drop 8).take 16 =
      qwordBytes s.here.tcause ++ qwordBytes s.here.tval)) ∧
  (∀ (s : State) (code : BitVec 8) (v : Word), s.here.tin = true → (s.precise code v).here.run = .doubleTrap) ∧
  (∀ (s : State) (f : AsyncFault) (fs : List AsyncFault) (d : SReg) (id : Nat), s.here.faults = f :: fs → s.here.run = .running →
    s.here.tin = false → s.here.wait = .pool d id →
    (s.grantComing s.cur.core id = true → exec .asyncTrapTake s = .next s) ∧
    (s.grantComing s.cur.core id = false → ∃ t, exec .asyncTrapTake s = .next t ∧ kept s.here t.here ∧ t.here.epc = s.here.pc ∧
      t.here.tval = f.tval ∧ t.here.plvl = s.here.lvl ∧ t.here.lvl = true ∧ t.here.tin = true ∧ t.here.pc = s.here.tvec ∧
      t.here.faults = fs ∧ t.here.wait = .none ∧ t.mem = s.mem ∧
      (∀ core n q, q ∈ ((t.core core).pool n).queue → q.who ≠ .seq s.cur.core) ∧
      ∀ core n q, q ∈ ((s.core core).pool n).queue → q.who ≠ .seq s.cur.core → q ∈ ((t.core core).pool n).queue)) ∧
  (∀ (c : Core) (f : AsyncFault), (c.faults.length < 16 → c.raise f = { c with faults := c.faults ++ [f] }) ∧
    (16 ≤ c.faults.length → c.raise f = { c with ovf := true })) ∧
  (∀ (c : Core) (f g : AsyncFault), c.faults.length < 15 → f.code.toNat < g.code.toNat →
    c.raiseTogether [g, f] = { c with faults := c.faults ++ [f, g] } ∧ c.raiseTogether [f, g] = { c with faults := c.faults ++ [f, g] })

/-- R133, R135, R118, R71, R79. The TVAL of PRIV_OP for these three is not stated (log entry 14), so the statement holds for every value. -/
def Obligations.PrivilegedInstructionsTrapAtKLevel : Prop :=
  (∀ (i : Instr) (s : State), (i = .eret ∨ i = .halt ∨ ∃ d a b p, i = .barMap d a b p ∧ s.here.pred p = true) → s.here.lvl = false →
    ∃ v, TakesTrap i s 0x03 v) ∧
  (∀ (i : Instr) (s t : State), encode i ≠ [] → s.here.lvl = false → s.here.tin = false → exec i s = .next t →
    (t.here.lvl = false ∧ t.here.tin = false ∧ t.here.tvec = s.here.tvec ∧ t.here.epc = s.here.epc ∧ t.here.tcause = s.here.tcause ∧
      t.here.tval = s.here.tval ∧ t.here.plvl = s.here.plvl) ∨
    (t.here.lvl = true ∧ t.here.tin = true ∧ t.here.plvl = false ∧ t.here.tvec = s.here.tvec ∧ t.here.pc = s.here.tvec))

/-- R134–R136. -/
def Obligations.SystemMinors : Prop :=
  Completes .nop 4 id ∧
  (∀ d, Completes (.seedGet d) 4 fun c => c.setReg d (c.seedHi ++ c.seedLo)) ∧
  (∀ a (s : State), s.here.reg a = BitVec.ofNat 64 s.cur.core → s.cur.core < s.variant.coreCount → s.inPartition s.cur.core s.cur.core = true →
    CompletesIn (.evt a) s s 4 fun c => { c with event := true }) ∧
  (∀ a (s : State), (s.here.reg a).toNat < s.variant.coreCount → s.inPartition s.cur.core (s.here.reg a).toNat = true →
    (s.here.reg a).toNat ≠ s.cur.core → CompletesIn (.evt a) s (s.send s.cur.core (s.here.reg a).toNat .event) 4 id) ∧
  (∀ a (s : State), (s.variant.coreCount ≤ (s.here.reg a).toNat ∨ s.inPartition s.cur.core (s.here.reg a).toNat = false) →
    CompletesIn (.evt a) s s 4 id) ∧
  (∀ (s : State) (src dst : Nat) (tag : BitVec 6), s.arriving s.cur.n = some ⟨src, dst, .event, tag⟩ →
    exec .eventFlagDelivery s = .next ((s.takePacket s.cur.n).onCore dst fun c => { c with event := true })) ∧
  (∀ s : State, s.here.event = true → CompletesIn .wfe s s 4 fun c => { c with event := false }) ∧
  (∀ s : State, s.here.event = false → exec .wfe s = .next (s.on fun c => { c with wait := .event })) ∧
  (∀ s : State, s.here.wait = .event → s.here.event = true →
    CompletesIn .wfeReturn s s 4 fun c => { c with wait := .none, event := false }) ∧
  (∀ s : State, s.here.lvl = true → exec .halt s =
    .next (s.on fun c => { (c.count 0x02) with pc := c.pc + 4, run := .ended, endAsked := true })) ∧
  (∀ sc (s : State), (∀ a ∈ s.here.accesses, a.kind = .store) → CompletesIn (.fenceAcq sc) s s 4 fun c => { c with wait := .none }) ∧
  (∀ sc (s : State), (∃ a ∈ s.here.accesses, a.kind ≠ .store) →
    exec (.fenceAcq sc) s = .next (s.on fun c => { c with wait := .fence false })) ∧
  (∀ sc (s : State), s.here.unperformedStores = [] → CompletesIn (.fenceRel sc) s s 4 fun c => { c with wait := .none }) ∧
  (∀ sc (s : State), s.here.unperformedStores ≠ [] →
    exec (.fenceRel sc) s = .next (s.on fun c => { c with wait := .fence true }))

/-- R121–R127, R443. A configuration that has been closed is not sent DRAIN again, and CFG.DRN holds issue until every injection port has a slot: log
entry 48. -/
def Obligations.ConfigurationCommands : Prop :=
  let answers (i : Instr) (s : State) (d : SReg) (v : Word) : Prop := CompletesIn i s s 4 fun c => c.setReg d v
  let onCfg (s : State) (f : ConfigEngine → ConfigEngine) : State := s.on fun c => { c with cfg := f c.cfg }
  (∀ d a b c p (s : State), s.here.pred p = true → 8 ≤ s.here.cfg.loads.length →
    ∀ i ∈ [Instr.cfgLd d a b c p, .cfgSwp d p, .cfgDrn d p, .cfgWt d p, .cfgSel d a b c p, .cfgQry d a p],
      exec i s = .next (s.on fun k => k.count 0x0B)) ∧
  (∀ d a b c p (s : State), s.here.pred p = true → s.here.cfg.loads.length < 8 →
    let addr := s.here.reg a
    let count := (s.here.reg b).toNat
    let ok := addr.toNat % 4 = 0 ∧ 0 < count ∧ count ≤ 1048576
    let idx := (s.here.reg c).extractLsb' 0 16
    let g := s.here.cfg
    (addr.toNat % 4 ≠ 0 → answers (.cfgLd d a b c p) s d 2 ∧ answers (.cfgSel d a b c p) s d 2) ∧
    (addr.toNat % 4 = 0 → (count = 0 ∨ 1048576 < count) → answers (.cfgLd d a b c p) s d 3 ∧ answers (.cfgSel d a b c p) s d 3) ∧
    (ok → (g.armed = true ∨ g.sealing = true) → answers (.cfgLd d a b c p) s d 1) ∧
    (ok → g.armed = false → g.sealing = false →
      CompletesIn (.cfgLd d a b c p) s (onCfg s fun g => { g with loads := g.loads ++ [⟨addr, count, idx⟩] }) 4 fun k => k.setReg d 0) ∧
    (let ready := g.loaded = true ∧ g.incomplete = false ∧ g.armed = false ∧ g.loads = [] ∧ g.shadowIdx = idx
     (ok → ready → CompletesIn (.cfgSel d a b c p) s (onCfg s fun g => { g with sealing := true, latched := none }) 4 fun k => k.setReg d 0) ∧
     (ok → ¬ready → CompletesIn (.cfgSel d a b c p) s
       (onCfg s fun g => { g with armed := false, isSealed := false, sealing := false, latched := some ⟨addr, count, idx⟩ }) 4
       fun k => k.setReg d 0))) ∧
  (∀ d p (s : State), s.here.pred p = true → s.here.cfg.loads.length < 8 →
    ((s.here.cfg.armed = true ∨ s.here.cfg.sealing = true) → answers (.cfgSwp d p) s d 1) ∧
    (s.here.cfg.armed = false → s.here.cfg.sealing = false →
      CompletesIn (.cfgSwp d p) s (onCfg s fun g => { g with sealing := true, latched := none }) 4 fun k => k.setReg d 0) ∧
    (s.here.cfg.draining = true → answers (.cfgDrn d p) s d 1) ∧
    (s.here.cfg.draining = false → s.here.cfg.drained = true →
      CompletesIn (.cfgDrn d p) s (s.beginDrain s.cur.core) 4 fun k => k.setReg d 0) ∧
    (s.here.cfg.draining = false → s.here.cfg.drained = false → (∃ q ∈ s.here.injectionPorts s.cur.core, s.freeAt q = 0) →
      exec (.cfgDrn d p) s = .next (s.on fun k => k.count 0x0B)) ∧
    (s.here.cfg.draining = false → s.here.cfg.drained = false → (∀ q ∈ s.here.injectionPorts s.cur.core, s.freeAt q ≠ 0) →
      let drain : Token := { payload := s.here.cfg.idx.setWidth 256, tag := 0, taint := false, round := 0, e := 0, vc := 0, kind := 3 }
      CompletesIn (.cfgDrn d p) s ((((s.here.injectionPorts s.cur.core).foldl (fun u q => u.injectToken q drain) s).on fun c =>
        { c with engines := c.engines.map fun e => { e with drainAsked := true }, cfg := { c.cfg with drained := true } }).beginDrain s.cur.core) 4
        fun k => k.setReg d 0) ∧
    (∀ r, s.here.cfg.result = some r →
      CompletesIn (.cfgWt d p) s (onCfg s fun g => { g with result := none }) 4 fun k => k.setReg d (r.setWidth 64)) ∧
    (s.here.cfg.result = none → exec (.cfgWt d p) s = .next (s.on fun c => { c with wait := .cfg d }))) ∧
  (∀ d (s : State) r, s.here.wait = .cfg d → s.here.cfg.result = some r →
    CompletesIn .cfgWtReturn s s 4 fun c => ({ c with cfg := { c.cfg with result := none }, wait := .none } : Core).setReg d (r.setWidth 64)) ∧
  (∀ d a p (s : State), s.here.pred p = true → s.here.cfg.loads.length < 8 →
    let x := s.here.reg a
    let e := s.here.elem (x.extractLsb' 0 6).toNat
    (x.extractLsb' 8 4 = 0 → answers (.cfgQry d a p) s d (e.fstat.setWidth 64)) ∧
    (x.extractLsb' 8 4 = 1 → ∃ v : Word, answers (.cfgQry d a p) s d v ∧ v.extractLsb' 0 16 = s.here.cfg.shadowIdx ∧
      v.getLsbD 16 = !s.here.cfg.loads.isEmpty ∧ v.getLsbD 17 = s.here.cfg.isSealed ∧ v.getLsbD 18 = s.here.cfg.armed ∧
      v.getLsbD 19 = s.here.cfg.latched.isSome ∧ v.getLsbD 20 = s.here.cfg.draining ∧ v.getLsbD 21 = s.here.cfg.incomplete ∧
      v.getLsbD 22 = s.here.cfg.result.isSome ∧ v.extractLsb' 23 3 = s.here.cfg.result.getD 0 ∧ v.getLsbD 26 = s.here.cfg.sealing) ∧
    (x.extractLsb' 8 4 = 2 → ∃ v : Word, answers (.cfgQry d a p) s d v ∧
      ∀ k < 64, v.getLsbD k = (!enabled s.here.cfg.active k || (s.here.elem k).passed)) ∧
    (∀ n (h : n < 4), x.extractLsb' 8 4 = 3 → (x.extractLsb' 6 2).toNat = n → answers (.cfgQry d a p) s d (e.ecnt[n].setWidth 64)) ∧
    (3 < (x.extractLsb' 8 4).toNat → answers (.cfgQry d a p) s d (BitVec.allOnes 64)))

/-- R121, R122, R126, R183, R184. A load reads its whole stream in one step: log entry 48. What a fault leaves does not count as loaded: log entry 58. -/
def Obligations.ConfigurationIsLoadedAndSealed : Prop :=
  (∀ (s : State) (j : ConfigLoad) (js : List ConfigLoad), s.here.cfg.loads = j :: js → s.unanswered s.cur.core j = none →
    ∃ t, exec .configStreamLoad s = .next t ∧ t.here.cfg.shadowIdx = j.idx ∧ t.here.cfg.loads = js ∧ t.here.cfg.active = s.here.cfg.active ∧
      t.here.cfg.incomplete = !t.here.cfg.loaded ∧ t.here.regs = s.here.regs ∧ t.mem = s.mem) ∧
  (∀ (s u : State) (j : ConfigLoad) (js : List ConfigLoad), s.here.cfg.loads = j :: js → s.unanswered s.cur.core j = some u →
    exec .configStreamLoad s = .next u) ∧
  (∀ (s : State) (j : ConfigLoad) (js : List ConfigLoad) (ws : List (BitVec 32)), s.here.cfg.loads = j :: js → s.cur.flag = false →
    ws.length = j.count →
    (∀ i w, ws[i]? = some w → Sparse.find s.here.prefetch (j.addr + BitVec.ofNat 64 (4 * i)).toNat = some w) →
    let start : Loading := { plane := s.here.cfg.shadow, writers := [], bad := s.here.cfg.bad.map fun b => (0xFFFFFFFF, b.2), selected := true }
    let read := (ws.zipIdx.foldl (fun (x : Loading × Bool) w => if x.2 then x else s.command s.cur.core w.2 w.1 x.1) (start, false)).1
    ∃ t, exec .configStreamLoad s = .next t ∧ t.here.cfg.shadow = read.plane ∧ t.here.cfg.writers = read.writers ∧
      t.here.cfg.bad = read.bad ∧ t.here.cfg.loaded = true ∧ t.here.cfg.incomplete = false) ∧
  (∀ (s t : State) (core : Nat) (va : Word) (a : Nat), Sparse.find (s.core core).prefetch va.toNat = none →
    s.translate core (s.core core).ctxTag .read va = (t, .ok a) → t.inWindow a 4 = false → t.memoryFate core a = .arrives →
    (s.readConfigWord core va).2 = .ok (BitVec.ofNat 32 (readMem t.mem a 4))) ∧
  (∀ (s : State) (core i : Nat) (l : Loading),
    s.command core i 0xFF000000 l = (l, true) ∧
    s.command core i 0xFF01FFFF l = ({ l with selected := true }, false) ∧
    (∀ (ea fn : BitVec 8) (v : BitVec 16) (m : BitVec 16), ea ≠ 0xFF → l.selected = true → fieldMask ea.toNat fn.toNat = some m →
      (s.command core i (ea ++ (fn ++ v)) l).2 = false ∧ (s.command core i (ea ++ (fn ++ v)) l).1.bad = l.bad ∧
      fieldOf (s.command core i (ea ++ (fn ++ v)) l).1.plane ea.toNat fn.toNat = v ∧
      Sparse.find (s.command core i (ea ++ (fn ++ v)) l).1.writers (256 * ea.toNat + fn.toNat) = some i ∧
      ∀ ea' fn', fn' < 256 → (ea' ≠ ea.toNat ∨ fn' ≠ fn.toNat) →
        fieldOf (s.command core i (ea ++ (fn ++ v)) l).1.plane ea' fn' = fieldOf l.plane ea' fn') ∧
    (∀ (ea fn : BitVec 8) (v : BitVec 16), ea ≠ 0xFF → l.selected = true → fieldMask ea.toNat fn.toNat = none →
      s.command core i (ea ++ (fn ++ v)) l = ({ l with bad := l.bad ++ [(i, fn.toNat, ea.toNat)] }, false)) ∧
    (∀ (ea fn : BitVec 8) (v : BitVec 16), ea ≠ 0xFF → l.selected = false → s.command core i (ea ++ (fn ++ v)) l = (l, false))) ∧
  (∀ s : State, s.here.cfg.sealing = true → s.here.cfg.loads = [] →
    let u := s.on fun c => { c with cfg := { c.cfg with sealing := false } }
    (s.here.cfg.incomplete = true → exec .sealChecksComplete s = .next u) ∧
    (s.here.cfg.incomplete = false → ∀ code v, u.sealFault s.cur.core = some (code, v) →
      exec .sealChecksComplete s = .next (u.raise s.cur.core code 7 0 v)) ∧
    (s.here.cfg.incomplete = false → u.sealFault s.cur.core = none →
      ∃ t, exec .sealChecksComplete s = .next t ∧ t.here.cfg.armed = true ∧ t.here.cfg.isSealed = true ∧ t.here.cfg.sealing = false ∧
        t.here.cfg.shadow = s.here.cfg.shadow ∧ t.here.cfg.active = s.here.cfg.active ∧ t.here.faults = s.here.faults))

/-- R42, R124, R126, R180, R181, R261. What must be quiet before a report, and a load read in one step: log entry 48. A plane armed since the drain
point waits for the next drain: log entry 49. -/
def Obligations.DrainsAreCollectedAndResolved : Prop :=
  (∀ (s : State) (src dst num : Nat) (tag : BitVec 6), s.arriving s.cur.n = some ⟨src, dst, .drainBegin num, tag⟩ →
    (num < (s.core dst).cfg.drains → exec .drainBeginNotice s = .next (s.takePacket s.cur.n)) ∧
    (num = (s.core dst).cfg.drains → ∃ t, exec .drainBeginNotice s = .next t ∧ (t.core dst).cfg.noticed = true ∧
      ((dst ≠ s.lead dst ∨ (s.core dst).cfg.noticed = true) → t.net = s.net.eraseIdx s.cur.n) ∧
      (dst = s.lead dst → (s.core dst).cfg.noticed = false →
        ∀ c ∈ s.region dst, c ≠ dst → (⟨dst, c, .drainBegin num, (s.core dst).ctxTag⟩ : Packet) ∈ t.net))) ∧
  (∀ s : State, (s.here.cfg.draining = true ∨ s.here.cfg.noticed = true) → s.here.allPassed = true →
    ∃ t, exec .drainCollectorAbandon s = .next t ∧ t.here.cfg.abandoned = true ∧ t.mem = s.mem ∧ t.here.regs = s.here.regs) ∧
  (∀ s : State, (s.here.cfg.draining = true ∨ s.here.cfg.noticed = true) → s.here.cfg.reported = false → s.here.allPassed = true →
    s.here.cfg.abandoned = true → (∀ f ∈ s.flights, f.dst.core ≠ s.cur.core) → (∀ k ∈ s.credits, k.dst.core ≠ s.cur.core) →
    (∀ e ∈ s.here.elems, e.2.pending = []) → s.enginesQuiet s.cur.core = true → s.here.routerDrained = true →
    exec .coreDrainReport s = .next ((s.on fun c => { c with cfg := { c.cfg with reported := true } }).send s.cur.core (s.lead s.cur.core)
      (.drainReport (!s.here.newStrays.isEmpty)))) ∧
  (∀ s : State, s.cur.core = s.lead s.cur.core → s.region s.cur.core ≠ [] →
    (∀ c ∈ s.region s.cur.core, (s.reportOf s.cur.core c).isSome = true) →
    let stray := (s.region s.cur.core).any fun c => s.reportOf s.cur.core c == some true
    let t : State := { s with net := s.net.filter (fun p => match p.kind with | .drainReport _ => p.dst != s.cur.core | _ => true),
                              regions := s.regions ++ [(⟨s.cur.core, stray⟩ : RegionDrain)] }
    (stray = true → exec .drainResolution s = .next t.drainPoint) ∧
    (stray = false → (∀ c ∈ s.region s.cur.core, ∀ j ∈ (s.core c).cfg.loads ++ (s.core c).cfg.latched.toList, s.unanswered c j = none) →
      exec .drainResolution s = .next ((s.region s.cur.core).foldl State.takeChoice t).drainPoint)) ∧
  (∀ (s : State) (core : Nat),
    ((s.core core).cfg.latched = none → s.takeChoice core = s) ∧
    (∀ j, (s.core core).cfg.latched = some j → (s.core core).cfg.loads = [] →
      let u := ((s.onCore core fun c => { c with cfg := { c.cfg with latched := none } }).loadStream core j).sealPlane core
      s.takeChoice core = u.onCore core fun c => { c with cfg := { c.cfg with failed := !c.cfg.armed } })) ∧
  (∀ (s : State) (src dst : Nat) (tag : BitVec 6), s.arriving s.cur.n = some ⟨src, dst, .resolution true, tag⟩ →
    ∃ t, exec .resolutionApply s = .next t ∧ (t.core dst).cfg.result = some 2 ∧ (t.core dst).cfg.armed = false ∧
      (t.core dst).cfg.draining = false ∧ (t.core dst).cfg.active = (s.core dst).cfg.active ∧
      ((s.core dst).faults.length + (s.core dst).newStrays.length ≤ 16 → ∀ x ∈ (s.core dst).newStrays, ∃ f ∈ (t.core dst).faults,
        f.code = 0x24 ∧ f.srck = 1 ∧ f.unit = BitVec.ofNat 8 x.1 ∧ f.tval = BitVec.ofNat 64 (x.1 + x.2.toNat * 2 ^ 8))) ∧
  (∀ (s : State) (src dst : Nat) (tag : BitVec 6), s.arriving s.cur.n = some ⟨src, dst, .resolution false, tag⟩ → (s.core dst).cfg.armed = true →
    (s.core dst).cfg.overlaid = true →
    ∃ t, exec .resolutionApply s = .next t ∧ (t.core dst).cfg.result = some 0 ∧ (t.core dst).cfg.active = (s.core dst).cfg.shadow ∧
      (t.core dst).cfg.idx = (s.core dst).cfg.shadowIdx ∧ (t.core dst).cfg.armed = false ∧ (t.core dst).cfg.draining = false ∧
      (t.core dst).regs = (s.core dst).regs ∧ t.mem = s.mem) ∧
  (∀ (s : State) (src dst : Nat) (tag : BitVec 6), s.arriving s.cur.n = some ⟨src, dst, .resolution false, tag⟩ →
    ((s.core dst).cfg.armed = false ∨ (s.core dst).cfg.overlaid = false) →
    ∃ t, exec .resolutionApply s = .next t ∧ (t.core dst).cfg.result = some (if (s.core dst).cfg.failed then 3 else 1) ∧
      (t.core dst).cfg.draining = false ∧ (t.core dst).cfg.active = (s.core dst).cfg.active ∧
      (t.core dst).cfg.armed = (s.core dst).cfg.armed) ∧
  (∀ (s : State) (f : Flight) (c : Nat), s.flights[s.cur.n]? = some f → f.dst = .take c → f.tok.kind = 3 → s.flightBehind s.cur.n f = false →
    ∃ t, exec .takePortDrain s = .next t ∧ t.flights = s.flights.eraseIdx s.cur.n ∧ (t.core c).takePort.closed = true ∧
      (t.core c).takePort.toks = (s.core c).takePort.toks)

/-- R128–R130, R138. -/
def Obligations.TokenCommands : Prop :=
  let checked (i : Instr) (p : PReg) (b : SReg) : Prop := ∀ s : State, s.here.pred p = true →
    ((s.here.reg b).toNat % 32 ≠ 0 → TakesTrap i s 0x02 (s.here.reg b)) ∧
    ((s.here.reg b).toNat % 32 = 0 → 0x10000 < (s.here.reg b).toNat + 32 → TakesTrap i s 0x09 (s.here.reg b))
  let injects (i : Instr) (d a : SReg) (s : State) (tok : Token) : Prop :=
    let ea := ((s.here.reg a).extractLsb' 0 6).toNat
    let port := ((s.here.reg a).extractLsb' 8 2).toNat
    let admits := enabled s.here.cfg.active ea = true ∧ bindKind s.here.cfg.active ea port = 2
    (¬admits → CompletesIn i s s 4 fun c => c.setReg d 2) ∧
    (admits → s.freeAt (.port s.cur.core ea port) = 0 → CompletesIn i s s 4 fun c => c.setReg d 1) ∧
    (admits → s.freeAt (.port s.cur.core ea port) ≠ 0 →
      CompletesIn i s (s.injectToken (.port s.cur.core ea port) tok) 4 fun c => c.setReg d 0)
  (∀ d a b c p, checked (.tokInj d a b c p) p b) ∧ (∀ d a p, checked (.tokTake d a p) p a) ∧
  (∀ d a b c p (s : State), s.here.pred p = true → (s.here.reg b).toNat % 32 = 0 → (s.here.reg b).toNat + 32 ≤ 0x10000 →
    let side := s.here.reg c
    injects (.tokInj d a b c p) d a s
      { payload := BitVec.ofNat 256 (readScratch s.here (s.here.reg b).toNat 32), tag := side.extractLsb' 20 12, taint := false,
        round := side.extractLsb' 11 8, e := side.extractLsb' 7 4, vc := side.extractLsb' 2 5, kind := side.extractLsb' 0 2 }) ∧
  (∀ d a b p (s : State), s.here.pred p = true →
    injects (.tokMark d a b p) d a s
      { payload := 0, tag := 0, taint := false, round := (s.here.reg b).extractLsb' 0 8, e := 0, vc := 0, kind := 2 }) ∧
  (∀ d a p (s : State), s.here.pred p = true → (s.here.reg a).toNat % 32 = 0 → (s.here.reg a).toNat + 32 ≤ 0x10000 →
    s.here.takePort.toks = [] → exec (.tokTake d a p) s = .next (s.on fun c => { c with wait := .take d (s.here.reg a) })) ∧
  (∀ d a p (s : State) (x : Stored) (xs : List Stored), s.here.pred p = true → (s.here.reg a).toNat % 32 = 0 →
    (s.here.reg a).toNat + 32 ≤ 0x10000 → s.here.takePort.toks = x :: xs →
    CompletesIn (.tokTake d a p) s (s.freeHeads (.take s.cur.core) 1) 4 fun c =>
      (writeScratch { c with wait := .none } (s.here.reg a).toNat x.tok.payload.toNat 32).setReg d (x.tok.side.setWidth 64)) ∧
  (∀ d addr (s : State) (x : Stored) (xs : List Stored), s.here.wait = .take d addr → s.here.takePort.toks = x :: xs →
    CompletesIn .tokTakeReturn s (s.freeHeads (.take s.cur.core) 1) 4 fun c =>
      (writeScratch { c with wait := .none } addr.toNat x.tok.payload.toNat 32).setReg d (x.tok.side.setWidth 64)) ∧
  (∀ d a b p (s : State), s.here.pred p = true →
    (s.here.checkpointEntries s.cur.core = [] → CompletesIn (.ckpt d a b p) s s 4 fun c => c.setReg d 2) ∧
    ((∃ q ∈ s.here.checkpointEntries s.cur.core, s.freeAt q = 0) → CompletesIn (.ckpt d a b p) s s 4 fun c => c.setReg d 1) ∧
    (s.here.checkpointEntries s.cur.core ≠ [] → (∀ q ∈ s.here.checkpointEntries s.cur.core, s.freeAt q ≠ 0) →
      let mark : Token := { payload := 0, tag := 0x100#12 ||| ((s.here.reg a).extractLsb' 0 8).setWidth 12, taint := false,
                            round := (s.here.reg b).extractLsb' 0 8, e := 0, vc := 0, kind := 2 }
      CompletesIn (.ckpt d a b p) s
        (((s.here.checkpointEntries s.cur.core).foldl (fun u q => u.injectToken q mark) s).holdAtCheckpoint s.cur.core) 4
        fun c => c.setReg d 0)) ∧
  (∀ (s : State) (core ea i : Nat) (tok : Token), i < 4 → (s.portAt (.port core ea i)).closed = false →
    ((s.injectToken (.port core ea i) tok).portAt (.port core ea i)).toks = (s.portAt (.port core ea i)).toks ++ [⟨tok, core⟩] ∧
    (s.injectToken (.port core ea i) tok).mem = s.mem ∧ (s.injectToken (.port core ea i) tok).flights = s.flights ∧
    ∀ c r, ((s.injectToken (.port core ea i) tok).core c).reg r = (s.core c).reg r)

/-- R143, R146–R149. -/
def Obligations.StreamIssueStatuses : Prop :=
  let checked (i : Instr) (p : PReg) (r : SReg) : Prop := ∀ s : State, s.here.pred p = true →
    ((s.here.reg r).toNat % 64 ≠ 0 → TakesTrap i s 0x02 (s.here.reg r)) ∧
    ((s.here.reg r).toNat % 64 = 0 → 0x10000 < (s.here.reg r).toNat + 64 → TakesTrap i s 0x09 (s.here.reg r))
  let issues (i : Instr) (op : StreamOp) (d a b c : SReg) (p : PReg) : Prop := checked i p c ∧
    ∀ s : State, s.here.pred p = true → (s.here.reg c).toNat % 64 = 0 → (s.here.reg c).toNat + 64 ≤ 0x10000 →
      let ctl := s.here.reg b
      let dests : Vector (BitVec 128) 4 := Vector.ofFn fun n => BitVec.ofNat 128 (readScratch s.here ((s.here.reg c).toNat + 16 * n.val) 16)
      (op = .upd → s.variant = .y7l → CompletesIn i s s 4 fun k => k.setReg d 7) ∧
      ((op ≠ .upd ∨ s.variant = .y7) →
        (Sparse.find s.here.shapes (ctlShape ctl) = none → CompletesIn i s s 4 fun k => k.setReg d 4) ∧
        (∀ sh, Sparse.find s.here.shapes (ctlShape ctl) = some sh →
          (∀ n, s.issueStatus op (s.here.reg a) ctl sh dests = n → n ≠ 0 → CompletesIn i s s 4 fun k => k.setReg d (BitVec.ofNat 64 n)) ∧
          (s.issueStatus op (s.here.reg a) ctl sh dests = 0 →
            CompletesIn i s s 4 fun k => (k.startStream op (k.reg a) (k.reg b) sh dests).setReg d 0)))
  (∀ d a b p, checked (.shpMk d a b p) p a) ∧
  (∀ d a b p (s : State), s.here.pred p = true → (s.here.reg a).toNat % 64 = 0 → (s.here.reg a).toNat + 64 ≤ 0x10000 →
    let r : Shape := BitVec.ofNat 512 (readScratch s.here (s.here.reg a).toNat 64)
    (∀ off code rest, r.faults = (off, code) :: rest → TakesTrap (.shpMk d a b p) s code (BitVec.ofNat 64 off)) ∧
    (r.faults = [] → CompletesIn (.shpMk d a b p) s s 4 fun c =>
      ({ c with shapes := Sparse.put c.shapes ((c.reg b).toNat % 32) r } : Core).setReg d 0)) ∧
  (∀ d a b c p, issues (.strmLd d a b c p) .ld d a b c p ∧ issues (.strmSv d a b c p) .sv d a b c p ∧
    issues (.strmCp d a b c p) .cp d a b c p ∧ issues (.strmGa d a b c p) .ga d a b c p ∧ issues (.strmSc d a b c p) .sc d a b c p ∧
    issues (.strmUpd d a b c p) .upd d a b c p) ∧
  (∀ (c : Core) op base ctl sh dests, ctlEngine ctl < 8 → let e := (c.startStream op base ctl sh dests).engine (ctlEngine ctl)
    e.state = 1 ∧ e.result = 4 ∧ e.beats = 0 ∧ e.pos = Vector.replicate 4 0 ∧
    ∃ j, e.job = some j ∧ j.op = op ∧ j.base = base ∧ j.ctl = ctl ∧ j.shape = sh ∧ j.dests = dests ∧
      j.org = c.org.map (fun w => w.setWidth 32) ∧ j.next = 0 ∧ j.beats = []) ∧
  (∀ (s : State) op base ctl sh (dests : Vector (BitVec 128) 4),
    let used := dests.toList.filter fun e => destKind e != 0
    let busy : Prop := (s.here.engine (ctlEngine ctl)).state ≠ 0
    (kindFault op base ctl sh dests = true → s.issueStatus op base ctl sh dests = 5) ∧
    (kindFault op base ctl sh dests = false →
      (busy → s.issueStatus op base ctl sh dests = 1) ∧
      (¬busy → s.streamDenied ctl used = true → s.issueStatus op base ctl sh dests = 8) ∧
      (¬busy → s.streamDenied ctl used = false → alignFault op base ctl used = true → s.issueStatus op base ctl sh dests = 2) ∧
      (¬busy → s.streamDenied ctl used = false → alignFault op base ctl used = false → s.sizeFault ctl sh used = true →
        s.issueStatus op base ctl sh dests = 3) ∧
      (¬busy → s.streamDenied ctl used = false → alignFault op base ctl used = false → s.sizeFault ctl sh used = false →
        (s.noRoute ctl used = true → s.issueStatus op base ctl sh dests = 6) ∧
        (s.noRoute ctl used = false → s.issueStatus op base ctl sh dests = 0))))

/-- R156, R159–R161; the parked reads of a killed stream are log entry 42. -/
def Obligations.StreamControl : Prop :=
  let halted (s : State) (k : Nat) : State :=
    s.on fun c => Core.enterTrap { c.onEngine k (fun e => { e with state := 0, result := 2 }) with wait := .none } c.pc
      (trapCause (s.here.engine k).fcode 2 (BitVec.ofNat 8 k) false) (s.here.engine k).faddr
  (∀ d a b p (s : State), s.here.pred p = true → CompletesIn (.strmOrg d a b p) s s 4 fun c =>
    ({ c with org := #v[((c.reg a).extractLsb' 0 32).setWidth 64, ((c.reg a).extractLsb' 32 32).setWidth 64,
                        ((c.reg b).extractLsb' 0 32).setWidth 64, ((c.reg b).extractLsb' 32 32).setWidth 64] } : Core).setReg d 0) ∧
  (∀ d a p (s : State), s.here.pred p = true →
    let k := ((s.here.reg a).extractLsb' 0 3).toNat
    let e := s.here.engine k
    (e.state = 0 → CompletesIn (.strmWt d a p) s s 4 fun c => c.setReg d (e.result.setWidth 64)) ∧
    ((e.state = 1 ∨ e.state = 2) → exec (.strmWt d a p) s = .next (s.on fun c => { c with wait := .stream d k })) ∧
    (e.state = 3 → s.here.tin = false → exec (.strmWt d a p) s = .next (halted s k)) ∧
    (∀ sel (h : sel < 4), ((s.here.reg a).extractLsb' 8 2).toNat = sel → ∃ v : Word, CompletesIn (.strmQry d a p) s s 4 (fun c => c.setReg d v) ∧
      (sel = 0 → v.extractLsb' 0 2 = e.state ∧ v.extractLsb' 2 3 = e.result ∧ v.extractLsb' 8 8 = e.fcode ∧ v.extractLsb' 16 48 = e.beats) ∧
      (sel = 1 → v = e.faddr) ∧ (sel = 2 → v = e.pos[1] ++ e.pos[0]) ∧ (sel = 3 → v = e.pos[3] ++ e.pos[2])) ∧
    (e.state = 2 → CompletesIn (.strmRsm d a p) s s 4 fun c => (c.onEngine k fun e => { e with state := 1 }).setReg d 0) ∧
    (e.state ≠ 2 → CompletesIn (.strmRsm d a p) s s 4 fun c => c.setReg d 1) ∧
    (e.state = 0 → CompletesIn (.strmKil d a p) s s 4 fun c => c.setReg d 1) ∧
    (e.state ≠ 0 → e.job = none → CompletesIn (.strmKil d a p) s s 4 fun c =>
      (c.onEngine k fun e => { e with state := 0, result := 1 }).setReg d 0) ∧
    (∀ j, e.state ≠ 0 → e.job = some j →
      CompletesIn (.strmKil d a p) s ((s.endWalk s.cur.core k j.next 1).dropParked s.cur.core k) 4 fun c => c.setReg d 0)) ∧
  (∀ d k (s : State), k < 8 → s.here.wait = .stream d k →
    ((s.here.engine k).state = 0 → CompletesIn .strmWtReturn s s 4 fun c =>
      ({ c with wait := .none } : Core).setReg d ((c.engine k).result.setWidth 64)) ∧
    ((s.here.engine k).state = 3 → s.here.tin = false → exec .strmWtReturn s = .next (halted s k)))

/-- R41, R150, R152–R154, R162, R163. -/
def Obligations.StreamBeats : Prop :=
  (∀ (s : State) (j : StreamJob), (s.here.engine s.cur.unit).job = some j → (s.here.engine s.cur.unit).state = 1 → j.walks = true →
    s.isPaused j = false → (∀ i ∈ j.after, ¬i ∈ s.here.outstanding) → (j.late = false ∨ (s.here.engine s.cur.unit).drainSent = true) →
    (j.toRequest ≠ [] → exec .streamLinkAllocation s = .next (s.requestTiles s.cur.core s.cur.unit j.toRequest j.shape.pool)) ∧
    (j.toRequest = [] → (∀ r ∈ j.reqs.toList, r = none) → j.linked = true →
      exec .streamLinkAllocation s = .next (s.issueBeat s.cur.core s.cur.unit j)) ∧
    (j.toRequest = [] → (∀ r ∈ j.reqs.toList, r = none) → j.linked = false →
      (s.roomFor ((j.beatLinks s.cur.core j.next).map fun d => (d, 1)) = false → exec .streamLinkAllocation s = .next s) ∧
      (s.roomFor ((j.beatLinks s.cur.core j.next).map fun d => (d, 1)) = true →
        let taken := ((j.beatLinks s.cur.core j.next).foldl (fun s d => s.onPort d fun p => { p with pend := p.pend + 1 }) s).onJob
          s.cur.unit fun j => { j with linked := true }
        exec .streamLinkAllocation s = .next (taken.issueBeat s.cur.core s.cur.unit { j with linked := true })))) ∧
  (∀ (s : State) (j : StreamJob) (b : Beat) (phys : Nat), (s.here.engine s.cur.unit).job = some j →
    j.beats.find? (fun b => b.n == s.cur.n) = some b → b.data = none → b.src = .mem phys → s.cur.flag = false →
    s.memoryFate s.cur.core phys = .arrives →
    (∀ x ∈ j.beats, x.n < b.n → x.data ≠ none ∧ ∀ q ∈ x.mem, q + 32 ≤ phys ∨ phys + 32 ≤ q) → s.inWindow phys 32 = false →
    exec .streamSourceReply s = .next (s.fillBeat s.cur.core s.cur.unit b.n (BitVec.ofNat 256 (readMem s.mem phys 32)) false)) ∧
  (∀ (s : State) (j : StreamJob) (b : Beat) (d : Payload × Bool), (s.here.engine s.cur.unit).job = some j →
    j.beats.find? (fun b => b.n == s.cur.n) = some b → b.data = some d → b.delivered = false →
    (∀ x ∈ j.beats, x.n < b.n → x.delivered = true) → j.tileUnwritten b = false →
    (b.updates = [] ∨ (s.heldBy b.holds = false ∧ s.updatesWaiting s.cur.core s.cur.unit = false)) →
    exec .streamSourceReply s = .next ((s.deliverBeat s.cur.core s.cur.unit j b d.1 d.2).on fun c => c.onEngine s.cur.unit Engine.retire)) ∧
  (∀ (s : State) (j : StreamJob) (b : Beat) (d : Payload × Bool) (phys : Nat), (s.here.engine s.cur.unit).job = some j →
    j.beats.find? (fun b => b.n == s.cur.n) = some b → b.data = some d → b.mem[s.cur.m]? = some phys → b.holds = [] →
    (∀ x ∈ j.beats, x.n < b.n → x.data ≠ none) → s.inWindow phys 32 = false → s.isDet s.cur.core = false →
    s.memoryFate s.cur.core phys = .arrives →
    ∃ t, exec .streamWritePerformed s = .next t ∧ readMem t.mem phys 32 = d.1.toNat ∧
      (∀ x, (x < phys ∨ phys + 32 ≤ x) → readByte t.mem x = readByte s.mem x) ∧ t.here.regs = s.here.regs) ∧
  (∀ (s : State) (x : Stored) (xs : List Stored), s.cur.n < 2 → s.cur.unit < 8 → (s.here.engine s.cur.unit).state ≠ 1 →
    (s.portAt (.data s.cur.core s.cur.unit s.cur.n)).toks = x :: xs → x.tok.kind = 2 →
    exec .streamInputToken s = .next (s.freeHeads (.data s.cur.core s.cur.unit s.cur.n) 1)) ∧
  (∀ (s : State) (j : StreamJob) (x : Stored) (xs : List Stored), s.cur.n < 2 → s.cur.unit < 8 → (s.here.engine s.cur.unit).state = 1 →
    (s.here.engine s.cur.unit).job = some j → (s.portAt (.data s.cur.core s.cur.unit s.cur.n)).toks = x :: xs → x.tok.kind.toNat < 2 →
    j.badOffset = false → j.handles = [] → j.needsMore s.cur.n = true → j.empty s.cur.n = true → j.linked = true →
    exec .streamInputToken s = .next ((s.freeHeads (.data s.cur.core s.cur.unit s.cur.n) 1).onJob s.cur.unit fun j => j.take s.cur.n x.tok)) ∧
  (∀ (s : State) (x : Stored) (xs : List Stored), s.cur.n < 2 → s.cur.unit < 8 → (s.here.engine s.cur.unit).job = none →
    (s.portAt (.data s.cur.core s.cur.unit s.cur.n)).toks = x :: xs → x.tok.kind = 3 →
    ∃ t, exec .streamDrainInput s = .next t ∧ (t.portAt (.data s.cur.core s.cur.unit s.cur.n)).toks = xs ∧
      (t.portAt (.data s.cur.core s.cur.unit s.cur.n)).closed = true ∧ t.mem = s.mem)

/-- R152, R158, R161, R162, R165; STREAM_DRAIN_SEND’s conditions are log entry 42, its ROUND 0 log entry 57. -/
def Obligations.StreamEnds : Prop :=
  (∀ (s : State) (j : StreamJob), s.cur.unit < 8 → (s.here.engine s.cur.unit).job = some j → j.walks = false →
    (∀ b ∈ j.beats, b.finished = true) → (∀ f ∈ s.flights, f.src ≠ .stream s.cur.core s.cur.unit) →
    let ends (st : BitVec 2) (res : BitVec 3) : Prop := ∃ t, exec .streamComplete s = .next t ∧ (t.here.engine s.cur.unit).state = st ∧
      (t.here.engine s.cur.unit).result = res ∧ (t.here.engine s.cur.unit).job = none ∧ t.mem = s.mem ∧ t.here.regs = s.here.regs
    (j.ending = none → ends 0 0) ∧ (j.ending = some 1 → ends 0 1) ∧ (j.ending = some 3 → ends 0 3) ∧
    (j.ending = some 2 → ends 3 (s.here.engine s.cur.unit).result) ∧
    (j.ending = none → ctlEvt j.ctl = true → ∃ t, exec .streamComplete s = .next t ∧ t.here.event = true)) ∧
  (∀ (s t : State) (j : StreamJob) (code : BitVec 8) (addr : Word), s.cur.unit < 8 → (s.here.engine s.cur.unit).job = some j →
    (s.here.engine s.cur.unit).state = 1 → j.walks = true → j.beats = [] →
    s.attempt s.cur.core s.cur.unit j = .fault t code addr →
    (code = noAnswer → exec .streamTranslationStop s = .next t) ∧
    (code ≠ noAnswer → exec .streamTranslationStop s = .next (((t.on fun c => c.onEngine s.cur.unit fun e =>
      { e with state := 2, fcode := code, faddr := addr, pos := j.shape.position j.next }).raise s.cur.core code 2 s.cur.unit addr).streamEvent
        s.cur.core j))) ∧
  (∀ s : State, s.cur.unit < 8 → (s.here.boundInputsOf s.cur.unit ≠ [] ∨ (s.here.engine s.cur.unit).drainAsked = true) →
    (s.here.engine s.cur.unit).drainSent = false →
    (∀ j, (s.here.engine s.cur.unit).job = some j → j.late = true) →
    (∀ i ∈ s.here.boundInputsOf s.cur.unit, (s.portAt (.data s.cur.core s.cur.unit i)).closed = true) →
    s.roomFor (needsOf (s.here.streamReceivers s.cur.unit) 1) = true →
    exec .streamDrainSend s = .next ((s.launchTokens (.stream s.cur.core s.cur.unit) (s.here.streamReceivers s.cur.unit)
      [drainToken s.here.cfg.idx 0 0]).on fun c => c.onEngine s.cur.unit fun e => { e with drainSent := true }))

/-- R30, R34, R35, R39, R268. -/
def Obligations.SlotLifeCycle : Prop :=
  let same (c k : Core) (h : BitVec 32) : Prop := ∀ n i, n < 16 → (n ≠ handlePool h ∨ i ≠ handleSlot h) → (k.pool n).slot i = (c.pool n).slot i
  (∀ (c : Core) (n core : Nat) (e : Bool) (i : Nat) (gen : BitVec 8) (k : Core), n < 16 → c.allocate n core e = some (i, gen, k) →
    i < c.poolSize n ∧ ((c.pool n).slot i).state = 0 ∧ (∀ j < i, j ∈ c.grantableSlots n → False) ∧
    ((k.pool n).slot i).state = 1 ∧ ((k.pool n).slot i).pres = [] ∧ ((k.pool n).slot i).count = ((c.pool n).slot i).count + 1 ∧
    gen = ((k.pool n).slot i).count.extractLsb' 0 8 ∧ ((k.pool n).slot i).owner = core ∧
    (∀ m j, m < 16 → (m ≠ n ∨ j ≠ i) → (k.pool m).slot j = (c.pool m).slot j)) ∧
  (∀ (core pool slot : Nat) (gen : BitVec 8), core < 512 → pool < 16 → slot < 2048 →
    handleCore (handleFrom core pool slot gen) = core ∧ handlePool (handleFrom core pool slot gen) = pool ∧
    handleSlot (handleFrom core pool slot gen) = slot ∧ handleGen (handleFrom core pool slot gen) = gen) ∧
  (∀ (c : Core) (h : BitVec 32), (∃ t, c.slotOf h = some t) ↔ h ≠ 0 ∧ handleSlot h < c.poolSize (handlePool h) ∧
    ((c.pool (handlePool h)).slot (handleSlot h)).state ≠ 0 ∧
    ((c.pool (handlePool h)).slot (handleSlot h)).count.extractLsb' 0 8 = h.extractLsb' 0 8) ∧
  (∀ (c : Core) (h : BitVec 32) (n : BitVec 8),
    (c.slotOf h = none → c.publish h n = .error 0x30) ∧
    (∀ t, c.slotOf h = some t → t.state = 2 → c.publish h n = .error 0x32) ∧
    (∀ t, c.slotOf h = some t → t.state ≠ 2 → ∃ k, c.publish h n = .ok k ∧ same c k h ∧
      ((k.pool (handlePool h)).slot (handleSlot h)).state = (if n = 0 then 0 else 2) ∧
      (n ≠ 0 → ((k.pool (handlePool h)).slot (handleSlot h)).n = n))) ∧
  (∀ (c : Core) (h : BitVec 32) (m : BitVec 8),
    (c.slotOf h = none → c.abandon h m = .error 0x30) ∧
    (∀ t, c.slotOf h = some t → t.state = 2 → t.n.toNat < m.toNat → c.abandon h m = .error 0x36) ∧
    (∀ t, c.slotOf h = some t → (t.state = 1 ∨ t.n = m) → ∃ k, c.abandon h m = .ok k ∧ same c k h ∧
      ((k.pool (handlePool h)).slot (handleSlot h)).state = 0) ∧
    (∀ t, c.slotOf h = some t → t.state = 2 → m.toNat < t.n.toNat → ∃ k, c.abandon h m = .ok k ∧ same c k h ∧
      ((k.pool (handlePool h)).slot (handleSlot h)).state = 2 ∧ ((k.pool (handlePool h)).slot (handleSlot h)).n.toNat = t.n.toNat - m.toNat)) ∧
  (∀ t : Slot, (1 < t.n.toNat → t.consume.state = t.state ∧ t.consume.n.toNat = t.n.toNat - 1) ∧ (t.n.toNat ≤ 1 → t.consume.state = 0))

/-- R35, R39, R268, R275–R282. -/
def Obligations.PoolCommandsAtHome : Prop :=
  let begun (c : Core) : Core := { c with nextId := c.nextId + 1 }
  let answers (i : Instr) (s : State) (d : SReg) (v : Word) (k : Core) : Prop :=
    CompletesIn i s s 4 fun _ => ({ k with wait := .none } : Core).setReg d v
  let trapped (i : Instr) (s : State) (code : BitVec 8) (v : Word) : Prop := s.here.tin = false → misaligned (s.here.finish 4).pc = false →
    exec i s = .next (s.on fun c => ({ begun c with wait := .none } : Core).enterTrap c.pc (trapCause code 0 0 false) v)
  let home (s : State) (p : PReg) (h : BitVec 32) : Prop := s.here.pred p = true ∧ handleCore h = s.cur.core ∧
    s.cur.core < s.variant.coreCount ∧ s.inPartition s.cur.core s.cur.core = true
  let flag (b : Bool) : Nat := if b then 1 else 0
  let queried (c : Core) (h : BitVec 32) (w : Word) : Word :=
    let n := handlePool h
    let field (fn : Nat) : BitVec 16 := fieldOf c.cfg.active (0x40 + n) fn
    let t := (c.pool n).slot (handleSlot h)
    let sel := (w.extractLsb' 0 4).toNat
    if sel = 0 then BitVec.ofNat 64 ((field 2).toNat + c.poolSize n * 2 ^ 16 + ((field 1).extractLsb' 0 5).toNat * 2 ^ 28 +
      flag ((field 1).getLsbD 5) * 2 ^ 33 + ((field 3).extractLsb' 0 10).toNat * 2 ^ 34 + flag (c.pool n).pfnc * 2 ^ 48 + flag (c.bankFenced n) * 2 ^ 49)
    else if sel = 1 then BitVec.ofNat 64 (c.freeCount n + c.slotsIn n 1 * 2 ^ 12 + c.slotsIn n 2 * 2 ^ 24 + (c.pool n).reserved * 2 ^ 36 +
      (c.pool n).queue.length * 2 ^ 48)
    else if sel = 2 ∧ handleSlot h < c.poolSize n then BitVec.ofNat 64 (t.state.toNat + t.n.toNat * 2 ^ 8 + (t.count.extractLsb' 0 16).toNat * 2 ^ 16 +
      t.sfmt.toNat * 2 ^ 32 + flag (decide (t.pres.length = c.poolSectors n)) * 2 ^ 36)
    else if sel = 3 then (c.pool n).abflt.setWidth 64
    else if sel = 4 then (c.pool n).frec
    else if sel = 5 then (c.bank (w.extractLsb' 4 4).toNat).bconf.setWidth 64
    else BitVec.allOnes 64
  (∀ d a p (s : State), let h := (s.here.reg a).extractLsb' 0 32
    let n := handlePool h
    let c := begun s.here
    home s p h →
    (c.poolSize n = 0 → answers (.poolAl d a p) s d 0x8000000000000002 c ∧ answers (.poolTal d a p) s d 0x8000000000000002 c) ∧
    (c.poolSize n ≠ 0 → c.fenced n = true →
      answers (.poolAl d a p) s d 0x8000000000000004 c ∧ answers (.poolTal d a p) s d 0x8000000000000004 c) ∧
    (∀ i gen k, c.poolSize n ≠ 0 → c.fenced n = false → c.grantNow n s.cur.core = true → c.allocate n s.cur.core false = some (i, gen, k) →
      answers (.poolAl d a p) s d ((handleFrom s.cur.core n i gen).setWidth 64) k ∧
      answers (.poolTal d a p) s d ((handleFrom s.cur.core n i gen).setWidth 64) k) ∧
    (c.poolSize n ≠ 0 → c.fenced n = false → c.grantNow n s.cur.core = false →
      (misaligned (s.here.finish 4).pc = false → exec (.poolAl d a p) s = .next (s.on fun c => { (begun c).onPool n fun q => { q with queue := q.queue ++ [⟨c.nextId, .seq s.cur.core⟩] } with
        wait := .pool d c.nextId })) ∧
      answers (.poolTal d a p) s d 0x8000000000000001 c)) ∧
  (∀ d a b p (s : State), let h := (s.here.reg a).extractLsb' 0 32
    let m := (s.here.reg b).extractLsb' 0 8
    let c := begun s.here
    home s p h →
    (∀ k, c.publish h m = .ok k → answers (.poolPb d a b p) s d 0 k) ∧
    (∀ code, c.publish h m = .error code → trapped (.poolPb d a b p) s code (h.setWidth 64)) ∧
    (m = 0 → answers (.poolAb d a b p) s d 5 c) ∧
    (∀ k, m ≠ 0 → c.abandon h m = .ok k → answers (.poolAb d a b p) s d 0 k) ∧
    (∀ code, m ≠ 0 → c.abandon h m = .error code → trapped (.poolAb d a b p) s code (h.setWidth 64))) ∧
  (∀ d a b e p (s : State), s.here.pred p = true →
    ((s.here.reg e).toNat % 32 ≠ 0 → TakesTrap (.poolRd d a b e p) s 0x02 (s.here.reg e)) ∧
    ((s.here.reg e).toNat % 32 = 0 → 0x10000 < (s.here.reg e).toNat + 32 → TakesTrap (.poolRd d a b e p) s 0x09 (s.here.reg e))) ∧
  (∀ d a b e p (s : State), let h := (s.here.reg a).extractLsb' 0 32
    let n := handlePool h
    let q := ((s.here.reg b).extractLsb' 0 11).toNat
    let c := begun s.here
    home s p h → (s.here.reg e).toNat % 32 = 0 → (s.here.reg e).toNat + 32 ≤ 0x10000 →
    (c.slotOf h = none → trapped (.poolRd d a b e p) s 0x30 (h.setWidth 64)) ∧
    (∀ t, c.slotOf h = some t →
      (t.state = 1 → trapped (.poolRd d a b e p) s 0x31 (h.setWidth 64)) ∧
      (t.state ≠ 1 → c.poolSectors n ≤ q → answers (.poolRd d a b e p) s d 5 c) ∧
      (t.state ≠ 1 → q < c.poolSectors n → ¬q ∈ t.pres → answers (.poolRd d a b e p) s d 1 c) ∧
      (t.state ≠ 1 → q < c.poolSectors n → q ∈ t.pres →
        let r : BankReq := { port := 0x80, who := .seq s.cur.core, beat := s.here.nextId, handle := h, sector := q,
                             op := .command ((s.here.reg b).getLsbD 16) d (s.here.reg e), num := s.here.nextId + 1 }
        misaligned (s.here.finish 4).pc = false → exec (.poolRd d a b e p) s = .next (s.on fun c =>
          { (begun (begun c)).onBank (placement c.cfg.active n (handleSlot h) q).1 (fun k => { k with queue := k.queue ++ [r] }) with
            wait := .poolReply c.nextId })))) ∧
  (∀ d a b p (s : State), let h := (s.here.reg a).extractLsb' 0 32
    let n := handlePool h
    let c := begun s.here
    home s p h →
    (c.poolSize n = 0 → answers (.poolQry d a b p) s d (if (s.here.reg b).extractLsb' 0 4 = 0 then 0 else BitVec.allOnes 64) c ∧
      answers (.poolFnc d a b p) s d 0x8000000000000002 c ∧ answers (.poolRsv d a b p) s d 2 c) ∧
    (c.poolSize n ≠ 0 →
      answers (.poolQry d a b p) s d (queried c h (s.here.reg b)) c ∧
      ((s.here.reg b).extractLsb' 0 2 = 3 → answers (.poolFnc d a b p) s d 0x8000000000000005 c) ∧
      ((s.here.reg b).extractLsb' 0 2 = 0 → answers (.poolFnc d a b p) s d
        (BitVec.ofNat 64 (4096 + c.slotsIn n 1 + c.slotsIn n 2)) (c.onPool n fun q => { q with pfnc := true })) ∧
      ((s.here.reg b).extractLsb' 0 2 = 1 → answers (.poolFnc d a b p) s d
        (BitVec.ofNat 64 (c.slotsIn n 1 + c.slotsIn n 2)) (c.onPool n fun q => { q with pfnc := false })) ∧
      ((s.here.reg b).extractLsb' 0 2 = 2 → answers (.poolFnc d a b p) s d
        (BitVec.ofNat 64 ((c.pool n).pfnc.toNat * 4096 + c.slotsIn n 1 + c.slotsIn n 2)) c) ∧
      ((s.here.reg b).extractLsb' 0 12 = 0 → answers (.poolRsv d a b p) s d 0
        (c.onPool n fun q => { q with rsv := q.rsv.filter fun r => r.1 != s.cur.core })) ∧
      ((s.here.reg b).extractLsb' 0 12 ≠ 0 → ((c.pool n).pfnc = true ∨ c.bankFenced n = true) → answers (.poolRsv d a b p) s d 4 c) ∧
      ((s.here.reg b).extractLsb' 0 12 ≠ 0 → (c.pool n).pfnc = false → c.bankFenced n = false →
        c.freeCount n < (c.pool n).reserved + ((s.here.reg b).extractLsb' 0 12).toNat → answers (.poolRsv d a b p) s d 1 c) ∧
      (let has := ∃ r ∈ (c.pool n).rsv, r.1 = s.cur.core
       let m := ((s.here.reg b).extractLsb' 0 12).toNat
       m ≠ 0 → (c.pool n).pfnc = false → c.bankFenced n = false → (c.pool n).reserved + m ≤ c.freeCount n →
        (¬has → 8 ≤ (c.pool n).rsv.length → answers (.poolRsv d a b p) s d 6 c) ∧
        (¬has → (c.pool n).rsv.length < 8 → answers (.poolRsv d a b p) s d 0
          (c.onPool n fun q => { q with rsv := q.rsv ++ [(s.cur.core, m)] })) ∧
        (has → answers (.poolRsv d a b p) s d 0
          (c.onPool n fun q => { q with rsv := q.rsv.map fun r => if r.1 = s.cur.core then (s.cur.core, r.2 + m) else r })))))

/-- R33, R275, R276, R268. DENIED before a descriptor is read, and the answer 3 of PB, AB and RD for a core that does not exist, are the model's
reading (log entry 39). -/
def Obligations.PoolCommandsOfOtherCores : Prop :=
  let answers (i : Instr) (s : State) (d : SReg) (v : Word) : Prop := CompletesIn i s s 4 fun c => c.setReg d v
  (∀ d a b e p (s : State), s.here.pred p = true →
    let core := handleCore ((s.here.reg a).extractLsb' 0 32)
    (s.variant.coreCount ≤ core → answers (.poolAl d a p) s d 0x8000000000000002 ∧ answers (.poolTal d a p) s d 0x8000000000000002 ∧
      answers (.poolFnc d a b p) s d 0x8000000000000002 ∧ answers (.poolRsv d a b p) s d 2) ∧
    (core < s.variant.coreCount → s.inPartition s.cur.core core = false → answers (.poolAl d a p) s d 0x8000000000000003 ∧
      answers (.poolTal d a p) s d 0x8000000000000003 ∧ answers (.poolFnc d a b p) s d 0x8000000000000003 ∧
      answers (.poolRsv d a b p) s d 3) ∧
    (s.inPartition s.cur.core core = false → answers (.poolQry d a b p) s d (BitVec.allOnes 64) ∧ answers (.poolPb d a b p) s d 3 ∧
      answers (.poolAb d a b p) s d 3 ∧
      ((s.here.reg e).toNat % 32 = 0 → (s.here.reg e).toNat + 32 ≤ 0x10000 → answers (.poolRd d a b e p) s d 3))) ∧
  (∀ d a b e p (s : State), s.here.pred p = true →
    let core := handleCore ((s.here.reg a).extractLsb' 0 32)
    let sent (sub : BitVec 3) (y : Word) : State := s.send s.cur.core core (.poolRequest ⟨sub, s.here.reg a, y, 0⟩ d s.here.nextId)
    core < s.variant.coreCount → s.inPartition s.cur.core core = true → core ≠ s.cur.core → misaligned (s.here.finish 4).pc = false →
    exec (.poolAl d a p) s = .next ((sent 0 0).on fun c => { c with nextId := c.nextId + 1, wait := .pool d c.nextId }) ∧
    CompletesIn (.poolTal d a p) s (sent 1 0) 4 (fun c => { c with nextId := c.nextId + 1, awaited := d :: c.awaited }) ∧
    exec (.poolPb d a b p) s = .next ((sent 2 (s.here.reg b)).on fun c => { c with nextId := c.nextId + 1, wait := .poolReply c.nextId }) ∧
    exec (.poolAb d a b p) s = .next ((sent 4 (s.here.reg b)).on fun c => { c with nextId := c.nextId + 1, wait := .poolReply c.nextId }) ∧
    ((s.here.reg e).toNat % 32 = 0 → (s.here.reg e).toNat + 32 ≤ 0x10000 → exec (.poolRd d a b e p) s =
      .next ((s.send s.cur.core core (.poolRequest ⟨3, s.here.reg a, s.here.reg b, s.here.reg e⟩ d s.here.nextId)).on
        fun c => { c with nextId := c.nextId + 1, wait := .poolReply c.nextId })) ∧
    exec (.poolQry d a b p) s = .next ((sent 5 (s.here.reg b)).on fun c => { c with nextId := c.nextId + 1, wait := .poolReply c.nextId }) ∧
    exec (.poolFnc d a b p) s = .next ((sent 6 (s.here.reg b)).on fun c => { c with nextId := c.nextId + 1, wait := .poolReply c.nextId }) ∧
    exec (.poolRsv d a b p) s = .next ((sent 7 (s.here.reg b)).on fun c => { c with nextId := c.nextId + 1, wait := .poolReply c.nextId })) ∧
  (∀ (s t : State) (src dst id : Nat) (cmd : PoolCommand) (d : SReg) (tag : BitVec 6),
    s.arriving s.cur.n = some ⟨src, dst, .poolRequest cmd d id, tag⟩ →
    (∀ r : PoolReply, (s.takePacket s.cur.n).poolApply src dst cmd d id = (t, some r) →
      exec .poolRemoteRequest s = .next (t.send dst src (.poolReply r d id))) ∧
    ((s.takePacket s.cur.n).poolApply src dst cmd d id = (t, none) → exec .poolRemoteRequest s = .next t)) ∧
  (∀ (s : State) (src dst : Nat) (r : BankReq) (tag : BitVec 6), s.arriving s.cur.n = some ⟨src, dst, .bankRequest r, tag⟩ →
    exec .poolRemoteRequest s = .next ((s.takePacket s.cur.n).presentRequest r)) ∧
  (∀ (s : State) (src dst pool : Nat) (r : AllocReq) (tag : BitVec 6), s.arriving s.cur.n = some ⟨src, dst, .allocRequest pool r, tag⟩ →
    exec .poolRemoteRequest s = .next ((s.takePacket s.cur.n).onCore dst fun c => c.onPool pool fun p => { p with queue := p.queue ++ [r] })) ∧
  (∀ (s : State) (src id : Nat) (d : SReg) (v : Word) (tag : BitVec 6),
    s.arriving s.cur.n = some ⟨src, s.cur.core, .poolReply (.value v) d id, tag⟩ →
    (s.here.wait = .poolReply id → CompletesIn .poolRemoteReply s (s.takePacket s.cur.n) 4 fun c => ({ c with wait := .none } : Core).setReg d v) ∧
    (s.here.wait = .none → exec .poolRemoteReply s = .next ((s.takePacket s.cur.n).on fun c =>
      ({ c with awaited := c.awaited.erase d } : Core).setReg d v))) ∧
  (∀ (s : State) (src id : Nat) (d : SReg) (v at_ : Word) (data : Payload) (tag : BitVec 6),
    s.arriving s.cur.n = some ⟨src, s.cur.core, .poolReply (.sector v at_ data) d id, tag⟩ → s.here.wait = .poolReply id →
    CompletesIn .poolRemoteReply s (s.takePacket s.cur.n) 4 fun c =>
      ({ writeScratch c at_.toNat data.toNat 32 with wait := .none } : Core).setReg d v) ∧
  (∀ (s : State) (d : SReg) (q : AllocReq) (qs : List AllocReq) (i : Nat) (gen : BitVec 8) (k : Core), s.cur.n = 0 → s.cur.unit < 16 →
    (s.here.pool s.cur.unit).queue = q :: qs → q.who = .seq s.cur.core → s.here.wait = .pool d q.id →
    s.here.mayGrant s.cur.unit s.cur.core = true → s.here.allocate s.cur.unit s.cur.core false = some (i, gen, k) →
    CompletesIn .poolAllocGrant s s 4 fun _ =>
      ({ k.onPool s.cur.unit fun p => { p with queue := p.queue.eraseIdx 0 } with wait := .none } : Core).setReg d
        ((handleFrom s.cur.core s.cur.unit i gen).setWidth 64))

/-- R33, R44, R45, R238, R267, R274. Each copy of a probe keeps the waits that it has passed (the model's choice, log entry 63). -/
def Obligations.BanksAndProbes : Prop :=
  (∀ (s : State) (r : BankReq) (t : Slot) (data : Payload) (fmt : BitVec 4) (taint : Bool) (ea : Nat),
    (s.here.bank s.cur.unit).queue = [r] → s.cur.unit < 16 → s.cur.m = 0 → r.op = .write data fmt taint → r.who = .elem s.cur.core ea → ea < 64 →
    s.here.slotOf r.handle = some t → ¬r.sector ∈ t.pres → (t.pres = [] ∨ t.sfmt = fmt) →
    ∃ u, exec .bankAccess s = .next u ∧
      Sparse.get 0 u.here.sram (sectorKey (placement s.here.cfg.active (handlePool r.handle) (handleSlot r.handle) r.sector)) = data ∧
      r.sector ∈ ((u.here.pool (handlePool r.handle)).slot (handleSlot r.handle)).pres ∧
      ((u.here.pool (handlePool r.handle)).slot (handleSlot r.handle)).sfmt = (if t.pres = [] then fmt else t.sfmt) ∧ u.mem = s.mem) ∧
  (∀ (s : State) (r : BankReq) (t : Slot) (k e : Nat) (j : StreamJob) (b : Beat), (s.here.bank s.cur.unit).queue = [r] → s.cur.unit < 16 → s.cur.m = 0 → k < 8 →
    r.op = .read false → r.who = .stream s.cur.core k e → s.here.slotOf r.handle = some t → t.state = 2 → r.sector ∈ t.pres →
    (s.here.engine k).job = some j → b ∈ j.beats → b.n = r.beat →
    ∃ u j', exec .bankAccess s = .next u ∧ (u.here.engine k).job = some j' ∧ ∃ b' ∈ j'.beats, b'.n = r.beat ∧
      b'.data = some (Sparse.get 0 s.here.sram (sectorKey (placement s.here.cfg.active (handlePool r.handle) (handleSlot r.handle) r.sector)),
        Sparse.get false s.here.sramTaint (sectorKey (placement s.here.cfg.active (handlePool r.handle) (handleSlot r.handle) r.sector)))) ∧
  (∀ (s : State) (r : BankReq) (t : Slot) (cons : Bool) (d : SReg) (at_ : Word), (s.here.bank s.cur.unit).queue = [r] → s.cur.unit < 16 →
    s.cur.m = 0 → r.op = .command cons d at_ → r.who = .seq s.cur.core → s.here.wait = .poolReply r.beat → s.here.slotOf r.handle = some t →
    r.sector ∈ t.pres → d ≠ 0 → at_.toNat + 32 ≤ 0x10000 → misaligned (s.here.finish 4).pc = false →
    ∃ u, exec .bankAccess s = .next u ∧ u.here.wait = .none ∧ u.here.reg d = t.sfmt.setWidth 64 <<< 8 ∧ u.mem = s.mem ∧
      u.here.pc = (s.here.finish 4).pc ∧ readScratch u.here at_.toNat 32 =
        (Sparse.get 0 s.here.sram (sectorKey (placement s.here.cfg.active (handlePool r.handle) (handleSlot r.handle) r.sector))).toNat ∧
      (cons = true → ((u.here.pool (handlePool r.handle)).slot (handleSlot r.handle)).n = t.consume.n) ∧
      (cons = false → ((u.here.pool (handlePool r.handle)).slot (handleSlot r.handle)).n = t.n)) ∧
  (∀ (s : State) (p : PrqRead) (t : Token) (rest : List PrqRead), s.elem.prq = p :: rest → p.reply = some t →
    opcodeOf s.here.cfg.active s.cur.unit = 0x83 → (eowField s.here.cfg.active s.cur.unit).extractLsb' 37 2 = 1 →
    exec .poolReadReply s = .next { s.onElem (fun e => { e with prq := rest }) with
      flights := s.flights ++ ((s.onElem fun e => { e with prq := rest }).here.receivers s.cur.unit 0).map fun r =>
        ({ src := .elem s.cur.core s.cur.unit 0, dst := r.2, entry := r.1, pos := none,
           tok := { t with vc := (eowField s.here.cfg.active s.cur.unit).extractLsb' 24 5, round := s.elem.rnd } } : Flight) }) ∧
  (∀ (s : State) (m : PartMove), s.moves[s.cur.n]? = some m → m.done = false → s.bankBusy m.core m.bank = false →
    exec .bankMove s = .next (s.onCore m.core fun c => c.onBank m.bank fun k => { k with zeroising := true })) ∧
  (∀ (s : State) (m : PartMove), s.moves[s.cur.n]? = some m → m.done = false → s.journal.records = [] →
    ((s.core m.core).bank m.bank).zeroising = true → m.bank < 16 →
    ∃ t, exec .bankZeroiseComplete s = .next t ∧ (∀ k, k / 2048 = m.bank → Sparse.get 0 (t.core m.core).sram k = 0) ∧
      (∀ k, k / 2048 ≠ m.bank → Sparse.get 0 (t.core m.core).sram k = Sparse.get 0 (s.core m.core).sram k) ∧ t.mem = s.mem) ∧
  (∀ (s : State) (t : TxRecord), s.tx s.cur.n = some t → t.state = .applying →
    (if t.trial = 0 then s.trialDefault (scopePart t.scope) else t.trial) ≤ t.age →
    (∃ e ∈ t.entries, (keyType e.key = 1 ∧ (keyIsCore e.key = false ∨ t.kind = kindRevert)) ∨ e.isGeom = true) →
    exec .bankBusyExpiry s = .next (s.refuseTx t.num 3).settleJournal) ∧
  (∀ (s : State) (b : BlockedWait), s.here.waits[s.cur.n]? = some b → (s.here.cycle - b.since).toNat < 65536 * (b.sent + 1) →
    exec .allocWaitProbeTimer s = .next s ∧ exec .parkedReadProbeTimer s = .next s) ∧
  (∀ (s : State) (b : BlockedWait) (w : WaitView), s.here.waits[s.cur.n]? = some b → 65536 * (b.sent + 1) ≤ (s.here.cycle - b.since).toNat →
    (s.blockedWaits s.cur.core).find? (fun w => b.isOf w) = some w →
    let counted := s.on fun c => { c with waits := c.waits.set s.cur.n { b with sent := b.sent + 1 } }
    let sent := counted.sendProbe s.cur.core 0 [b.stop s.cur.core] w.targets
    let after := if s.cur.core ∈ w.targets then sent.judgeProbe s.cur.core 0 1 [b.stop s.cur.core] else sent
    (b.srck ≠ 3 → exec .allocWaitProbeTimer s = .next after ∧ exec .parkedReadProbeTimer s = .next s) ∧
    (b.srck = 3 → exec .parkedReadProbeTimer s = .next after ∧ exec .allocWaitProbeTimer s = .next s)) ∧
  (∀ (s : State) (core hops : Nat) (path : List ProbeStop) (targets : List Nat),
    (384 ≤ hops + 1 → s.sendProbe core hops path targets = s) ∧
    (hops + 1 < 384 → s.sendProbe core hops path targets =
      (targets.filter fun t => t ≠ core).foldl (fun s t => s.send core t (.probe (hops + 1) path)) s)) ∧
  (∀ (s : State) (core hops n : Nat) (path : List ProbeStop),
    s.judgeProbe core hops (n + 1) path = ((s.recordedWaits core).filter fun w => ¬w.1.stop core ∈ path).foldl (fun u w =>
      let v := u.sendProbe core hops (path ++ [w.1.stop core]) w.2
      if core ∈ w.2 then v.judgeProbe core hops n (path ++ [w.1.stop core]) else v) s) ∧
  (∀ (s : State) (src dst hops : Nat) (o : ProbeStop) (path : List ProbeStop) (tag : BitVec 6),
    s.arriving s.cur.n = some ⟨src, dst, .probe hops (o :: path), tag⟩ →
    let t := (s.takePacket s.cur.n).syncWaitsAt dst
    (o.core ≠ dst → exec .probeArrival s = .next (t.judgeProbe dst hops 1 (o :: path))) ∧
    (o.core = dst → (∀ b ∈ (t.core dst).waits, b.stop dst ≠ o) → exec .probeArrival s = .next t) ∧
    (o.core = dst → (∃ b ∈ (t.core dst).waits, b.stop dst = o) →
      exec .probeArrival s = .next ((((o :: path).map (·.core)).eraseDups).foldl (fun t c => t.reportCycle dst (o :: path) c) t))) ∧
  (∀ (s : State) (origin core : Nat) (path : List ProbeStop) (p : ProbeStop),
    lowestStop (path.filter fun p => p.core == core) = some p →
    p ∈ path ∧ p.core = core ∧ (∀ q ∈ path, q.core = core → p.srck.toNat < q.srck.toNat ∨ (p.srck = q.srck ∧ p.unit ≤ q.unit)) ∧
    (p.num ∈ (s.core core).told → s.reportCycle origin path core = s) ∧
    (¬p.num ∈ (s.core core).told → s.reportCycle origin path core =
      (s.onCore core fun c => { c with told := c.told ++ [p.num] }).raise core 0x34 p.srck p.unit (BitVec.ofNat 64 (nextCore origin p path)))) ∧
  (∀ (origin : Nat) (p : ProbeStop) (before after : List ProbeStop), ¬p ∈ before →
    nextCore origin p (before ++ p :: after) = ((after.find? fun x => x.core != p.core).map (·.core)).getD origin)

namespace Sys2Proof

/-- Lane `j` of width `lw` of the source that a code names: of the token at an input's head, or the low bits of K0 or K1 (R185, R193). -/
def sourceLane (s : State) (src : BitVec 3) (lw j : Nat) : Nat :=
  if src.toNat < 4 then ((s.elem.head src.toNat).map fun t => t.payload.toNat / 2 ^ (lw * j) % 2 ^ lw).getD 0
  else if src.toNat < 6 then (constantOf s.here.cfg.active s.cur.unit (src.toNat - 4)).toNat % 2 ^ lw
  else 0

/-- The inputs `is` hold groups of `n` tokens of DATA or RECORD, and no round skew stands at them (R174, R176, R195). -/
def MayTake (s : State) (is : List Nat) (n : Nat) : Prop := s.elem.skewed is n false true = [] ∧ s.elem.ready is n = true

/-- The operation may fire: groups of `n` DATA tokens of an accepted format at every named input, and room for `outN` tokens in every
receiver of both outputs (R38, R62, R174, R193). -/
def MayFire (s : State) (w : Eow) (n outN : Nat) (ok : Nat → Bool) : Prop :=
  MayTake s (namedInputs w) n ∧
  (∀ i ∈ namedInputs w, ∀ t ∈ s.elem.group i n, t.kind = kindData ∧ ∃ f, formatAt s.here.cfg.active s.cur.unit t = some f ∧ ok f = true) ∧
  s.roomFor (needsOf (s.outs w 0) outN ++ needsOf (s.outs w 1) outN) = true

/-- The state after a firing with payloads `ps` and status `st`: the groups consumed, the same tokens on both outputs with the row of
SA's last token and its E bits on the last, the firing counted, its status in FSTAT (R57, R63, R196, R197, R443). -/
def firing (s : State) (w : Eow) (n : Nat) (ps : List Payload) (st : Status) : State :=
  let is := namedInputs w
  let k := s.carried w is n
  let toks := ps.mapIdx fun j p => s.dataToken w p (if j = ps.length - 1 then k else { k with e := 0 })
  (((s.consumeAll is n).emitOn w 0 toks).emitOn w 1 toks).fired st.toBits (s.endsTile w n)

/-- The status of a firing is that of its `n` lanes together. -/
def Gathers (st : Status) (n : Nat) (f : Nat → Status) : Prop := st = (List.range n).foldl (fun a j => a.or (f j)) Status.none

/-- An elementwise operation fires with one token an input and writes one: `P s j a b c out st` relates lane `j` of its operands to the
lane written and the status of that lane. -/
def LanesGive (i : Instr) (w : Eow) (P : State → Nat → Nat → Nat → Nat → Nat → Status → Prop) : Prop :=
  ∀ s : State, MayFire s w 1 1 (· == tyOf w) →
    ∃ (p : Payload) (st : Status) (f : Nat → Status),
      exec i s = .next (firing s w 1 [p] st) ∧ Gathers st (256 / laneWidth (tyOf w)) f ∧
      ∀ j < 256 / laneWidth (tyOf w),
        P s j (sourceLane s w.sa (laneWidth (tyOf w)) j) (sourceLane s w.sb (laneWidth (tyOf w)) j)
          (sourceLane s w.sc (laneWidth (tyOf w)) j) (lane p (laneWidth (tyOf w)) j) (f j)

/-- A firing that takes one token from each input of a list, of kinds that the operation admits, with room for what it writes. -/
def MayPass (s : State) (is : List (Nat × Admits)) (must : Bool) (ns : Needs) : Prop :=
  s.elem.skewed (is.map (·.1)) 1 must true = [] ∧ s.elem.ready (is.map (·.1)) 1 = true ∧
  (∀ i ∈ is, ∀ t, s.elem.head i.1 = some t → i.2.refuses t = none) ∧ s.roomFor ns = true

/-- The operations that take the same group from every named input and write the same tokens on both outputs, each with its word, the
tokens of a group, the tokens written and the format code of its operands. -/
def groupForm : Instr → Option (Eow × Nat × Nat × Nat)
  | .fadd w | .fsub w | .fmul w | .fma w | .fms w | .fnma w | .fmin w | .fmax w | .fabs w | .fneg w | .fcps w => some (w, 1, 1, tyOf w)
  | .frcp w | .frsq w | .fsqrt w | .fex2 w | .flg2 w | .fcmp w | .fcls w => some (w, 1, 1, tyOf w)
  | .iadd w | .isub w | .iadds w | .isubs w | .imul w | .imulh w | .imad w | .imulq w | .imin w | .imax w => some (w, 1, 1, tyOf w)
  | .iabs w | .iand w | .ior w | .ixor w | .inot w | .ishl w | .ishr w | .isha w | .icmp w | .iclz w => some (w, 1, 1, tyOf w)
  | .clmp w | .selLanes w | .shuf w | .bcst w | .rotl w | .slid w | .iota w => some (w, 1, 1, tyOf w)
  | .rsum w | .rmax w | .rmin w | .dot w => some (w, 1, 1, tyOf w)
  | .cvt w => some (w, 2 ^ w.rin.toNat, 2 ^ w.rout.toNat, w.aux.toNat % 16)
  | _ => none

end Sys2Proof

/-- R38, R62, R174, R176, R194, R221, R443. -/
def Obligations.ElementOperationsWaitOrTrap : Prop :=
  ∀ (i : Instr) (w : Eow) (n outN code : Nat), groupForm i = some (w, n, outN, code) → ∀ s : State,
    let is := namedInputs w
    let bad := s.elem.skewed is n false true
    let ns := needsOf (s.outs w 0) outN ++ needsOf (s.outs w 1) outN
    (bad ≠ [] → exec i s = .next (((s.halt s.cur.core s.cur.unit).raise s.cur.core 0x23 1 s.cur.unit ((maskOf bad).setWidth 64)))) ∧
    (bad = [] → s.elem.ready is n = false → exec i s = .next (s.onElem fun e => e.tally 2 1)) ∧
    (∀ (pre post : List Nat) (k : Nat) (t : Token) (r f : Nat), MayTake s is n → is = pre ++ k :: post →
      (∀ q ∈ pre, ∀ x ∈ s.elem.group q n, refusal s.here.cfg.active s.cur.unit (· == code) x = none) →
      (∃ as bs, s.elem.group k n = as ++ t :: bs ∧ ∀ x ∈ as, refusal s.here.cfg.active s.cur.unit (· == code) x = none) →
      refusal s.here.cfg.active s.cur.unit (· == code) t = some (r, f) →
      exec i s = .next ((s.halt s.cur.core s.cur.unit).raise s.cur.core 0x25 1 s.cur.unit
        (BitVec.ofNat 64 (r * 2 ^ 20 + f * 2 ^ 16 + k * 2 ^ 8 + s.cur.unit)))) ∧
    (MayTake s is n → (∀ k ∈ is, ∀ t ∈ s.elem.group k n, refusal s.here.cfg.active s.cur.unit (· == code) t = none) →
      s.roomFor ns = false → exec i s = .next (s.onElem fun e => { e.tally 1 1 with blocked := some (s.lacking ns) }))

/-- R193, R206, R207. -/
def Obligations.IntegerElementOperations : Prop :=
  ∀ w : Eow,
    let lw := laneWidth (tyOf w)
    let v (x : Nat) : Int := intValue (tyOf w) x
    let narrowed (x : Int) (out : Nat) (st : Status) : Prop :=
      out < 2 ^ lw ∧
      (w.md.getLsbD 3 = true → v out = max (intRange (tyOf w)).1 (min (intRange (tyOf w)).2 x) ∧
        st = { Status.none with sat := decide (x < (intRange (tyOf w)).1 ∨ (intRange (tyOf w)).2 < x) }) ∧
      (w.md.getLsbD 3 = false → (out : Int) = x % 2 ^ lw ∧ st = Status.none)
    let kept (x : Int) (out : Nat) (st : Status) : Prop := (out : Int) = x % 2 ^ lw ∧ st = Status.none
    let bits (f : Nat → Bool) (out : Nat) (st : Status) : Prop := out < 2 ^ lw ∧ (∀ k < lw, out.testBit k = f k) ∧ st = Status.none
    let sh := w.imm.toNat % 32
    let half : Int := if sh = 0 then 0 else 2 ^ (sh - 1)
    LanesGive (.iadd w) w (fun _ _ a b _ out st => narrowed (v a + v b) out st) ∧
    LanesGive (.isub w) w (fun _ _ a b _ out st => narrowed (v a - v b) out st) ∧
    LanesGive (.iadds w) w (fun _ _ a b _ out st => narrowed ((v a + v b + half) / 2 ^ sh) out st) ∧
    LanesGive (.isubs w) w (fun _ _ a b _ out st => narrowed ((v a - v b + half) / 2 ^ sh) out st) ∧
    LanesGive (.imul w) w (fun _ _ a b _ out st => kept (v a * v b) out st) ∧
    LanesGive (.imulh w) w (fun _ _ a b _ out st => kept (v a * v b / 2 ^ lw) out st) ∧
    LanesGive (.imad w) w (fun _ _ a b c out st => narrowed (v a * v b + v c) out st) ∧
    LanesGive (.imulq w) w (fun _ _ a b _ out st => narrowed ((v a * v b + half) / 2 ^ sh) out st) ∧
    LanesGive (.imin w) w (fun _ _ a b _ out st => v out = min (v a) (v b) ∧ st = Status.none) ∧
    LanesGive (.imax w) w (fun _ _ a b _ out st => v out = max (v a) (v b) ∧ st = Status.none) ∧
    LanesGive (.iabs w) w (fun _ _ a _ _ out st => narrowed (v a).natAbs out st) ∧
    LanesGive (.iand w) w (fun _ _ a b _ out st => bits (fun k => a.testBit k && b.testBit k) out st) ∧
    LanesGive (.ior w) w (fun _ _ a b _ out st => bits (fun k => a.testBit k || b.testBit k) out st) ∧
    LanesGive (.ixor w) w (fun _ _ a b _ out st => bits (fun k => a.testBit k != b.testBit k) out st) ∧
    LanesGive (.inot w) w (fun _ _ a _ _ out st => bits (fun k => !a.testBit k) out st) ∧
    LanesGive (.ishl w) w (fun _ _ a b _ out st => bits (fun k => decide (b ≤ k) && a.testBit (k - b)) out st) ∧
    LanesGive (.ishr w) w (fun _ _ a b _ out st => bits (fun k => a.testBit (k + b)) out st) ∧
    LanesGive (.isha w) w (fun _ _ a b _ out st => out < 2 ^ lw ∧ v out = v a / 2 ^ b ∧ st = Status.none) ∧
    LanesGive (.iclz w) w (fun _ _ a _ _ out st => out ≤ lw ∧ a < 2 ^ (lw - out) ∧ (out < lw → 2 ^ (lw - out - 1) ≤ a) ∧ st = Status.none) ∧
    LanesGive (.icmp w) w (fun _ _ a b _ out st => st = Status.none ∧
      (w.aux.toNat % 8 = 0 → out = if a = b then 2 ^ lw - 1 else 0) ∧ (w.aux.toNat % 8 = 1 → out = if a ≠ b then 2 ^ lw - 1 else 0) ∧
      (w.aux.toNat % 8 = 2 → out = if v a < v b then 2 ^ lw - 1 else 0) ∧ (w.aux.toNat % 8 = 3 → out = if v a ≤ v b then 2 ^ lw - 1 else 0) ∧
      (w.aux.toNat % 8 = 4 → out = if a < b then 2 ^ lw - 1 else 0) ∧ (w.aux.toNat % 8 = 5 → out = if a ≤ b then 2 ^ lw - 1 else 0))

/-- R193, R201–R205. -/
def Obligations.FloatElementOperations : Prop :=
  ∀ (w : Eow) (ft : FloatFmt), tyOf w < 3 → floatFmt (tyOf w) = some ft →
    let lw := laneWidth (tyOf w)
    let V (x : Nat) : FVal := decodeFloat ft x
    let is (out : Nat) (st : Status) (r : Nat × Status) : Prop := out = r.1 % 2 ^ lw ∧ st = r.2
    let nan (out : Nat) (st : Status) (xs : List FVal) : Prop := xs.any (·.isNan) = true →
      some out = ft.nan ∧ st = { Status.none with nv := xs.any (·.signalling) }
    let signed (xs : List FVal) (mag : Nat) (neg : Bool) (out : Nat) (st : Status) : Prop :=
      nan out st xs ∧ (xs.any (·.isNan) = false → out = mag % 2 ^ (lw - 1) + (if neg then 2 ^ (lw - 1) else 0) ∧ st = Status.none)
    let one : Nat := ft.bias * 2 ^ ft.mw
    let inf : Nat := (2 ^ ft.ew - 1) * 2 ^ ft.mw
    let minus : Nat := 2 ^ (lw - 1)
    let dz : Status := { Status.none with dz := true }
    let special (a out : Nat) (st : Status) (rows : List (Nat × Nat × Status)) : Prop := ∀ r ∈ rows, a = r.1 → out = r.2.1 ∧ st = r.2.2
    let negative (a out : Nat) (st : Status) : Prop := minus < a → (V a).isNan = false →
      some out = ft.nan ∧ st = { Status.none with nv := true }
    LanesGive (.fadd w) w (fun s j a b _ out st => is out st (fadd ft (s.rounding w j) (V a) (V b)) ∧ nan out st [V a, V b]) ∧
    LanesGive (.fsub w) w (fun s j a b _ out st => is out st (fadd ft (s.rounding w j) (V a) (V b).negate) ∧ nan out st [V a, V b]) ∧
    LanesGive (.fmul w) w (fun s j a b _ out st => is out st (fmul ft (s.rounding w j) (V a) (V b)) ∧ nan out st [V a, V b]) ∧
    LanesGive (.fma w) w (fun s j a b c out st => is out st (ffma ft (s.rounding w j) (V a) (V b) (V c)) ∧
      (∀ x, FVal.mul (V a) (V b) = (x, false) → nan out st [V a, V b, V c])) ∧
    LanesGive (.fms w) w (fun s j a b c out st => is out st (ffma ft (s.rounding w j) (V a) (V b) (V c).negate)) ∧
    LanesGive (.fnma w) w (fun s j a b c out st => is out st (ffma ft (s.rounding w j) (V a).negate (V b) (V c))) ∧
    LanesGive (.fmin w) w (fun _ _ a b _ out st => nan out st [V a, V b] ∧
      ((V a).isNan = false → (V b).isNan = false → st = Status.none ∧ out = if (V a).below (V b) then a else b)) ∧
    LanesGive (.fmax w) w (fun _ _ a b _ out st => nan out st [V a, V b] ∧
      ((V a).isNan = false → (V b).isNan = false → st = Status.none ∧ out = if (V b).below (V a) then a else b)) ∧
    LanesGive (.fabs w) w (fun _ _ a _ _ out st => signed [V a] a false out st) ∧
    LanesGive (.fneg w) w (fun _ _ a _ _ out st => signed [V a] a (!a.testBit (lw - 1)) out st) ∧
    LanesGive (.fcps w) w (fun _ _ a b _ out st => signed [V a, V b] a (b.testBit (lw - 1)) out st) ∧
    LanesGive (.frcp w) w (fun _ _ a _ _ out st => is out st (recip ft (V a)) ∧ nan out st [V a] ∧
      special a out st [(0, inf, dz), (minus, inf + minus, dz), (inf, 0, Status.none), (inf + minus, minus, Status.none), (one, one, Status.none)]) ∧
    LanesGive (.frsq w) w (fun _ _ a _ _ out st => is out st (recipRoot ft (V a)) ∧ nan out st [V a] ∧ negative a out st ∧
      special a out st [(0, inf, dz), (minus, inf + minus, dz), (inf, 0, Status.none), (one, one, Status.none)]) ∧
    LanesGive (.fsqrt w) w (fun _ _ a _ _ out st => is out st (root ft (V a)) ∧ nan out st [V a] ∧ negative a out st ∧
      special a out st [(0, 0, Status.none), (minus, minus, Status.none), (inf, inf, Status.none), (one, one, Status.none)]) ∧
    LanesGive (.fex2 w) w (fun _ _ a _ _ out st => is out st (power2 ft (V a)) ∧ nan out st [V a] ∧
      special a out st [(0, one, Status.none), (minus, one, Status.none), (inf, inf, Status.none), (inf + minus, 0, Status.none),
        (one, one + 2 ^ ft.mw, Status.none)]) ∧
    LanesGive (.flg2 w) w (fun _ _ a _ _ out st => is out st (logarithm2 ft (V a)) ∧ nan out st [V a] ∧ negative a out st ∧
      special a out st [(0, inf + minus, dz), (minus, inf + minus, dz), (inf, inf, Status.none), (one, 0, Status.none)]) ∧
    LanesGive (.fcmp w) w (fun _ _ a b _ out st =>
      let k := w.aux.toNat % 8
      let anyNan := (V a).isNan || (V b).isNan
      st = { Status.none with nv := (V a).signalling || (V b).signalling || (anyNan && (k == 2 || k == 3)) } ∧
      (k = 0 → out = if anyNan = false ∧ (V a).same (V b) = true then one else 0) ∧
      (k = 1 → out = if anyNan = true ∨ (V a).same (V b) = false then one else 0) ∧
      (k = 2 → out = if anyNan = false ∧ (V a).same (V b) = false ∧ (V a).below (V b) = true then one else 0) ∧
      (k = 3 → out = if anyNan = false ∧ ((V a).same (V b) = true ∨ (V a).below (V b) = true) then one else 0) ∧
      (k = 4 → out = if anyNan = true then one else 0)) ∧
    LanesGive (.fcls w) w (fun _ _ a _ _ out st => st = Status.none ∧
      ∃ d : Dy, V out = .fin d ∧ d.neg = false ∧ d.eq ⟨false, classOf ft a, 0⟩ = true)

/-- R48, R49, R54. -/
def Obligations.RepresentableValuesRoundToThemselves : Prop :=
  ∀ (code : Nat) (f : FloatFmt) (r : Rounding) (b : Nat) (d : Dy), floatFmt code = some f → b < 2 ^ f.width → decodeFloat f b = .fin d →
    roundDy f r d = (b, Status.none)

namespace Sys2Proof

/-- Groups of `n` DATA tokens of an accepted format stand at the inputs `is` (R62, R174, R195). -/
def MayConsume (s : State) (is : List Nat) (n : Nat) (ok : Nat → Bool) : Prop :=
  MayTake s is n ∧
  ∀ i ∈ is, ∀ t ∈ s.elem.group i n, t.kind = kindData ∧ ∃ f, formatAt s.here.cfg.active s.cur.unit t = some f ∧ ok f = true

/-- A payload with the same 32-bit value in every lane. -/
def EveryLane (p : Payload) (v : BitVec 32) : Prop := ∀ j < 8, p.extractLsb' (32 * j) 32 = v

end Sys2Proof

/-- R208–R213. CVT's rounding of a scaled lane and its constant, which carries no scale, are log entry 15. -/
def Obligations.LaneMovesAndConversions : Prop :=
  (∀ (w : Eow) (ft : FloatFmt), tyOf w < 9 → floatFmt (tyOf w) = some ft →
    LanesGive (.clmp w) w fun _ _ a lo hi out st =>
      let V (x : Nat) : FVal := decodeFloat ft x
      let anyNan := (V a).isNan || ((V lo).isNan || (V hi).isNan)
      (anyNan = true → out = ft.nan.getD 0 ∧ st = { Status.none with nv := (V a).signalling || ((V lo).signalling || (V hi).signalling) }) ∧
      (anyNan = false → let m := if (V lo).below (V a) then a else lo
        st = Status.none ∧ V out = V (if (V m).below (V hi) then m else hi))) ∧
  (∀ w : Eow, tyOf w < 9 → floatFmt (tyOf w) = none →
    LanesGive (.clmp w) w fun _ _ a lo hi out st => st = Status.none ∧
      intValue (tyOf w) out = min (max (intValue (tyOf w) a) (intValue (tyOf w) lo)) (intValue (tyOf w) hi)) ∧
  (∀ w : Eow, w.sa.toNat < 6 → w.sb.toNat < 6 → let n := 256 / laneWidth (tyOf w)
    let at_ (s : State) (i : Nat) : Nat := sourceLane s w.sa (laneWidth (tyOf w)) i
    LanesGive (.selLanes w) w (fun _ _ a b c out st => st = Status.none ∧ out = if c = 0 then b else a) ∧
    LanesGive (.shuf w) w (fun s j _ _ _ out st => st = Status.none ∧
      let k := constantOf s.here.cfg.active s.cur.unit (j % 16 / 8)
      let x := (k.extractLsb' (4 * (j % 8)) 4).toNat
      out = at_ s (16 * (j / 16) + if n = 8 then x % 8 else x)) ∧
    LanesGive (.bcst w) w (fun s _ _ _ _ out st => st = Status.none ∧ out = at_ s (w.imm.toNat % 32 % n)) ∧
    LanesGive (.rotl w) w (fun s j _ _ _ out st => st = Status.none ∧ out = at_ s ((j + w.imm.toNat % 32) % n)) ∧
    LanesGive (.slid w) w (fun s j _ _ _ out st => st = Status.none ∧
      out = (let k := j + w.imm.toNat % 64
             if k < n then at_ s k else if k < 2 * n then sourceLane s w.sb (laneWidth (tyOf w)) (k - n) else 0))) ∧
  (∀ (w : Eow) (s : State), MayFire s w 1 1 (· == tyOf w) →
    let n := 256 / laneWidth (tyOf w)
    ∃ p, exec (.iota w) s = .next ((firing s w 1 [p] Status.none).onOpst fun o =>
        { o with cnt := if s.endsTile w 1 then 0 else s.elem.opst.cnt + 1 }) ∧
      ∀ j < n, lane p (laneWidth (tyOf w)) j = ((constantOf s.here.cfg.active s.cur.unit 0).toNat +
        (s.elem.opst.cnt * n + j) * (constantOf s.here.cfg.active s.cur.unit 1).toNat) % 2 ^ laneWidth (tyOf w)) ∧
  (∀ (w : Eow) (s : State), let src := w.aux.toNat % 16
    let dst := w.aux.toNat / 16
    let n := 2 ^ w.rin.toNat
    let outN := 2 ^ w.rout.toNat
    w.sa.toNat < 4 → w.sb.toNat = 7 → w.sc.toNat = 7 → n * laneCount src = outN * laneCount dst → MayFire s w n outN (· == src) →
    ∃ (ps : List Payload) (st : Status) (f : Nat → Status), exec (.cvt w) s = .next (firing s w n ps st) ∧ ps.length = outN ∧
      Gathers st (n * laneCount src) f ∧
      ∀ j < n * laneCount src, ∀ t, (s.elem.group w.sa.toNat n)[j / laneCount src]? = some t →
        let r := convertLane src dst (s.rounding w j) (scaleOf s.here.cfg.active s.cur.unit t.vc.toNat src)
          (if isScaled dst then scaleOf s.here.cfg.active s.cur.unit w.vco.toNat dst else 0x7F)
          (lane t.payload (laneWidth src) (j % laneCount src))
        lane ((ps[j / laneCount dst]?).getD 0) (laneWidth dst) (j % laneCount dst) = r.1 % 2 ^ laneWidth dst ∧ f j = r.2) ∧
  (∀ (w : Eow) (s : State), let src := w.aux.toNat % 16
    let dst := w.aux.toNat / 16
    let n := 2 ^ w.rin.toNat
    let outN := 2 ^ w.rout.toNat
    4 ≤ w.sa.toNat → w.sa.toNat < 6 → w.sb.toNat = 7 → w.sc.toNat = 7 → n * laneCount src = outN * laneCount dst → MayFire s w n outN (· == src) →
    ∃ (ps : List Payload) (st : Status) (f : Nat → Status), exec (.cvt w) s = .next (firing s w n ps st) ∧ ps.length = outN ∧
      Gathers st (n * laneCount src) f ∧
      ∀ j < n * laneCount src,
        let r := convertLane src dst (s.rounding w j) 0x7F
          (if isScaled dst then scaleOf s.here.cfg.active s.cur.unit w.vco.toNat dst else 0x7F) (sourceLane s w.sa (laneWidth src) 0)
        lane ((ps[j / laneCount dst]?).getD 0) (laneWidth dst) (j % laneCount dst) = r.1 % 2 ^ laneWidth dst ∧ f j = r.2) ∧
  (∀ (w : Eow) (s : State) (scale t : Token), let o := s.elem.opst
    let is := if o.held.isNone then inputsOf [w.sa, w.sb] else inputsOf [w.sa]
    let c := if o.held.isSome then o.cnt else 0
    w.sa.toNat < 4 → w.sb.toNat < 4 → w.sa ≠ w.sb → MayTake s is 1 →
    s.elem.head w.sa.toNat = some t → (o.held = some scale ∨ (o.held = none ∧ s.elem.head w.sb.toNat = some scale ∧
      scale.kind = kindData ∧ formatAt s.here.cfg.active s.cur.unit scale = some 0xD)) →
    t.kind = kindData → formatAt s.here.cfg.active s.cur.unit t = some (w.aux.toNat % 16) →
    s.roomFor (needsOf (s.outs w 0) 4 ++ needsOf (s.outs w 1) 4) = true →
    ∃ (toks : List Token) (st : Status) (f : Nat → Status),
      exec (.deq w) s = .next (((((s.consumeAll is 1).emitOn w 0 toks).emitOn w 1 toks).fired st.toBits t.endOfTile).onOpst fun o =>
        { o with held := if c + 2 = 32 ∨ t.endOfTile then none else some scale, cnt := if c + 2 = 32 ∨ t.endOfTile then 0 else c + 2 }) ∧
      Gathers st 64 f ∧ toks.length = 4 ∧
      ∀ j x, toks[j]? = some x → x.kind = kindData ∧ x.row = t.row ∧ x.e = (if j = 3 then t.e else 0) ∧ x.vc = w.vco ∧
        x.taint = (t.taint || (o.held.isNone && scale.taint)) ∧
        ∀ i < 16, let r := dequantise (w.aux.toNat % 16) (lane scale.payload 8 (c + (16 * j + i) / 32)) (lane t.payload 4 (16 * j + i))
          lane x.payload 16 i = r.1 % 65536 ∧ f (16 * j + i) = r.2) ∧
  (∀ (w : Eow) (s : State), let src := w.aux.toNat % 16
    let n := 2 ^ w.rin.toNat
    let toks := s.elem.group w.sa.toNat n
    let o := s.elem.opst
    let k := carryOf toks toks
    let done := o.cnt + 1 = 16 ∨ k.e.getLsbD 0 = true
    let vs := toks.flatMap fun t => (lanes t.payload (laneWidth src)).map (laneValue src)
    let b0 := quantise (w.aux.toNat / 16) (s.rounding w) (vs.take 32)
    let b1 := quantise (w.aux.toNat / 16) (s.rounding w) (vs.drop 32)
    let t0 := s.dataToken w (packLanes 4 (b0.1 ++ b1.1)) k
    w.sa.toNat < 4 → MayConsume s [w.sa.toNat] n (· == src) →
    (done → s.roomFor (needsOf (s.outs w 0) 1 ++ needsOf (s.outs w 1) 1) = true → ∃ t1,
      exec (.qnt w) s = .next (((((s.consume w.sa.toNat n).emitOn w 0 [t0]).emitOn w 1 [t1]).fired ((b0.2.2.or b1.2.2).toBits)
        (k.e.getLsbD 0)).onOpst fun o => { o with lanes := 0, cnt := 0, taint := k.taint, row := k.row, eb := k.e }) ∧
      t1.kind = kindData ∧ t1.fov = true ∧ t1.fmt = 0xD ∧ t1.row = k.row ∧ t1.e = k.e ∧ t1.taint = k.taint ∧
      t1.payload = fillScales o.lanes o.cnt b0.2.1 b1.2.1) ∧
    (¬done → s.roomFor (needsOf (s.outs w 0) 1) = true →
      exec (.qnt w) s = .next ((((s.consume w.sa.toNat n).emitOn w 0 [t0]).fired ((b0.2.2.or b1.2.2).toBits) false).onOpst fun o =>
        { o with lanes := fillScales o.lanes o.cnt b0.2.1 b1.2.1, cnt := o.cnt + 1, taint := k.taint, row := k.row, eb := k.e })))

/-- R65–R67, R214–R217. -/
def Obligations.Reductions : Prop :=
  let listOf (s : State) (src : BitVec 3) (code : Nat) : List Nat := (List.range (laneCount code)).map (sourceLane s src (laneWidth code))
  let gives (i : Instr) (w : Eow) (ow : Nat) (P : State → Nat → Status → Prop) : Prop := ∀ s : State,
    w.sa.toNat < 6 → MayFire s w 1 1 (· == tyOf w) → ∃ p st, exec i s = .next (firing s w 1 [p] st) ∧ P s (lane p ow 0) st ∧
      ∀ j, 0 < j → j < 256 / ow → lane p ow j = 0
  (∀ (w : Eow) (ft : FloatFmt), tyOf w < 9 → floatFmt (tyOf w) = some ft →
    gives (.rsum w) w (laneWidth (tyOf w)) (fun s out st => let r := sumFloat (tyOf w) (s.rounding w 0) (listOf s w.sa (tyOf w))
      out = r.1 % 2 ^ laneWidth (tyOf w) ∧ st = r.2) ∧
    gives (.rmax w) w (laneWidth (tyOf w)) (fun s out st => let xs := listOf s w.sa (tyOf w)
      ((∀ x ∈ xs, (decodeFloat ft x).isNan = false) → st = Status.none ∧ out ∈ xs ∧
        ∀ x ∈ xs, (decodeFloat ft out).below (decodeFloat ft x) = false) ∧
      ((∃ x ∈ xs, (decodeFloat ft x).isNan = true) → out = ft.nan.getD 0)) ∧
    gives (.rmin w) w (laneWidth (tyOf w)) (fun s out st => let xs := listOf s w.sa (tyOf w)
      ((∀ x ∈ xs, (decodeFloat ft x).isNan = false) → st = Status.none ∧ out ∈ xs ∧
        ∀ x ∈ xs, (decodeFloat ft x).below (decodeFloat ft out) = false) ∧
      ((∃ x ∈ xs, (decodeFloat ft x).isNan = true) → out = ft.nan.getD 0)) ∧
    gives (.dot w) w 32 (fun s out st => w.sb.toNat < 6 →
      let r := fsum fp32 (s.rounding w 0).atNode (List.zipWith (fun x y => sumTerm (decodeFloat ft x) (decodeFloat ft y))
        (listOf s w.sa (tyOf w)) (listOf s w.sb (tyOf w)))
      out = r.1 % 2 ^ 32 ∧ st = r.2)) ∧
  (∀ w : Eow, tyOf w < 9 → floatFmt (tyOf w) = none → let v (x : Nat) : Int := intValue (tyOf w) x
    gives (.rsum w) w (laneWidth (tyOf w)) (fun s out st =>
      let r := sumInteger (tyOf w) (w.md.getLsbD 3) (listOf s w.sa (tyOf w))
      out = r.1 ∧ st = r.2 ∧ (w.md.getLsbD 3 = false → st = Status.none ∧
        (out : Int) = ((listOf s w.sa (tyOf w)).foldl (fun a x => a + v x) 0) % 2 ^ laneWidth (tyOf w))) ∧
    gives (.rmax w) w (laneWidth (tyOf w)) (fun s out st => st = Status.none ∧ out ∈ listOf s w.sa (tyOf w) ∧
      ∀ x ∈ listOf s w.sa (tyOf w), v x ≤ v out) ∧
    gives (.rmin w) w (laneWidth (tyOf w)) (fun s out st => st = Status.none ∧ out ∈ listOf s w.sa (tyOf w) ∧
      ∀ x ∈ listOf s w.sa (tyOf w), v out ≤ v x) ∧
    gives (.dot w) w 32 (fun s out st => w.sb.toNat < 6 →
      let r := fit (if isSigned (tyOf w) then 0x3 else 0x6) (w.md.getLsbD 3)
        ((List.zipWith (fun x y => v x * v y) (listOf s w.sa (tyOf w)) (listOf s w.sb (tyOf w))).foldl (· + ·) 0)
      out = r.1 ∧ st = r.2)) ∧
  (∀ (w : Eow) (s : State), w.sa.toNat < 4 → MayConsume s [w.sa.toNat] 1 (· == tyOf w) →
    let o := s.elem.opst
    let n := laneCount (tyOf w)
    let old (i : Nat) : Nat := (s.elem.bank (accBank w)).toNat / 2 ^ (32 * i) % 2 ^ 32
    let at_ (j : Nat) : Nat := (8 * o.cnt + j) % 256
    let sum (j : Nat) : Nat × Status := accAdd w (s.rounding w (j % 8)) (old (at_ j)) (sourceLane s w.sa (laneWidth (tyOf w)) j)
    ∃ (bank : BitVec 8192) (st : Status) (taint : Bool),
      exec (.acc w) s = .next ((((s.consume w.sa.toNat 1).fired st.toBits (s.endsTile w 1)).onElem fun e => e.setBank (accBank w) bank).onOpst
        fun o => { o with cnt := (o.cnt + n / 8) % 2 ^ ((w.aux.extractLsb' 1 3).toNat), any := true, taint := taint }) ∧
      (taint = true ↔ o.taint = true ∨ ∃ t, s.elem.head w.sa.toNat = some t ∧ t.taint = true) ∧
      Gathers st n (fun j => (sum j).2) ∧ (∀ j < n, bank.toNat / 2 ^ (32 * at_ j) % 2 ^ 32 = (sum j).1 % 2 ^ 32) ∧
      ∀ i < 256, (∀ j < n, i ≠ at_ j) → bank.toNat / 2 ^ (32 * i) % 2 ^ 32 = old i) ∧
  (∀ (w : Eow) (s : State), w.sa.toNat < 4 → MayConsume s [w.sa.toNat] 1 (· == tyOf w) →
    let lw := laneWidth (tyOf w)
    let k := s.carried w [w.sa.toNat] 1
    let new (j : Nat) : Nat × Status := runningMax (tyOf w) (lane s.elem.opst.lanes lw j) (sourceLane s w.sa lw j)
    ∃ (p : Payload) (st : Status), exec (.amax w) s = .next (((s.consume w.sa.toNat 1).fired st.toBits (s.endsTile w 1)).onOpst fun o =>
        { o with lanes := p, any := true, loop := true, row := k.row, eb := k.e, taint := o.taint || k.taint }) ∧
      Gathers st (256 / lw) (fun j => (new j).2) ∧ ∀ j < 256 / lw, lane p lw j = (new j).1 % 2 ^ lw)

/-- R219, R224–R231. -/
def Obligations.TokenOperations : Prop :=
  ∀ (w : Eow) (s : State),
    let a := s.headAt w.sa
    let b := s.headAt w.sb
    let sa := w.sa.toNat
    let sb := w.sb.toNat
    let sc := w.sc.toNat
    let n := s.here.permitPool s.cur.unit
    let o := s.elem.opst
    let forwards (i : Instr) (is : List (Nat × Admits)) (after : State → State) : Prop :=
      exec i s = .next (after ((((s.consumeAll (is.map (·.1)) 1).fired 0 a.endOfTile).emitBoth w { a with vc := w.vco, round := s.elem.rnd })))
    (∀ k, k = (if b.isTrue then 0 else 1) → MayPass s [(sa, .both), (sb, .data)] false (needsOf (s.outs w k) 1) →
      (outputOn w k = true → exec (.steer w) s = .next ((s.moved [w.sa, w.sb] a.endOfTile).emitOn w k [s.forward w a])) ∧
      (outputOn w k = false → exec (.steer w) s = .next ((s.moved [w.sa, w.sb] a.endOfTile).discards a))) ∧
    (∀ src, src = (if (s.headAt w.sc).isTrue then w.sa else w.sb) → s.elem.hasWork sc = true →
      MayPass s [(sc, .data), (src.toNat, .both)] false (s.bothOuts w) →
      exec (.merge w) s = .next ((s.moved [w.sc, src] (src == w.sa && (s.headAt src).endOfTile)).emitBoth w (s.forward w (s.headAt src)))) ∧
    (o.loop = false → MayPass s [(sa, .both)] false (s.bothOuts w) →
      forwards (.carry w) [(sa, .both)] (fun u => u.onOpst fun o => { o with loop := true }) ∧
      forwards (.invar w) [(sa, .both)] (fun u => u.onOpst fun o => { o with loop := true, held := some a })) ∧
    (o.loop = true → s.elem.hasWork sc = true → (s.headAt w.sc).isTrue = true →
      (MayPass s [(sc, .data), (sb, .both)] true (s.bothOuts w) →
        exec (.carry w) s = .next ((s.moved [w.sc, w.sb] false).emitBoth w (s.forward w b))) ∧
      (∀ v, o.held = some v → MayPass s [(sc, .data)] true (s.bothOuts w) →
        exec (.invar w) s = .next ((s.moved [w.sc] false).emitBoth w (s.forward w v)))) ∧
    (o.loop = true → s.elem.hasWork sc = true → (s.headAt w.sc).isTrue = false → MayPass s [(sc, .data)] true [] →
      exec (.carry w) s = .next ((s.moved [w.sc] false).onOpst fun o => { o with loop := false }) ∧
      exec (.invar w) s = .next ((s.moved [w.sc] false).onOpst fun o => { o with loop := false, held := none })) ∧
    (MayPass s [(sa, .both), (sb, .both)] false (s.bothOuts w) → forwards (.gate w) [(sa, .both), (sb, .both)] id) ∧
    (MayPass s [(sa, .both)] false (s.bothOuts w) → forwards (.pass w) [(sa, .both)] id) ∧
    (MayPass s [(sa, .both)] false [] → exec (.drop w) s = .next ((s.moved [w.sa] a.endOfTile).discards a)) ∧
    (MayPass s [(sa, .both)] false [] → s.here.permitSize n ≤ s.here.permitsOut n →
      exec (.prmi w) s = .next (s.onElem fun e => { e.tally 1 1 with blocked := some [] })) ∧
    (MayPass s [(sa, .both)] false (s.bothOuts w) → s.here.permitsOut n < s.here.permitSize n →
      forwards (.prmi w) [(sa, .both)] fun u => u.on fun c => c.onPermit n (· + 1)) ∧
    (MayPass s [(sa, .both)] false (s.bothOuts w) → s.here.permitsOut n = 0 →
      exec (.prmo w) s = .next ((s.halt s.cur.core s.cur.unit).raise s.cur.core 0x31 1 s.cur.unit (BitVec.ofNat 64 n))) ∧
    (MayPass s [(sa, .both)] false (s.bothOuts w) → s.here.permitsOut n ≠ 0 →
      forwards (.prmo w) [(sa, .both)] fun u => u.on fun c => c.onPermit n (· - 1)) ∧
    (o.any = false → MayPass s [(sa, .data)] false (s.bothOuts w) →
      let due := if w.aux.getLsbD 0 then a.e.getLsbD (w.aux.extractLsb' 1 2).toNat else decide (o.cnt + 1 = w.imm.toNat)
      forwards (.mkgn w) [(sa, .data)] fun u => u.onOpst fun o => { o with cnt := if due then 0 else o.cnt + 1, any := due }) ∧
    (o.any = true → s.roomFor (s.bothOuts w) = true →
      exec (.mkgn w) s = .next (((s.emitBoth w (markToken s.elem.rnd w.vco 0)).onElem fun e => { e with rnd := e.rnd + 1 }).onOpst fun o =>
        { o with any := false })) ∧
    (let k0 := constantOf s.here.cfg.active s.cur.unit 0
     let k1 := constantOf s.here.cfg.active s.cur.unit 1
     let writes (u : State) (m : Nat) (x : BitVec 32) (row : BitVec 7) (taint ended : Bool) : Prop :=
       ∃ p q : Payload, EveryLane p x ∧ EveryLane q (if 1 < m then BitVec.allOnes 32 else 0) ∧
         let k : Carry := { row := row, e := if m = 1 then 1 else 0, taint := taint }
         exec (.cntr w) s = .next ((((u.fired 0 ended).emitOn w 0 [s.dataToken w p k]).emitOn w 1 [s.dataToken w q k]).onOpst fun o =>
           { o with cnt := m - 1, idx := x + k1, row := row, taint := taint })
     let m := if w.aux.getLsbD 0 then (a.payload.extractLsb' 0 32).toNat else w.imm.toNat
     (0 < o.cnt → s.roomFor (s.bothOuts w) = true → writes s o.cnt o.idx o.row o.taint false) ∧
     (o.cnt = 0 → m ≠ 0 → MayPass s [(sa, .data)] false (s.bothOuts w) → writes (s.consume sa 1) m k0 a.row a.taint a.endOfTile) ∧
     (o.cnt = 0 → m = 0 → MayPass s [(sa, .data)] false [] →
       exec (.cntr w) s = .next (((s.consume sa 1).fired 0 a.endOfTile).onOpst fun o => { o with cnt := 0, idx := k0 }))) ∧
    (let paced := decide (sb < 4)
     let depth := ((fieldOf s.here.cfg.active s.cur.unit 0x3B).extractLsb' 0 5).toNat
     (o.cnt < depth → MayPass s (if paced then [(sb, .both)] else []) false (s.bothOuts w) →
       ∃ p : Payload, (∀ j < 4, p.extractLsb' (64 * j) 32 = constantOf s.here.cfg.active s.cur.unit 0 ∧
           p.extractLsb' (64 * j + 32) 32 = constantOf s.here.cfg.active s.cur.unit 1) ∧
         exec (.dly w) s = .next (((((if paced then s.consume sb 1 else s)).fired 0 false).emitBoth w
           (s.dataToken w p { row := 0, e := 0, taint := paced && b.taint })).onOpst fun o => { o with cnt := o.cnt + 1 })) ∧
     (depth ≤ o.cnt → ∀ is, is = (if paced then [(sa, .both), (sb, .both)] else [(sa, .both)]) →
       MayPass s is false (s.bothOuts w) → forwards (.dly w) is id))

/-- R232, R234–R239. -/
def Obligations.RecordAndPoolElementOperations : Prop :=
  ∀ (w : Eow) (s : State),
    let a := s.headAt w.sa
    let b := s.headAt w.sb
    let sa := w.sa.toNat
    let sb := w.sb.toNat
    let o := s.elem.opst
    let p := s.here.cfg.active
    let refused (i : Instr) (h : BitVec 32) : Prop :=
      exec i s = .next ((s.halt s.cur.core s.cur.unit).raise s.cur.core 0x26 1 s.cur.unit (h.setWidth 64))
    (MayPass s [(sa, .data)] false (s.bothOuts w) → ∃ t : Token,
      exec (.rmk w) s = .next (((s.moved [w.sa] a.endOfTile).emitBoth w t).onOpst fun o => { o with cnt := o.cnt + 1 }) ∧
      t.kind = kindRecord ∧ t.tag = 0 ∧ t.taint = a.taint ∧ t.round = s.elem.rnd ∧ t.vc = w.vco ∧
      t.payload.extractLsb' 0 224 = a.payload.extractLsb' 0 224 ∧ t.payload.extractLsb' 244 12 = 0 ∧
      t.payload.extractLsb' 224 20 = BitVec.ofNat 20 ((constantOf p s.cur.unit 0).toNat + o.cnt * (constantOf p s.cur.unit 1).toNat)) ∧
    (MayPass s [(sa, .record)] false (s.bothOuts w) → ∃ (q : Payload) (k : Carry), EveryLane q (a.payload.extractLsb' (32 * (w.aux.toNat % 8)) 32) ∧ k.taint = a.taint ∧
      exec (.rfld w) s = .next (((s.moved [w.sa] false).emitOn w 0 [s.dataToken w q k]).emitOn w 1 [s.forward w a])) ∧
    (MayPass s [(sa, .record), (sb, .data)] false (s.bothOuts w) → ∃ t : Token,
      exec (.rins w) s = .next ((s.moved [w.sa, w.sb] false).emitBoth w t) ∧ t.kind = kindRecord ∧ t.taint = (a.taint || b.taint) ∧
      ∀ k < 8, t.payload.extractLsb' (32 * k) 32 =
        if k = w.aux.toNat % 8 then b.payload.extractLsb' 0 32 else a.payload.extractLsb' (32 * k) 32) ∧
    (let is := if sa < 4 then [(sa, Admits.data)] else []
     (o.hand = none → o.req = none → MayPass s is false [] →
       exec (.aloc w) s = .next (((s.on fun c => { c with nextId := c.nextId + 1 }).requestSlot s.cur.core (w.aux.toNat % 16)
         { id := s.here.nextId, who := .elem s.cur.core s.cur.unit }).onOpst fun o => { o with req := some s.here.nextId })) ∧
     (o.hand = none → o.req.isSome = true → exec (.aloc w) s = .next (s.onElem fun e => { e.tally 1 1 with blocked := some [] })) ∧
     (∀ h, o.hand = some h → MayPass s is false (s.bothOuts w) → ∃ t : Token, t.payload.extractLsb' 0 32 = h ∧ t.kind = kindData ∧
       exec (.aloc w) s = .next ((((s.consumeAll (is.map (·.1)) 1).fired 0 (s.endsTile w 1)).emitBoth w t).onOpst fun o =>
         { o with hand := none }))) ∧
    (let left := o.held.bind fun t => nextHandle t.payload o.idx.toNat
     let sectors (h : BitVec 32) : Nat := (s.core (handleCore h)).poolSectors (handlePool h)
     let held (last : Bool) (u : State) : State := if last then u.holdOutputs w else u
     let begins (is : List (Nat × Admits)) (src : Token) (u : State) (h : BitVec 32) (k : Nat) : Prop :=
       (MayPass s is false (s.bothOuts w) → s.inPartition s.cur.core (handleCore h) = false → refused (.pwr w) h) ∧
       (∀ f last, b.kind = kindData → formatAt p s.cur.unit b = some f → last = (decide (1 = sectors h) || b.endOfTile) →
         MayPass s is false (if last then s.bothOuts w else []) → s.inPartition s.cur.core (handleCore h) = true →
         exec (.pwr w) s = .next (((((held last u).onElem fun e => { e with tile := s.here.nextId + 1 }).on fun c => { c with nextId := c.nextId + 1 }).onOpst fun o =>
           { o with held := some src, hand := some h, idx := BitVec.ofNat 32 k, sector := 1, fmt := some (BitVec.ofNat 4 f), fill := last,
                    any := last, taint := b.taint }).presentWrite h 0 b.payload (BitVec.ofNat 4 f) b.taint))
     (o.hand = none → left = none → nextHandle a.payload 0 = none → MayPass s [(sa, .data), (sb, .both)] false [] →
       exec (.pwr w) s = .next (s.consume sa 1)) ∧
     (∀ h k, o.hand = none → left = none → nextHandle a.payload 0 = some (h, k) →
       begins [(sa, .data), (sb, .both)] a (s.moved [w.sa, w.sb] a.endOfTile) h k) ∧
     (∀ t h k, o.hand = none → o.held = some t → left = some (h, k) → begins [(sb, .both)] t (s.moved [w.sb] false) h k) ∧
     (∀ h f last, o.hand = some h → o.fill = false → b.kind = kindData → formatAt p s.cur.unit b = some f → o.fmt = some (BitVec.ofNat 4 f) →
       last = (decide (o.sector + 1 = sectors h) || b.endOfTile) → MayPass s [(sb, .both)] false (if last then s.bothOuts w else []) →
       s.inPartition s.cur.core (handleCore h) = true →
       exec (.pwr w) s = .next (((held last (s.moved [w.sb] false)).onOpst fun o =>
         { o with sector := o.sector + 1, fill := last, any := last, taint := o.taint || b.taint }).presentWrite
           h o.sector b.payload (BitVec.ofNat 4 f) b.taint)) ∧
     (∀ h, o.hand = some h → o.fill = true →
       (o.sector < sectors h → exec (.pwr w) s = .next ((s.onOpst fun o => { o with sector := o.sector + 1 }).presentWrite h o.sector 0
         (o.fmt.getD 0) false)) ∧
       (sectors h ≤ o.sector → 0 < o.cnt → exec (.pwr w) s = .next s) ∧
       (sectors h ≤ o.sector → o.cnt = 0 → ∃ t : Token, t.payload.extractLsb' 0 32 = h ∧ t.kind = kindData ∧
         exec (.pwr w) s = .next ((s.sendHeld w t).onOpst fun o =>
           { o with hand := none, fill := false, any := false, sector := 0, fmt := none, taint := false })))) ∧
    (nextHandle a.payload o.cnt = none → o.any = false → MayPass s [(sa, .data)] false (s.bothOuts w) → exec (.ppub w) s =
      .next (((s.consume sa 1).fired 0 a.endOfTile).emitBoth w (s.forward w a))) ∧
    (nextHandle a.payload o.cnt = none → o.any = true → MayPass s [(sa, .data)] false [] → exec (.ppub w) s =
      .next (((s.moved [w.sa] a.endOfTile).sendHeld w (s.forward w a)).onOpst fun o => { o with cnt := 0, any := false })) ∧
    (∀ h k, nextHandle a.payload o.cnt = some (h, k) → MayPass s [(sa, .data)] false (if o.any then [] else s.bothOuts w) →
      (s.inPartition s.cur.core (handleCore h) = false → refused (.ppub w) h) ∧
      (s.inPartition s.cur.core (handleCore h) = true → exec (.ppub w) s = .next
        (((if o.any then s else s.holdOutputs w).slotEvent (.elem s.cur.core s.cur.unit) h fun c => c.publish h (w.imm.setWidth 8)).onOpst
          fun o => { o with cnt := k, any := true }))) ∧
    (o.hand = none → MayPass s [(sa, .data)] false [] →
      (nextHandle a.payload o.cnt = none → exec (.prq w) s = .next ((s.moved [w.sa] a.endOfTile).onOpst fun o => { o with cnt := 0 })) ∧
      (∀ h k, nextHandle a.payload o.cnt = some (h, k) →
        (s.inPartition s.cur.core (handleCore h) = false → refused (.prq w) h) ∧
        (s.inPartition s.cur.core (handleCore h) = true →
          exec (.prq w) s = .next (s.onOpst fun o => { o with hand := some h, sector := 0, cnt := k })))) ∧
    (∀ h, o.hand = some h → s.roomFor (s.bothOuts w) = true → let n := s.sectorsOf h
      let pended := (s.outs w 0 ++ s.outs w 1).foldl (fun s r => s.onPort r.2 fun q => { q with pend := q.pend + 1 }) s
      exec (.prq w) s = .next (((pended.onElem fun e => { e with prq := e.prq ++ [{ handle := h, sector := o.sector, reply := none }] }).onOpst
        fun o => if o.sector + 1 < n then { o with sector := o.sector + 1 } else { o with hand := none, sector := 0 }).requestSector
          (bankReq (.elem s.cur.core s.cur.unit) 0 h o.sector (.read (w.aux.getLsbD 0 && o.sector + 1 == n))))) ∧
    (let lw := laneWidth (w.aux.toNat % 16)
     let size (h : BitVec 32) : Nat := 32 * s.sectorsOf h
     let reads (ins : List (BitVec 3)) (h : BitVec 32) (taint : Bool) : State :=
       let need := lutSectors lw (size h) (lanes a.payload lw)
       need.foldl (fun u q => u.requestSector (bankReq (.elem s.cur.core s.cur.unit) 0 h q (.read false)))
         ((((s.moved ins a.endOfTile).holdOutputs w).onElem fun e =>
           { e with prq := need.map fun q => { handle := h, sector := q, reply := none } }).onOpst fun o =>
             { o with hand := some h, held := some a, any := true, taint := taint })
     (o.any = false → o.hand = none → MayPass s [(sa, .data), (sb, .data)] false (s.bothOuts w) → let h := b.payload.extractLsb' 0 32
       (h = 0 → exec (.lut w) s = .next (s.consume sb 1)) ∧
       (h ≠ 0 → s.inPartition s.cur.core (handleCore h) = false → refused (.lut w) h) ∧
       (h ≠ 0 → s.inPartition s.cur.core (handleCore h) = true → exec (.lut w) s = .next (reads [w.sa, w.sb] h (a.taint || b.taint)))) ∧
     (∀ h, o.any = false → o.hand = some h → h ≠ 0 → s.inPartition s.cur.core (handleCore h) = true → MayPass s [(sa, .data)] false (s.bothOuts w) →
       exec (.lut w) s = .next (reads [w.sa] h a.taint)) ∧
     (∀ h t, o.any = true → o.hand = some h → o.held = some t →
       ((∃ r ∈ s.elem.prq, r.reply = none) → exec (.lut w) s = .next s) ∧
       ((∀ r ∈ s.elem.prq, r.reply.isSome = true) → ∃ (q : Payload) (st : Status) (taint : Bool), ∀ u : State,
         u = (((s.sendHeld w (s.dataToken w q { row := t.row, e := t.e, taint := taint })).onElem fun e =>
           { e.flag st.toBits with prq := [] }).onOpst fun o => { o with held := none, any := false, taint := false }) →
         exec (.lut w) s = .next (if t.endOfTile then u.releaseTable w h else u) ∧
         st = { Status.none with nv := (lanes t.payload lw).any fun k => decide (size h ≤ k * lw / 8) } ∧
         ∀ j < 256 / lw, let k := lane t.payload lw j
           (size h ≤ k * lw / 8 → lane q lw j = 0) ∧
           (k * lw / 8 < size h → lane q lw j = lutEntry lw k s.elem.prq))))

/-- R243, R247–R256, R398. -/
def Obligations.MatrixOperations : Prop :=
  (∀ (e : Elem) (row : Payload) (reuse : BitVec 8) (fwd : Nat), e.wrow < 16 →
    (∀ k < 16, ((e.keepRow row reuse fwd).weights e.ldp).extractLsb' (256 * k) 256 =
      if k = e.wrow then row else (e.weights e.ldp).extractLsb' (256 * k) 256) ∧
    (e.keepRow row reuse fwd).weights (!e.ldp) = e.weights (!e.ldp) ∧
    (e.wrow < 15 → (e.keepRow row reuse fwd).wrow = e.wrow + 1 ∧ (e.keepRow row reuse fwd).ldp = e.ldp) ∧
    (e.wrow = 15 → (e.keepRow row reuse fwd).wrow = 0 ∧ (e.keepRow row reuse fwd).ldp = !e.ldp ∧ (e.keepRow row reuse fwd).wfwd = 16 * fwd ∧
      (e.keepRow row reuse fwd).wstate e.ldp = if reuse = 0 then .stat else .full reuse)) ∧
  (∀ (i : Instr) (w : Eow) (s s₁ : State) (src : BitVec 3) (o : Nat) (after wrap : State → State),
    ((i = .wld w ∧ w.sa.toNat < 4 ∧ src = w.sa ∧ o = 0 ∧ s₁ = s ∧ wrap = id ∧ after = fun u => u.fired 0 (s.headAt w.sa).endOfTile) ∨
      (i = .weightLoaderRow ∧ w = eowOf (eowField s.here.cfg.active s.cur.unit) ∧ opcodeOf s.here.cfg.active s.cur.unit = 0x91 ∧
        enabled s.here.cfg.active s.cur.unit = true ∧ s.elem.halted = false ∧ s.elem.passed = false ∧ w.sc.toNat < 4 ∧ src = w.sc ∧ o = 1 ∧
        s₁ = s.onElem (fun e => { e with blocked := e.blockedLoad }) ∧
        wrap = (fun u => u.onElem fun e => { e with blockedLoad := e.blocked, blocked := s.elem.blocked }) ∧ after = id)) →
    MayConsume s [src.toNat] 1 (· == 1) →
    let t := s.headAt src
    (0 < s.elem.wfwd → s.roomFor (needsOf (s.outs w o) 1) = true → exec i s = .next (wrap (after
      (((s₁.consume src.toNat 1).emitOn w o [{ s.forward w t with tag := dataTag 1 true t.row }]).onElem fun e =>
        { e with wfwd := e.wfwd - 1 })))) ∧
    (s.elem.wfwd = 0 → s.elem.wstate s.elem.ldp = .empty →
      exec i s = .next (wrap (after ((s₁.consume src.toNat 1).onElem fun e => e.keepRow t.payload (mctlReuse s.mctl) (w.aux.toNat % 8))))) ∧
    (s.elem.wfwd = 0 → s.elem.wstate s.elem.ldp ≠ .empty →
      exec i s = .next (wrap (s₁.onElem fun e => { e.tally 1 1 with blocked := some [] })))) ∧
  (∀ (w : Eow) (s : State), let bank := w.aux.getLsbD 4
    4 ≤ w.sa.toNat → MayTake s [w.sb.toNat] 1 →
    ((s.elem.wstate s.elem.ldp ≠ .empty ∨ s.elem.bstate bank = .draining) →
      exec (.wld w) s = .next (s.onElem fun e => { e.tally 1 1 with blocked := some [] })) ∧
    (s.elem.wstate s.elem.ldp = .empty → s.elem.bstate bank ≠ .draining → s.roomFor (s.bothOuts w) = true →
      ∃ (block : BitVec 4096) (st : Status) (f : Nat → Status),
        exec (.wld w) s = .next ((((s.consume w.sb.toNat 1).fired st.toBits false).emitBoth w (s.forward w (s.headAt w.sb))).onElem fun e =>
          (e.setWeights e.ldp block).loaded (mctlReuse s.mctl)) ∧ Gathers st 256 f ∧
        ∀ k < 16, ∀ j < 16, let i := if w.aux.getLsbD 3 then 16 * j + k else 16 * k + j
          let r := roundVal bf16 (s.rounding w j) (decodeFloat fp32 ((s.elem.bank bank).toNat / 2 ^ (32 * i) % 2 ^ 32))
          block.toNat / 2 ^ (256 * k + 16 * j) % 65536 = r.1 % 65536 ∧ f (16 * k + j) = r.2)) ∧
  (∀ (w : Eow) (s : State), let role := mctlRole s.mctl
    let x := s.headAt w.sa
    let next := neighbourIn s.cur.unit (mctlPdir s.mctl)
    let waits : Prop := exec (.mrow w) s = .next (s.onElem fun e => { e.tally 1 1 with blocked := some [] })
    MayConsume s [w.sa.toNat] 1 (· == 1) →
    (isHead role = false → s.elem.psums = [] → exec (.mrow w) s = .next (s.onElem fun e => e.tally 2 1)) ∧
    (∀ p : Option PSum, ((isHead role = true ∧ p = none) ∨ (isHead role = false ∧ p.isSome = true ∧ p = s.elem.psums.head?)) →
      ((∃ q, p = some q ∧ q.row ≠ x.row) →
        exec (.mrow w) s = .next ((s.halt s.cur.core s.cur.unit).raise s.cur.core 0x23 1 s.cur.unit 1)) ∧
      ((∀ q, p = some q → q.row = x.row) →
        (s.elem.wstate s.elem.usp = .empty → exec (.mrow w) s = .next s.unblock) ∧
        (s.elem.wstate s.elem.usp ≠ .empty → isTail role = true → s.elem.bstate s.elem.bp = .draining → waits) ∧
        (∀ n, s.elem.wstate s.elem.usp ≠ .empty → isTail role = false → next = some n → 2 ≤ (s.here.elem n).psums.length → waits) ∧
        (s.elem.wstate s.elem.usp ≠ .empty → s.roomFor (needsOf (s.outs w 0) 1) = true →
          let sums := rowSums x.payload (s.elem.weights s.elem.usp) ((p.map fun q => rowWords q.vals).getD (List.replicate 16 0))
          let vals := rowBits (sums.map (·.1))
          let taint := x.taint || p.any (·.taint)
          let ended := x.e.getLsbD (mctlEk s.mctl)
          let u := ((s.consume w.sa.toNat 1).fired (sums.foldl (fun a r => a.or r.2) Status.none).toBits ended).emitOn w 0
            [{ s.forward w x with tag := dataTag 1 true x.row }]
          let left (e : Elem) : Elem := { e.useWeights ended with psums := if isHead role then e.psums else e.psums.drop 1 }
          (isTail role = true → s.elem.bstate s.elem.bp ≠ .draining →
            exec (.mrow w) s = .next (u.onElem fun e => (left e).accumulate s.actl (BitVec.ofNat 4 x.row.toNat) vals taint ended)) ∧
          (∀ n, isTail role = false → next = some n → (s.here.elem n).psums.length < 2 →
            exec (.mrow w) s = .next ((u.onElem left).on fun c => c.onElem n fun e => { e with psums := e.psums ++ [⟨vals, x.row, taint⟩] })))))) ∧
  (∀ (s : State) (p : AccWrite) (rest : List AccWrite), s.elem.pending = p :: rest →
    let old (i : Nat) : Nat := (s.elem.bank p.bank).toNat / 2 ^ (32 * i) % 2 ^ 32
    let k1 := (constantOf s.here.cfg.active s.cur.unit 1).toNat
    let new (j : Nat) : Nat × Status := accumulateWord (actlMode s.actl) k1 (old (16 * p.row.toNat + j)) (p.vals.toNat / 2 ^ (32 * j) % 2 ^ 32)
    ∃ (bank : BitVec 8192) (st : Status), exec .bankAccumulateWrite s = .next (s.onElem fun e =>
        { ((e.setBank p.bank bank).setBtaint p.bank (e.btaint p.bank || p.taint)).flag st.toBits with pending := rest }) ∧
      Gathers st 16 (fun j => (new j).2) ∧
      (∀ j < 16, bank.toNat / 2 ^ (32 * (16 * p.row.toNat + j)) % 2 ^ 32 = (new j).1 % 2 ^ 32) ∧
      ∀ i < 256, i / 16 ≠ p.row.toNat → bank.toNat / 2 ^ (32 * i) % 2 ^ 32 = old i) ∧
  (∀ (w : Eow) (s : State), MayPass s [(w.sa.toNat, .data)] false [] →
    (s.elem.bstate s.elem.bp = .draining → exec (.mdrn w) s = .next (s.onElem fun e => { e.tally 1 1 with blocked := some [] })) ∧
    (s.elem.bstate s.elem.bp ≠ .draining → exec (.mdrn w) s = .next ((s.moved [w.sa] (s.headAt w.sa).endOfTile).onElem fun e =>
      e.triggerDrain s.elem.bp (actlPp s.actl)))) ∧
  (∀ (w : Eow) (s : State) (a b : Token), s.elem.skewed [w.sa.toNat] 2 false false = [] → s.elem.group w.sa.toNat 2 = [a, b] →
    (∀ t ∈ [a, b], t.kind = kindData ∧ formatAt s.here.cfg.active s.cur.unit t = some 0) →
    (a.row ≠ b.row → exec (.macc w) s = .next ((s.halt s.cur.core s.cur.unit).raise s.cur.core 0x23 1 s.cur.unit
      ((maskOf [w.sa.toNat]).setWidth 64))) ∧
    (a.row = b.row → s.elem.bstate s.elem.bp = .draining → exec (.macc w) s = .next (s.onElem fun e => { e.tally 1 1 with blocked := some [] })) ∧
    (a.row = b.row → s.elem.bstate s.elem.bp ≠ .draining → ∃ vals : BitVec 512,
      (∀ j < 16, vals.extractLsb' (32 * j) 32 = if j < 8 then a.payload.extractLsb' (32 * j) 32 else b.payload.extractLsb' (32 * (j - 8)) 32) ∧
      exec (.macc w) s = .next (((s.consume w.sa.toNat 2).fired 0 b.endOfTile).onElem fun e =>
        e.accumulate s.actl (BitVec.ofNat 4 a.row.toNat) vals (a.taint || b.taint) b.endOfTile))) ∧
  (∀ (s : State) (j : DrainJob) (rest : List DrainJob), s.elem.halted = false → s.elem.drains = j :: rest →
    let w := eowOf (eowField s.here.cfg.active s.cur.unit)
    let v := s.onElem fun e => { e with blocked := e.blockedDrain }
    let goesTo (u : State) : Prop :=
      exec .matrixDrain s = .next (u.onElem fun e => { e with blockedDrain := e.blocked, blocked := s.elem.blocked })
    (j.started = false → (∃ q ∈ s.elem.pending, q.bank = j.bank) → goesTo v) ∧
    (j.started = false → (∀ q ∈ s.elem.pending, q.bank ≠ j.bank) →
      (w.oe = 0 → goesTo (v.onElem fun e => { e.endDrain s.actl j with dr := e.dr + BitVec.ofNat 32 (actlRows s.actl) })) ∧
      (w.oe ≠ 0 → goesTo (v.onElem fun e =>
        { e with drains := { j with started := true, org0 := s.here.org[0].setWidth 32, org1 := s.here.org[1].setWidth 32,
                                    seed := s.here.seedHi ++ s.here.seedLo } :: rest }))) ∧
    (∀ res : Option Token, j.started = true →
      ((s.fuse.getLsbD 0 = false ∧ res = none) ∨
        (s.fuse.getLsbD 0 = true ∧ s.elem.barred w.sb.toNat = false ∧ res.isSome = true ∧ res = s.elem.head w.sb.toNat ∧
          ∀ t, res = some t → residualRefusal s.here.cfg.active s.cur.unit t = none)) →
      let outs := drainOuts (opcodeOf s.here.cfg.active s.cur.unit)
      s.roomFor (outs.flatMap fun o => needsOf (s.outs w o) 1) = true →
      let code := (vcFormat s.here.cfg.active s.cur.unit w.vco.toNat).getD 0
      let rowDone := laneCount code ≠ 8 ∨ j.half = true
      let last := j.row + 1 = actlRows s.actl ∧ rowDone
      let added (t : Token) : List FVal :=
        let from_ := (formatAt s.here.cfg.active s.cur.unit t).getD 0
        (lanes t.payload (laneWidth from_)).map (decodeFloat ((floatFmt from_).getD fp32))
      let ls := v.drainLanes w j code (if j.half then 8 else 0) (res.map added)
      let taint := s.elem.btaint j.bank || res.any (·.taint)
      ∃ (u : State) (after : Elem → Elem), goesTo (u.onElem after) ∧
        u = outs.foldl (fun u o => u.emitOn w o [v.dataToken w (packLanes (laneWidth code) (ls.map (·.1)))
          { row := BitVec.ofNat 7 j.row, e := if last then 1 else 0, taint := taint }]) (if res.isSome then v.consume w.sb.toNat 1 else v) ∧
        ∀ e : Elem, (last → (after e).drains = e.drains.drop 1 ∧ (after e).bstate j.bank = .free ∧ (after e).btaint j.bank = false) ∧
          (¬last → (after e).drains = { j with row := if rowDone then j.row + 1 else j.row, half := decide (laneCount code = 8) && !j.half } ::
            e.drains.drop 1 ∧ (after e).btaint j.bank = taint) ∧
          (after e).dr = (if rowDone then e.dr + 1 else e.dr)))

/-- R15, R16, R172–R178, R223, R229, R455. A token that stands behind a DRAIN is kept as a stray, and a DRAIN of another index is out of the way: log
entry 57. -/
def Obligations.FabricEvents : Prop :=
  (∀ (s : State) (f : Flight), s.flights[s.cur.n]? = some f → s.cur.flag = false → s.flightBehind s.cur.n f = true →
    exec .tokenArrival s = .next s ∧ exec .permitDenyDrop s = .next s ∧ exec .routeBroken s = .next s) ∧
  (∀ (s : State) (f : Flight), s.flights[s.cur.n]? = some f → s.cur.flag = true → s.flightBehind s.cur.n f = false → f.isTakeDrain = false →
    ∀ c ea entry side, s.pathFor s.cur.m f = .underWay c ea entry side →
      exec .tokenArrival s = .next { s with flights := s.flights.set s.cur.n { f with pos := some (c, ea, entry, side) } }) ∧
  (∀ (s : State) (p : Packet), s.net[s.cur.n]? = some p → s.cur.flag = true →
    let gone : State := { s with net := s.net.eraseIdx s.cur.n }
    (∀ core dir, s.fate p.src p.dst = .denied core dir →
      exec .permitDenyDrop s = .next (gone.emit 0x26 p.tag 0 0 0 0 0)) ∧
    (s.fate p.src p.dst = .arrives → exec .permitDenyDrop s = .next (if s.accepts p then s else gone))) ∧
  (∀ (s : State) (f : Flight), s.flights[s.cur.n]? = some f → s.cur.flag = false → s.flightBehind s.cur.n f = false →
    let gone : State := { s with flights := s.flights.eraseIdx s.cur.n }
    let dropped : State := gone.onPort f.dst fun p => { p with pend := p.pend - 1 }
    (f.isTakeDrain = false → (s.pathOf f = .clear ∨ (∃ box ea, s.pathOf f = .broken box ea ∧ f.tok.isWork = false)) →
      (s.portAt f.dst).closed = false →
      let arrived := gone.onPort f.dst fun p => { p with pend := p.pend - 1, toks := p.toks ++ [⟨f.tok, f.src.core⟩] }
      ((∀ c ea i, f.dst = .port c ea i → (s.core c).residualPort ea i = false ∨ f.tok.isWork = false) →
        exec .tokenArrival s = .next arrived) ∧
      (∀ c ea i, f.dst = .port c ea i → (s.core c).residualPort ea i = true → f.tok.isWork = true → ((s.core c).elem ea).halted = false →
        (residualRefusal (s.core c).cfg.active ea f.tok = none → exec .tokenArrival s = .next arrived) ∧
        (∀ why found, residualRefusal (s.core c).cfg.active ea f.tok = some (why, found) →
          exec .tokenArrival s = .next ((arrived.halt c ea).raise c 0x25 1 ea
            (BitVec.ofNat 64 (why * 2 ^ 20 + found * 2 ^ 16 + i * 2 ^ 8 + ea)))))) ∧
    (∀ dir core ea out, s.pathOf f = .denied dir → f.src = .elem core ea out →
      exec .permitDenyDrop s = .next ((dropped.halt core ea).raise core 0x26 1 ea (BitVec.ofNat 64 dir)) ∧
      exec .tokenArrival s = .next s) ∧
    (∀ box bea core ea out, s.pathOf f = .broken box bea → f.tok.isWork = true → f.src = .elem core ea out → f.isTakeDrain = false →
      exec .routeBroken s = .next ((dropped.halt core ea).raise core 0x27 1 ea (BitVec.ofNat 64 (box + bea * 2 ^ 16))) ∧
      exec .tokenArrival s = .next s) ∧
    (∀ box bea core k, s.pathOf f = .broken box bea → f.tok.isWork = true → f.src = .stream core k → f.isTakeDrain = false →
      exec .routeBroken s = .next ((dropped.haltSender core k).raise core 0x27 2 k (BitVec.ofNat 64 (box + bea * 2 ^ 16))) ∧
      exec .tokenArrival s = .next s)) ∧
  (∀ (s : State) (k : Credit), s.credits[s.cur.n]? = some k → k.final = false →
    exec .freeCountReturn s = .next (({ s with credits := s.credits.eraseIdx s.cur.n } : State).onPort k.dst fun p => { p with back := p.back - 1 })) ∧
  (∀ (s : State), let w := eowOf s.eow
    let is := roundInputs s.opcode w
    enabled s.here.cfg.active s.cur.unit = true → s.elem.passed = false → s.elem.halted = false → s.elem.sentDrain = false →
    s.elem.filling s.opcode = false → (s.findHead s.loops fun _ t => t.kind == kindMark) = none → s.marksReady = true → s.elem.idle s.opcode = true →
    ((∃ i ∈ is, s.elem.wrongRound i = true) →
      exec .roundClose s = .next ((s.halt s.cur.core s.cur.unit).raise s.cur.core 0x23 1 s.cur.unit ((maskOf is).setWidth 64))) ∧
    ((∀ i ∈ is, s.elem.wrongRound i = false) → s.releaseStep = none → s.roomFor (s.bothOuts w) = true →
      ∃ (u : State) (after : Elem → Elem), u = ((s.consumeAll is 1).emitBoth w (markToken s.elem.rnd w.vco (s.markTag is))).onElem after ∧
        exec .roundClose s = .next (if (s.markTag is).getLsbD 8 then u.pauseAtMark s.cur.core else u) ∧
        ∀ e : Elem, (after e).rnd = s.elem.rnd + 1 ∧ (after e).flushing = false ∧
          ∀ i (h : i < 4), (after e).owed[i] = if i ∈ s.loops then e.owed[i] ++ [s.elem.rnd] else e.owed[i])) ∧
  (∀ (s : State) (i : Nat) (t : Token), enabled s.here.cfg.active s.cur.unit = true → s.elem.passed = false → i < 4 →
    s.elem.filling s.opcode = false → (s.findHead (s.here.boundInputs s.cur.unit) fun _ t => t.kind == kindDrain) = some (i, t) →
    let fits : Prop := t.payload.extractLsb' 0 16 = s.here.cfg.idx
    ∃ u, exec .elementDrainPass s = .next u ∧ (u.elem.port i).toks = (s.elem.port i).toks.drop 1 ∧ u.mem = s.mem ∧
      (∀ j, j ≠ i → u.elem.port j = s.elem.port j) ∧
      (fits → (u.elem.port i).closed = true ∧ (u.elem.port i).pend = (s.elem.port i).pend ∧
        u.elem.stray = if (s.elem.port i).toks.length = 1 ∨ s.elem.stray.isSome = true then s.elem.stray else some (BitVec.ofNat 2 i)) ∧
      (¬fits → (u.elem.port i).closed = (s.elem.port i).closed ∧ (u.elem.port i).pend = (s.elem.port i).pend + 1 ∧
        u.elem.stray = if s.elem.stray.isSome = true then s.elem.stray else some (BitVec.ofNat 2 i))) ∧
  (∀ (s : State), let w := eowOf s.eow
    enabled s.here.cfg.active s.cur.unit = true → s.elem.passed = false → s.elem.filling s.opcode = false →
    (s.findHead (s.here.boundInputs s.cur.unit) fun _ t => t.kind == kindDrain) = none → s.elem.sentDrain = false → s.inputsClosed = true →
    (s.elem.halted = true ∨ (s.elem.idle s.opcode = true ∧ s.flushStep = none)) → s.roomFor (s.bothOuts w) = true →
    ∃ v, v = ((s.dropReplies.emitBoth w (drainToken s.here.cfg.idx s.elem.rnd w.vco)).returnCounts (s.outs w 0 ++ s.outs w 1)).onElem (fun e =>
        { e with sentDrain := true, passed := e.allClosed s.loops, flushing := false,
                 opst := if e.halted then e.opst else { e.opst with held := none } }) ∧
      exec .elementDrainPass s = .next (v.beginDrain s.cur.core)) ∧
  (∀ (s : State) (i : Nat) (t : Token), enabled s.here.cfg.active s.cur.unit = true → s.elem.halted = true →
    (s.findHead (s.here.boundInputs s.cur.unit) fun _ t => t.kind != kindDrain) = some (i, t) →
    exec .haltedDiscard s = .next (((s.consume i 1).onElem fun e => e.tally 3 1).discardToken s.cur.core s.cur.unit t)) ∧
  (∀ (s : State), enabled s.here.cfg.active s.cur.unit = true → s.elem.halted = true →
    (s.findHead (s.here.boundInputs s.cur.unit) fun _ t => t.kind != kindDrain) = none →
    exec .haltedDiscard s = .next (s.onElem fun e => { e with psums := e.psums.drop 1 })) ∧
  (∀ (s : State), let w := eowOf (eowField s.here.cfg.active s.cur.unit)
    opcodeOf s.here.cfg.active s.cur.unit = 0x69 → s.elem.opst.any = true → enabled s.here.cfg.active s.cur.unit = true →
    s.elem.halted = false → s.elem.passed = false → s.elem.sentDrain = false →
    (s.roomFor (s.bothOuts w) = true → exec .mkgnMarkInsert s = .next
      (((s.emitBoth w (markToken s.elem.rnd w.vco 0)).onElem fun e => { e with rnd := e.rnd + 1 }).onOpst fun o => { o with any := false })) ∧
    (s.roomFor (s.bothOuts w) = false → exec .mkgnMarkInsert s = .next (s.onElem fun e =>
      { e.tally 1 1 with blocked := some (s.lacking (s.bothOuts w)) })))

/-- R233, R291–R300, R428. The DRAIN with ROUND 0 is log entry 57; a record without side entries that waits for all released side stores is log entry
43. -/
def Obligations.RouterRecords : Prop :=
  let admits (c : Core) (set : Nat) (seq : BitVec 20) (d : Nat) : Prop :=
    d = (c.windowOf set seq + c.windows set - (c.stageSet set).o) % c.windows set
  (∀ (c : Core) (set : Nat) (seq : BitVec 20) (d : Nat), admits c set seq d → c.router.held = false →
    let there := ∃ e ∈ c.router.entries, e.set.toNat = set ∧ recordSeq e.tok.payload = seq
    let behind := 2 ^ 20 / (2 * c.window set) ≤ d
    let early := c.ordered set = true ∧ c.capacity set ≤ (seq - (c.stageSet set).next).toNat
    ((behind ∨ there) → c.admission set seq = .refused) ∧
    (¬behind → ¬there → (c.capacity set ≤ (c.records set).length ∨ 1 < d ∨ early) → c.admission set seq = .waits) ∧
    (¬behind → ¬there → (c.records set).length < c.capacity set → d ≤ 1 → ¬early → c.admission set seq = .granted)) ∧
  (∀ (i : Instr) (w : Eow) (s : State), (i = .sent w ∨ (i = .routerAdmission ∧ w = eowOf (eowField s.here.cfg.active s.cur.unit) ∧
      enabled s.here.cfg.active s.cur.unit = true ∧ opcodeOf s.here.cfg.active s.cur.unit = 0x73 ∧ s.elem.halted = false ∧
      s.elem.passed = false ∧ s.elem.sentDrain = false)) →
    MayPass s [(w.sa.toNat, .record)] false [] →
    let set := w.aux.toNat % 8
    let t := s.headAt w.sa
    let seq := recordSeq t.payload
    (s.here.admission set seq = .waits → exec i s = .next (s.onElem fun e => { e.tally 1 1 with blocked := some [] })) ∧
    (s.here.admission set seq = .refused → ∃ u, u = (s.consume w.sa.toNat 1).abandonFields s.cur.core set t.payload ∧
      exec i s = .next (u.elementFault 0x52 (BitVec.ofNat 64 (seq.toNat + set * 2 ^ 20)))) ∧
    (s.here.admission set seq = .granted → ∃ x : Token, exec i s = .next ((s.moved [w.sa] false).on fun c => c.addRecord set x) ∧
      recordFields x.payload = recordFields t.payload ∧ recordSeq x.payload = seq ∧ recordDone x.payload = 0 ∧
      (recordSet x.payload).toNat = set ∧ x.taint = t.taint)) ∧
  (∀ (c : Core) (set : Nat) (t : Token), (c.addRecord set t).router.entries.length = c.router.entries.length + 1 ∧
    ∃ e, (c.addRecord set t).router.entries = c.router.entries ++ [e] ∧ e.tok = t ∧ e.set = BitVec.ofNat 3 set ∧ e.out = none ∧
      e.complete = false ∧ e.sides = []) ∧
  (∀ (w : Eow) (s : State), let bound := decide (w.sb.toNat < 4)
    MayPass s ((w.sa.toNat, .record) :: (if bound then [(w.sb.toNat, .data)] else [])) false [] →
    let t := s.headAt w.sa
    let m := s.here.stageOf s.cur.unit
    let taken := s.moved (w.sa :: (if bound then [w.sb] else [])) false
    let wrong := (recordSet t.payload).toNat ≠ m.1 ∨ (recordDone t.payload).getLsbD m.2.1 = true
    (wrong → exec (.sret w) s = .next (taken.elementFault 0x50
      (BitVec.ofNat 64 ((recordSeq t.payload).toNat + (recordSet t.payload).toNat * 2 ^ 20)))) ∧
    (¬wrong → 4 ≤ (s.here.stageSet m.1).rtq.length → exec (.sret w) s = .next (s.onElem fun e => { e.tally 1 1 with blocked := some [] })) ∧
    (¬wrong → (s.here.stageSet m.1).rtq.length < 4 → ∃ x : Token,
      exec (.sret w) s = .next (taken.on fun c => c.onSet m.1 fun q => { q with rtq := q.rtq ++ [x] }) ∧
      recordFields x.payload = recordFields t.payload ∧ recordSeq x.payload = recordSeq t.payload ∧
      recordDone x.payload = recordDone t.payload ||| BitVec.ofNat 8 (2 ^ m.2.1) ∧
      recordPass x.payload = (!bound || (s.headAt w.sb).isTrue) ∧ x.taint = (t.taint || (bound && (s.headAt w.sb).taint)))) ∧
  (∀ (s : State) (e : RecordEntry) (k : Nat), s.here.router.held = false → s.here.router.log < 2 →
    (s.here.router.log = 1 → s.here.router.logCur + 1 ≠ s.here.router.logSize) →
    let set := e.set.toNat
    ((s.here.router.drawn = none ∧ s.here.oldestReady = some e ∧ k = s.drawStage s.cur.core e) ∨
      ∃ kept : BitVec 3, s.here.router.drawn = some (e.set, recordSeq e.tok.payload, kept) ∧ k = kept.toNat ∧
        (s.here.records set).find? (fun x => recordSeq x.tok.payload == recordSeq e.tok.payload) = some e) →
    let recording := s.here.router.log = 1
    let port := s.here.setPort s.cur.core set (8 + k)
    (s.roomFor [(port, 1)] = false → exec .routerDraw s = .next (s.on fun c =>
      { c with router := { c.router with drawn := some (e.set, recordSeq e.tok.payload, BitVec.ofNat 3 k) } })) ∧
    (s.roomFor [(port, 1)] = true → ∃ f : Core → Core, exec .routerDraw s = .next
        ((s.launchTokens (.router s.cur.core) [(8, port)] [{ e.tok with tag := 0, round := 0, e := 0, kind := kindRecord }]).onCore s.cur.core f) ∧
      ∀ c, (f c).router.drawn = none ∧ (f c).router.logCur = (if recording then c.router.logCur + 1 else c.router.logCur) ∧
        (f c).router.sets = c.router.sets ∧
        (f c).router.entries = (c.onEntry set (recordSeq e.tok.payload) fun x =>
          { x with out := some (BitVec.ofNat 3 k), logAt := if recording then some s.here.router.logCur else none, expect := none }).router.entries)) ∧
  (∀ (s : State) (core : Nat) (e : RecordEntry), let c := s.core core
    let t := c.stageSet e.set.toNat
    let seq := (recordSeq e.tok.payload).toNat
    let total := (c.remaining e).foldl (fun a k => a + s.tickets core e k) 0
    let r := (t.seed.toNat + (seq * 8 + stepOf e.tok.payload + 1) * 0x9E3779B9) % 2 ^ 32 / 2 ^ 16 * total / 2 ^ 16
    c.remaining e ≠ [] → c.nst e.set.toNat ≤ 8 →
    (t.lmode = 0 → s.drawStage core e ∈ c.remaining e ∧ ∀ k ∈ c.remaining e, s.drawStage core e ≤ k) ∧
    (t.lmode ≠ 0 → ∃ pre post, c.remaining e = pre ++ s.drawStage core e :: post ∧
      pre.foldl (fun a k => a + s.tickets core e k) 0 ≤ r ∧
      r < pre.foldl (fun a k => a + s.tickets core e k) 0 + s.tickets core e (s.drawStage core e))) ∧
  (∀ (s : State) (set : Nat) (t : Token) (rest : List Token) (e : RecordEntry), s.here.nextReturn = some set →
    (s.here.stageSet set).rtq = t :: rest → s.here.router.held = false →
    (s.here.records set).find? (fun e => recordSeq e.tok.payload == recordSeq t.payload && e.out.isSome) = some e →
    (e.expect = none ∨ e.expect = some (recordPass t.payload)) →
    ∃ v : State, exec .routerReturn s = .next (v.recordReturned s.cur.core e t (returnedStage e t)) ∧
      (v.here.stageSet set).rtq = rest ∧ v.here.router.entries = s.here.router.entries) ∧
  (∀ (s : State) (core : Nat) (e : RecordEntry) (t : Token) (k : Nat), recordPass t.payload = true → e.logAt = none →
    let set := e.set.toNat
    let complete := ∀ j < (s.core core).nst set, (recordDone t.payload).getLsbD j = true
    let side := ((s.core core).member set k).map (·.2) = some true
    ∃ f : RecordEntry → RecordEntry, ((s.recordReturned core e t k).core core).router.entries =
        (s.core core).router.entries.map (fun x => if x.set.toNat = set ∧ recordSeq x.tok.payload = recordSeq t.payload then f x else x) ∧
      ∀ x, (f x).out = none ∧ (f x).tok.payload = t.payload ∧ ((f x).complete = true ↔ complete) ∧
        (f x).sides = if side then x.sides ++ [(BitVec.ofNat 3 k, t.payload)] else x.sides) ∧
  (∀ (s : State) (core : Nat) (e : RecordEntry) (t : Token) (k : Nat), recordPass t.payload = false →
    (∃ u : State, s.recordReturned core e t k = u.dropRecord core e.set.toNat t.payload) ∧
    ∀ u : State, (∀ x ∈ ((u.dropRecord core e.set.toNat t.payload).core core).router.entries,
        ¬(x.set = e.set ∧ recordSeq x.tok.payload = recordSeq t.payload)) ∧
      (((u.dropRecord core e.set.toNat t.payload).core core).stageSet e.set.toNat).drops = ((u.core core).stageSet e.set.toNat).drops + 1) ∧
  (∀ (s : State) (e : RecordEntry), s.here.router.held = false → s.here.router.entries[s.cur.n]? = some e → e.complete = true →
    let set := e.set.toNat
    let seq := recordSeq e.tok.payload
    let port := s.here.setPort s.cur.core set 2
    (s.here.ordered set = true → seq ≠ (s.here.stageSet set).next → exec .routerExit s = .next s) ∧
    ((s.here.ordered set = true → seq = (s.here.stageSet set).next) →
      (e.releasing = none → ∃ ps : List Payload, ps = (List.range 8).flatMap (fun k => (e.sides.filter fun x => x.1.toNat == k).map (·.2)) ∧
        (s.here.router.stopped = true → ps ≠ [] → exec .routerExit s = .next s) ∧
        ((s.here.router.stopped = false ∨ ps = []) →
          exec .routerExit s = .next ((ps.foldl (fun s p => s.releaseSide s.cur.core set e.tok p) s).on fun c =>
            c.onEntry set seq fun e => { e with releasing := some ps }))) ∧
      (∀ ps, e.releasing = some ps → e.slotted = false → s.roomFor [(port, 1)] = true →
        exec .routerExit s = .next ((s.onPort port fun p => { p with pend := p.pend + 1 }).on fun c =>
          c.onEntry set seq fun e => { e with slotted := true })) ∧
      (∀ ps, e.releasing = some ps → e.slotted = true →
        (∃ x ∈ s.here.router.stores, if ps = [] then x.seq ≠ none else x.set = e.set ∧ x.seq = some seq) → exec .routerExit s = .next s) ∧
      (∀ ps, e.releasing = some ps → e.slotted = true →
        (∀ x ∈ s.here.router.stores, if ps = [] then x.seq = none else x.set = e.set → x.seq ≠ some seq) →
        let t : Token := { e.tok with tag := 0, round := 0, e := 0, kind := kindRecord }
        let out : Flight := { src := .router s.cur.core, dst := port, entry := 8, pos := none, tok := t }
        exec .routerExit s = .next (({ s with flights := s.flights ++ [out] } : State).on fun c =>
            ((c.dropEntry set seq).onSet set fun q => { q with exits := q.exits + 1 }).leaves set seq)))) ∧
  (∀ (s : State) (x : SideStore) (rest : List SideStore), s.here.router.stopped = false → s.here.router.stores = x :: rest →
    (∀ i ∈ x.holds, ∀ k ∈ s.checks, k.id ≠ i) →
    (∀ t code, s.translate s.cur.core s.here.ctxTag .write x.addr = (t, .error code) → code ≠ noAnswer →
      exec .sideStore s = .next (t.routerFault s.cur.core x.set.toNat code x.addr)) ∧
    (∀ t a, s.translate s.cur.core s.here.ctxTag .write x.addr = (t, .ok a) →
      (∀ u ∈ t.supd, ∀ e ∈ u.window, a + x.data.length ≤ e.phys ∨ e.phys + e.size ≤ a) →
      t.memoryFate t.cur.core a = .arrives → let q := t.seqNums s.cur.core 9 ((s.here.router.owns[stackOf a]?).getD 0) false
      (chainStepOf t.chains (stackOf a) q = none → exec .sideStore s = .next t) ∧
      (∀ cs, chainStepOf t.chains (stackOf a) q = some cs →
        exec .sideStore s = .next (({ t with mem := writeBytes t.mem a x.data, chains := cs } : State).on fun c =>
          { c with router := { c.router.counted (stackOf a) with stores := rest } })))) ∧
  (∀ (s : State), let set := s.cur.unit
    s.here.router.held = false → s.here.nst set ≠ 0 → (s.here.stageSet set).drainSent = false → s.here.sendersDone (some set) = true →
    s.here.records set = [] → (s.here.stageSet set).rtq = [] → s.here.router.stores = [] →
    let ports := (List.range (s.here.nst set)).map (fun k => s.here.setPort s.cur.core set (8 + k)) ++ [s.here.setPort s.cur.core set 2]
    s.roomFor (ports.map fun d => (d, 1)) = true → exec .routerDrain s = .next
      ((s.launchTokens (.router s.cur.core) (ports.map fun d => (8, d)) [drainToken s.here.cfg.idx 0 0]).on fun c =>
        ((c.closeWindow set).closeWindow set).onSet set fun q => { q with drainSent := true }))

/-- R305–R309. RT.CFG answers OPERAND before BUSY by log entry 43. -/
def Obligations.RouterCommands : Prop :=
  let answers (i : Instr) (s : State) (d : SReg) (v : Word) (f : Core → Core) : Prop := CompletesIn i s s 4 fun c => (f c).setReg d v
  (∀ d a b p (s : State), s.here.pred p = true → let x := s.here.reg a
    let v := s.here.reg b
    let set := (x.extractLsb' 0 3).toNat
    let k := (x.extractLsb' 8 4).toNat
    let bad := (k = 1 ∧ (v.toNat % 32 ≠ 0 ∨ 2 ^ 55 ≤ v.toNat)) ∨ (k = 2 ∧ 2 ^ 20 ≤ v.toNat) ∨ 3 < k
    (bad → answers (.rtCfg d a b p) s d 2 id) ∧
    (¬bad → s.here.records set ≠ [] → answers (.rtCfg d a b p) s d 1 id) ∧
    (¬bad → s.here.records set = [] →
      (k = 0 → answers (.rtCfg d a b p) s d 0 fun c => c.onSet set fun t => { t with seed := v.setWidth 32 }) ∧
      (k = 1 → answers (.rtCfg d a b p) s d 0 fun c => c.onSet set fun t => { t with sbase := v.setWidth 55 }) ∧
      (k = 2 → answers (.rtCfg d a b p) s d 0 fun c => c.onSet set fun t =>
        { t with seq0 := v.setWidth 20, next := v.setWidth 20, o := 0, wins := Vector.replicate 2 Window.reset,
                 p1 := Vector.replicate 8 128, p2 := Vector.replicate 8 128, gone := [] }) ∧
      (k = 3 → answers (.rtCfg d a b p) s d 0 fun c => c.onSet set fun t => { t with cur := v.setWidth 32 }))) ∧
  (∀ d a b p (s : State), s.here.pred p = true → let set := ((s.here.reg a).extractLsb' 0 3).toNat
    let mode := (s.here.reg b).extractLsb' 0 2
    let ends := (s.here.reg b).getLsbD 4
    let bad := mode = 3 ∨ (mode = 2 ∧ s.isDet s.cur.core = true)
    (bad → answers (.rtMode d a b p) s d 2 id) ∧
    (¬bad → s.here.nst set = 0 → answers (.rtMode d a b p) s d 3 id) ∧
    (¬bad → s.here.nst set ≠ 0 → s.here.records set ≠ [] → ends = false → answers (.rtMode d a b p) s d 1 id) ∧
    (¬bad → s.here.nst set ≠ 0 → s.here.records set = [] → ends = false →
      answers (.rtMode d a b p) s d 0 fun c => c.onSet set fun t => { t with lmode := mode }) ∧
    (¬bad → s.here.nst set ≠ 0 → ends = true → ∃ f : Core → Core, answers (.rtMode d a b p) s d 0 f ∧
      ∀ c, (f c).router.held = false ∧ (f c).router.log = (if c.router.log = 2 then 0 else c.router.log) ∧
        (f c).router.sets = (c.onSet set fun t => { t with lmode := mode }).router.sets)) ∧
  (∀ d a p (s : State), s.here.pred p = true → let x := s.here.reg a
    let set := (x.extractLsb' 0 3).toNat
    let k := (x.extractLsb' 8 4).toNat
    let c := s.here
    let t := c.stageSet set
    ∃ v : Word, answers (.rtQry d a p) s d v id ∧
      ((c.nst set = 0 ∨ 5 < k) → v = BitVec.allOnes 64) ∧
      (c.nst set ≠ 0 →
        (k = 0 → (c.records set).length < 256 → (c.records set).foldl (fun n e => n + e.sides.length) 0 < 256 →
          (v.extractLsb' 0 4).toNat = c.nst set ∧ v.extractLsb' 4 2 = t.lmode ∧ v.getLsbD 6 = c.router.held ∧ v.getLsbD 7 = c.ordered set ∧
          (v.extractLsb' 8 8).toNat = (c.records set).length ∧
          (v.extractLsb' 16 8).toNat = (c.records set).foldl (fun n e => n + e.sides.length) 0 ∧
          v.extractLsb' 24 2 = c.router.log ∧ v.extractLsb' 32 32 = t.admissions) ∧
        ((k = 1 ∨ k = 2) → ∀ j < 4, ∀ r, t.p1[4 * (k - 1) + j]? = some r → (∀ q ∈ t.p1.toList, q < 512) →
          (v.extractLsb' (9 * j) 9).toNat = r) ∧
        (k = 3 → v.extractLsb' 0 20 = t.next ∧ v.extractLsb' 20 20 = t.seq0 + BitVec.ofNat 20 (t.o * c.window set)) ∧
        (k = 4 → v = t.drops ++ t.exits) ∧
        (k = 5 → v.toNat = c.router.logDone % 2 ^ 25))) ∧
  (∀ d a b e p (s : State), s.here.pred p = true → let op := (s.here.reg a).extractLsb' 0 2
    let base := s.here.reg b
    let n := (s.here.reg e).toNat
    let bad := base.toNat % 4 ≠ 0 ∨ 2 ^ 55 ≤ base.toNat ∨ n < (if op = 1 then 2 else 1) ∨ 2 ^ 24 < n
    (op = 3 → answers (.rtLog d a b e p) s d 2 id) ∧
    (op = 0 → answers (.rtLog d a b e p) s d 0 fun c => { c with router := { c.router with logNext := none } }) ∧
    ((op = 1 ∨ op = 2) → s.variant.full = false → answers (.rtLog d a b e p) s d 7 id) ∧
    ((op = 1 ∨ op = 2) → s.variant.full = true → bad → answers (.rtLog d a b e p) s d 2 id) ∧
    ((op = 1 ∨ op = 2) → s.variant.full = true → ¬bad →
      answers (.rtLog d a b e p) s d 0 fun c => { c with router := { c.router with logNext := some (op, base.setWidth 55, n) } }))

namespace Sys2Proof

/-- A JRN instruction whose reply `v` is on its way to `d`, in the state `t` that its effect leaves: issue is held until JOURNAL_REPLY
(R364). The one condition is on `s`: its loop test leads to no misaligned start (R76, R80, R87). -/
def JournalAnswers (i : Instr) (s t : State) (d : SReg) (v : Word) : Prop :=
  misaligned (s.here.finish 4).pc = false → exec i s = .next { t.on (fun c => { c with wait := .journal t.here.nextId, nextId := c.nextId + 1 }) with
    journal := { t.journal with calls := t.journal.calls ++ [⟨t.cur.core, t.here.nextId, d, v⟩] } }

/-- A refusal of the journal: bit 63 and a code (R364). -/
def refusalWord (code : Nat) : Word := BitVec.ofNat 64 (2 ^ 63 + code)

end Sys2Proof

/-- R364–R371. The order of a proposal's checks, and OPERAND for a move that would leave a partition in pieces, are log entry 51; a walk without an
answer (noAnswer) leaves the instruction to be issued again (log entry 59). -/
def Obligations.JournalCommands : Prop :=
  let qwords (s : State) (addr : Word) (n : Nat) : List Word :=
    (List.range (n / 8)).map fun i => BitVec.ofNat 64 (readScratch s.here (addr.toNat + 8 * i) 8)
  let inScratch (a : Word) (n : Nat) : Prop := a.toNat % n = 0 ∧ a.toNat + n ≤ 0x10000
  (∀ (i : Instr) (d a b : SReg) (p : PReg) (n : Nat) (s : State) (addr : Word), s.here.pred p = true →
    ((n = 64 ∧ addr = s.here.reg a ∧ (i = .jrnProp d a p ∨ i = .jrnExp d a p ∨ i = .jrnLoad d a p)) ∨
      (n = 32 ∧ addr = s.here.reg a ∧ i = .jrnSub d a p) ∨ (n = 64 ∧ addr = s.here.reg b ∧ i = .jrnRd d a b p)) →
    (addr.toNat % n ≠ 0 → TakesTrap i s 0x02 addr) ∧ (addr.toNat % n = 0 → 0x10000 < addr.toNat + n → TakesTrap i s 0x09 addr)) ∧
  (∀ d a p (s : State), s.here.pred p = true → inScratch (s.here.reg a) 64 →
    let q := qwords s (s.here.reg a) 64
    (∀ t v, s.propose s.programHere q = (t, .ok v) → JournalAnswers (.jrnProp d a p) s t d v) ∧
    (∀ t code va, s.propose s.programHere q = (t, .error (code, va)) →
      (code ≠ noAnswer → misaligned (s.here.finish 4).pc = false → exec (.jrnProp d a p) s = .next (t.precise code va)) ∧
      (code = noAnswer → misaligned (s.here.finish 4).pc = false → exec (.jrnProp d a p) s = .next t)) ∧
    (∀ code, s.exportJob s.programHere q = .error code → JournalAnswers (.jrnExp d a p) s s d (refusalWord code)) ∧
    (∀ j, s.exportJob s.programHere q = .ok j →
      JournalAnswers (.jrnExp d a p) s { s with journal := { s.journal with jobs := s.journal.jobs ++ [j] } } d 0) ∧
    (∀ code, s.loadJob s.programHere q = .error code → JournalAnswers (.jrnLoad d a p) s s d (refusalWord code)) ∧
    (∀ j, s.loadJob s.programHere q = .ok j →
      JournalAnswers (.jrnLoad d a p) s { s with journal := { s.journal with jobs := s.journal.jobs ++ [j] } } d 0)) ∧
  (∀ (s : State) (w : Proposer) (q : List Word), let at_ (i : Nat) : Word := (q[i]?).getD 0
    let kind : BitVec 4 := (at_ 0).extractLsb' 48 4
    (3 < kind.toNat → s.propose w q = (s, .ok (refusalWord 2))) ∧
    ((at_ 0 ≠ kind.setWidth 64 <<< 48 ∨ at_ 2 ≠ 0 ∨ (at_ 5).extractLsb' 0 48 ≠ 0 ∨ at_ 6 ≠ 0 ∨ at_ 7 ≠ 0 ∨
        ((at_ 3).getLsbD 63 = false ∧ ((at_ 3).extractLsb' 48 16 ≠ 0 ∨ (at_ 4).extractLsb' 0 32 ≠ 0)) ∨
        ((at_ 3).getLsbD 63 = true ∧ ((at_ 3).extractLsb' 55 8 ≠ 0 ∨ (at_ 4).extractLsb' 0 56 ≠ 0 ∨ (at_ 4).extractLsb' 56 8 = 0))) →
      s.propose w q = (s, .ok (refusalWord 2))) ∧
    (at_ 0 = kind.setWidth 64 <<< 48 → kind.toNat ≤ 3 → at_ 2 = 0 → (at_ 3).extractLsb' 48 16 = 0 → (at_ 4).extractLsb' 0 32 = 0 →
      (at_ 5).extractLsb' 0 48 = 0 → at_ 6 = 0 → at_ 7 = 0 →
      let e : ImageEntry := ⟨(at_ 3).extractLsb' 0 32, (at_ 3).extractLsb' 32 16, 0, (at_ 4).extractLsb' 32 32⟩
      let sc : BitVec 40 := (at_ 1).extractLsb' 0 40
      (∀ code, s.scopeRefusal w.part (at_ 1) = some code → s.propose w q = (s, .ok (refusalWord code))) ∧
      (s.scopeRefusal w.part (at_ 1) = none →
        (∀ code, s.keyRefusal w.program w.part kind sc e = some code → s.propose w q = (s, .ok (refusalWord code))) ∧
        (s.keyRefusal w.program w.part kind sc e = none → s.keepsPartitions [e] = false → s.propose w q = (s, .ok (refusalWord 2))) ∧
        (s.keyRefusal w.program w.part kind sc e = none → s.keepsPartitions [e] = true →
          (s.roomForTx = none → s.propose w q = (s, .ok (refusalWord 1))) ∧
          (∀ u, s.roomForTx = some u → s.propose w q = ((u.recordTx .proposed fun x =>
            { x with kind := kind, origin := w.origin, scope := sc, img := false, entries := [e], tag := w.tag,
                     trial := s.trialOf w.part ((at_ 5).extractLsb' 48 16).toNat }).proceedTx u.journal.nextNum,
            .ok (BitVec.ofNat 64 u.journal.nextNum)))))) ∧
    (at_ 0 = kind.setWidth 64 <<< 48 → kind.toNat ≤ 3 → at_ 2 = 0 → (at_ 3).extractLsb' 55 9 = 0x100 → (at_ 4).extractLsb' 0 56 = 0 →
      (at_ 4).extractLsb' 56 8 ≠ 0 → (at_ 5).extractLsb' 0 48 = 0 → at_ 6 = 0 → at_ 7 = 0 → s.scopeRefusal w.part (at_ 1) = none →
      let image := s.fetchBytes w.core w.tag ((at_ 3).extractLsb' 0 55 |>.setWidth 64) (16 * ((at_ 4).extractLsb' 56 8).toNat)
      let sc : BitVec 40 := (at_ 1).extractLsb' 0 40
      (∀ u fault, image = (u, .error fault) → s.roomForTx.isSome = true → s.propose w q = (u, .error fault)) ∧
      (∀ u bs es, image = (u, .ok bs) →
        (imageEntries (qwordsOf bs) = (es, false) → s.propose w q = (u, .ok (refusalWord 2))) ∧
        (imageEntries (qwordsOf bs) = (es, true) → (∀ e ∈ es, u.keyRefusal w.program w.part kind sc e = none) → u.keepsPartitions es = true →
          (u.roomForTx = none → s.propose w q = (u, .ok (refusalWord 1))) ∧
          (∀ v, u.roomForTx = some v → s.propose w q = ((v.recordTx .proposed fun x =>
            { x with kind := kind, origin := w.origin, scope := sc, img := true, entries := es, tag := w.tag,
                     trial := u.trialOf w.part ((at_ 5).extractLsb' 48 16).toNat }).proceedTx v.journal.nextNum,
            .ok (BitVec.ofNat 64 v.journal.nextNum))))))) ∧
  (∀ d a p (s : State), s.here.pred p = true → inScratch (s.here.reg a) 32 →
    let q := qwords s (s.here.reg a) 32
    let tag := s.here.ctxTag
    let n := lowestFree (s.ctx tag).subs 16
    (∀ code, s.subscription q = .error code → JournalAnswers (.jrnSub d a p) s s d (refusalWord code)) ∧
    (∀ b, s.subscription q = .ok b → let taken := s.onCtx tag fun c => { c with subs := Sparse.put c.subs n b }
      (∀ u code, taken.translate b.core tag .write b.c = (u, .error code) → code ≠ noAnswer →
        JournalAnswers (.jrnSub d a p) s (u.endSub tag n b.core code b.c) d (BitVec.ofNat 64 n)) ∧
      (∀ u at_, taken.translate b.core tag .write b.c = (u, .ok at_) → u.portFate at_ = .arrives → ∃ v : State,
        v = { u.applyPending at_ 16 with mem := writeBytes (u.applyPending at_ 16).mem at_ (bytesOf 16 0) } ∧
        (((q[3]?).getD 0).getLsbD 16 = false → JournalAnswers (.jrnSub d a p) s v d (BitVec.ofNat 64 n)) ∧
        (((q[3]?).getD 0).getLsbD 16 = true → JournalAnswers (.jrnSub d a p) s
          ((v.journal.records.filter fun r => v.touches r b.scope).foldl (fun t r => t.deliverCopy tag n r) v) d (BitVec.ofNat 64 n))))) ∧
  (∀ d a p (s : State), s.here.pred p = true → let n := (s.here.reg a).toNat % 16
    (Sparse.find (s.ctx s.here.ctxTag).subs n = none → JournalAnswers (.jrnUsub d a p) s s d (refusalWord 6)) ∧
    ((Sparse.find (s.ctx s.here.ctxTag).subs n).isSome = true →
      JournalAnswers (.jrnUsub d a p) s (s.onCtx s.here.ctxTag fun c => { c with subs := Sparse.drop c.subs n }) d 0)) ∧
  (∀ d a b p (s : State), s.here.pred p = true → let sc : BitVec 40 := (s.here.reg a).extractLsb' 0 40
    let v := ((s.here.reg b).extractLsb' 0 48).toNat
    (∀ code, s.scopeRefusal s.here.ctxPart (s.here.reg a) = some code → JournalAnswers (.jrnPin d a b p) s s d (refusalWord code) ∧
      JournalAnswers (.jrnVer d a p) s s d (refusalWord code)) ∧
    (s.scopeRefusal s.here.ctxPart (s.here.reg a) = none →
      JournalAnswers (.jrnVer d a p) s s d (BitVec.ofNat 64 (s.versionOf sc)) ∧
      (v ≠ s.versionOf sc → JournalAnswers (.jrnPin d a b p) s s d (refusalWord 5)) ∧
      (v = s.versionOf sc → 64 ≤ s.journal.pins.length → JournalAnswers (.jrnPin d a b p) s s d (refusalWord 8)) ∧
      (v = s.versionOf sc → s.journal.pins.length < 64 → let n := lowestFree s.journal.pins 64
        JournalAnswers (.jrnPin d a b p) s
          { s with journal := { s.journal with pins := Sparse.put s.journal.pins n ⟨sc, v, s.here.ctxTag⟩ } } d (BitVec.ofNat 64 n)))) ∧
  (∀ d a p (s : State), s.here.pred p = true → let n := (s.here.reg a).toNat % 64
    (Sparse.find s.journal.pins n = none → JournalAnswers (.jrnUpin d a p) s s d (refusalWord 6)) ∧
    (∀ q, Sparse.find s.journal.pins n = some q →
      (q.tag ≠ s.here.ctxTag → JournalAnswers (.jrnUpin d a p) s s d (refusalWord 6)) ∧
      (q.tag = s.here.ctxTag → JournalAnswers (.jrnUpin d a p) s
        ({ s with journal := { s.journal with pins := Sparse.drop s.journal.pins n } } : State).settleJournal d 0))) ∧
  (∀ d a b p (s : State), s.here.pred p = true → inScratch (s.here.reg b) 64 →
    let found := s.findTx s.here.ctxPart ((s.here.reg a).extractLsb' 0 48).toNat
    (∀ code, found = .error code → JournalAnswers (.jrnRd d a b p) s s d (refusalWord code)) ∧
    (∀ t, found = .ok t → ∃ v, JournalAnswers (.jrnRd d a b p) s
      (s.on fun c => writeScratch c (s.here.reg b).toNat (bytesNat (t.bytes 0)) 64) d v ∧ some v.toNat = (t.qwords 0).head?.map (· % 2 ^ 64))) ∧
  (∀ (s : State) (part : BitVec 5) (n : Nat), (n < s.journal.oldest → s.findTx part n = .error 4) ∧
    (s.journal.oldest ≤ n → s.journal.nextNum ≤ n → s.findTx part n = .error 6) ∧
    (∀ t, s.journal.oldest ≤ n → n < s.journal.nextNum → s.tx n = some t → s.findTx part n = if scopePart t.scope = part then .ok t else .error 3)) ∧
  (∀ d a p (s : State), s.here.pred p = true → let n := ((s.here.reg a).extractLsb' 0 48).toNat
    (∀ code, s.findTx s.here.ctxPart n = .error code → JournalAnswers (.jrnRvt d a p) s s d (refusalWord code)) ∧
    (∀ t, s.findTx s.here.ctxPart n = .ok t →
      (t.state.stands = false → JournalAnswers (.jrnRvt d a p) s s d (refusalWord 7)) ∧
      (t.state.stands = true → (∀ code, s.revertTx t s.here.ctxTag 3 false = .error code → JournalAnswers (.jrnRvt d a p) s s d (refusalWord code)) ∧
        ∀ u m, s.revertTx t s.here.ctxTag 3 false = .ok (u, m) → JournalAnswers (.jrnRvt d a p) s u d (BitVec.ofNat 64 m)))) ∧
  (∀ (s : State) (id : Nat) (x : JournalCall), s.here.wait = .journal id →
    s.journal.calls.find? (fun c => c.core == s.cur.core && c.id == id) = some x →
    CompletesIn .journalReply s { s with journal := { s.journal with calls := s.journal.calls.filter fun y => y != x } } 4 fun c =>
      ({ c with wait := .none } : Core).setReg x.d x.reply)

/-- R347, R354, R355, R362, R363, R370, R387. The controllers' core, bank and value are the turn's choice (log entry 51), and trial windows begin after the
application (log entry 52). -/
def Obligations.JournalEvents : Prop :=
  let ended (s : State) (j : JournalJob) (reason low : Nat) : State :=
    (({ s with journal := { s.journal with jobs := s.journal.jobs.eraseIdx s.cur.n } } : State).putBytes j.core j.tag j.status
      (bytesOf 8 (2 ^ 63 + reason * 2 ^ 56 + low))).1
  (∀ (s : State) (j : JournalJob), s.journal.jobs[s.cur.n]? = some j → j.load = false →
    (j.size < j.bytes.length → exec .journalExportComplete s = .next (ended s j 1 (j.bytes.length % 2 ^ 32))) ∧
    (∀ t, j.bytes.length ≤ j.size → s.putBytes j.core j.tag j.va j.bytes = (t, none) → t.cur = s.cur →
      exec .journalExportComplete s = .next (ended t j 0 (j.bytes.length % 2 ^ 32))) ∧
    (∀ t e, j.bytes.length ≤ j.size → s.putBytes j.core j.tag j.va j.bytes = (t, some e) → t.cur = s.cur →
      (e.1 ≠ noAnswer → exec .journalExportComplete s = .next (ended t j 3 (j.bytes.length % 2 ^ 32))) ∧
      (e.1 = noAnswer → exec .journalExportComplete s = .next t))) ∧
  (∀ (s : State) (j : JournalJob), s.journal.jobs[s.cur.n]? = some j → j.load = true → j.started = true →
    let count := segmentField j.bytes 0x0C 4
    let last := j.txn.bind s.tx
    let done := if j.txn.isSome then j.applied + 1 else j.applied
    ((∃ t, last = some t ∧ t.state.inFlight = true) → exec .journalLoadStep s = .next s) ∧
    ((∃ t, last = some t ∧ t.state = .refused) → exec .journalLoadStep s = .next (ended s j 5 j.applied)) ∧
    ((∀ t, last = some t → t.state.inFlight = false ∧ t.state ≠ .refused) →
      (count ≤ done → (s.shapeDigest j.scope).toNat = segmentField j.bytes 0x2C 4 → exec .journalLoadStep s = .next (ended s j 0 done)) ∧
      (count ≤ done → (s.shapeDigest j.scope).toNat ≠ segmentField j.bytes 0x2C 4 → ∀ c, j.core = some c →
        exec .journalLoadStep s = .next ((ended s j 6 done).raise c 0x61 6 0
          (BitVec.ofNat 64 ((s.shapeDigest j.scope).toNat + segmentField j.bytes 0x2C 4 * 2 ^ 32)))) ∧
      (done < count → s.roomForTx = none → exec .journalLoadStep s = .next s) ∧
      (∀ u r x t, done < count → s.roomForTx = some u → let m := u.journal.nextNum
        r = u.recordTx .proposed (fun x => u.segmentTx j done x) →
        x = ({ r with journal := { r.journal with jobs := r.journal.jobs.set s.cur.n { j with
          txn := some m, applied := done, begun := if j.begun.length < 2 then j.begun ++ [m] else j.begun } } } : State) → x.tx m = some t →
        let bad := 3 < t.kind.toNat ∨ t.entries = [] ∨ (x.scopeRefusal (scopePart j.scope) (t.scope.setWidth 64)).isSome = true ∨
          (x.keysRefusal ⟨j.core, j.tag, scopePart j.scope, 5⟩ t.kind t.scope t.entries).isSome = true
        (bad → exec .journalLoadStep s = .next (x.refuseTx m 1).settleJournal) ∧
        (¬bad → exec .journalLoadStep s = .next (x.proceedTx m))))) ∧
  (∀ s : State, (s.here.cycle.toNat / 65536 ≤ (s.leadWindows s.cur.core).index → exec .progressWindowExpiry s = .next s) ∧
    ((s.leadWindows s.cur.core).index < s.here.cycle.toNat / 65536 → ∃ t, exec .progressWindowExpiry s = .next t ∧
      t.leadWindows s.cur.core = { index := (s.leadWindows s.cur.core).index + 1,
                                   snaps := ((s.cores.map fun e => (e.1, e.2.units)) :: (s.leadWindows s.cur.core).snaps).take 5 } ∧
      t.cores = s.cores ∧ t.mem = s.mem ∧ t.journal.records.length = s.journal.records.length ∧
      ∀ (k : Nat) (x : TxRecord), s.journal.records[k]? = some x → s.scopeLead x.scope = s.cur.core → let w := s.leadWindows s.cur.core
        (x.state = .trial → (x.isOver = false ∧ x.window ≤ w.index ∧ x.windows < x.trial → t.journal.records[k]? = some { x with
            units := x.units + (s.scopeUnits x.scope - s.snapUnits x.scope ((w.snaps.head?).getD [])), windows := x.windows + 1 }) ∧
          (x.isOver = true ∨ w.index < x.window ∨ x.trial ≤ x.windows → t.journal.records[k]? = some x)) ∧
        (x.state = .applying → t.journal.records[k]? = some { x with age := if x.window ≤ w.index then x.age + 1 else x.age }))) ∧
  (∀ (s : State) (t : TxRecord), s.tx s.cur.n = some t → t.state = .trial → t.det = false → (t.isOver = true ∨ t.trial ≤ t.windows) →
    t.num = s.cur.n →
    let after := if t.windows = 0 then 0 else t.units / t.windows
    let falls := 1 ≤ t.before ∧ 1 ≤ t.windows ∧ after * 256 < t.pbef * (256 - s.tolerance (scopePart t.scope))
    let kept := s.onTx t.num fun t => { t with paft := t.progressAfter }
    (¬falls → exec .trialEnd s = .next (kept.changeTx t.num .confirmed 0).settleJournal) ∧
    (falls → let waits := kept.onTx t.num fun t => { t with isOver := true }
      (kept.beingReverted t.num = true → exec .trialEnd s = .next waits) ∧
      (kept.beingReverted t.num = false →
        (∀ u m, kept.revertTx t t.tag 0 true = .ok (u, m) → exec .trialEnd s = .next (u.onTx t.num fun t => { t with isOver := true })) ∧
        (kept.revertTx t t.tag 0 true = .error 9 → exec .trialEnd s = .next (kept.changeTx t.num .confirmed 5).settleJournal) ∧
        (∀ code, kept.revertTx t t.tag 0 true = .error code → code ≠ 9 → exec .trialEnd s = .next waits)))) ∧
  (∀ (s : State) (t : TxRecord), s.tx s.cur.n = some t → (t.state ≠ .trial ∨ (t.isOver = false ∧ t.windows < t.trial)) → exec .trialEnd s = .next s) ∧
  (∀ (s : State) (own : BitVec 5), s.partOf s.cur.core = some own → s.partDet own = false →
    let ea := s.cur.unit % 64
    let dest := BitVec.ofNat 5 s.cur.m
    let service (p : BitVec 5) : Service := Sparse.get { below := 0, above := 0 } s.journal.service p.toNat
    (s.cur.flag = true → s.cur.unit < 64 → exec .controllerProposal s = .next (s.controllerTx 2 2 own
      ⟨BitVec.ofNat 32 (s.cur.core * 2 ^ 21 + ea * 2 ^ 13 + ea * 2 ^ 5 + 2 * 4), BitVec.ofNat 16 (0x30 + s.cur.n % 8), 0,
        BitVec.ofNat 32 (s.cur.m % 65536)⟩)) ∧
    (∀ e : ImageEntry, s.cur.flag = true → 64 ≤ s.cur.unit →
      e = ⟨BitVec.ofNat 32 (2 ^ 31 + own.toNat * 65536 + s.cur.n % 65536), 0, 0, BitVec.ofNat 32 s.cur.m⟩ →
      s.keyRefusal false own 3 (partScope own) e = none → exec .controllerProposal s = .next (s.controllerTx 3 1 own e)) ∧
    (s.cur.flag = false → s.cur.n = 0 → dest ≠ own → s.partDet dest = false → 4 ≤ (service dest).below → 4 ≤ (service own).above →
      (s.launchOf s.cur.core).isNone = true → (s.spread [s.cur.core] 1 (s.scopeCores (partScope dest))).contains s.cur.core = true →
      s.connected ((s.scopeCores (partScope own)).filter (· != s.cur.core)) = true →
      exec .controllerProposal s = .next (s.controllerTx 0 1 own
        ⟨BitVec.ofNat 32 (2 ^ 30 + s.cur.core * 2 ^ 21 + 2 ^ 16), 0, 0, dest.setWidth 32⟩)) ∧
    (s.cur.flag = false → 0 < s.cur.n → s.cur.n ≤ 16 → s.partDet dest = false →
      let b := s.cur.n - 1
      let holder := s.bankPartOf s.cur.core b
      dest ≠ holder → s.partDet holder = false → 4 ≤ (service dest).below → 4 ≤ (service holder).above →
        exec .controllerProposal s = .next (s.controllerTx 0 1 holder
          ⟨BitVec.ofNat 32 (2 ^ 30 + s.cur.core * 2 ^ 21 + b * 2 ^ 17), 0, 0, dest.setWidth 32⟩)) ∧
    (s.cur.flag = false → s.cur.n = 0 → ((service dest).below < 4 ∨ (service own).above < 4) → exec .controllerProposal s = .next s)) ∧
  (∀ (s : State) (kind : BitVec 4) (origin : BitVec 3) (part : BitVec 5) (e : ImageEntry),
    (s.roomForTx = none → s.controllerTx kind origin part e = s) ∧
    (∀ u, s.roomForTx = some u → s.controllerTx kind origin part e = ((u.recordTx .proposed fun x =>
      { x with kind := kind, origin := origin, scope := partScope part, entries := [e], trial := u.trialDefault part,
               tag := u.tagOfPart part }).proceedTx u.journal.nextNum)))

/-- R319–R324, R374–R377, R380, R435. The kick of a slot in ERROR is log entry 24, the WAIT that is read again at any time log entry 25, what a
shootdown waits for log entry 45, and what becomes of requests dropped on their way log entry 59. -/
def Obligations.TranslationAndQueues : Prop :=
  (∀ (s : State) (e : TlbEntry), s.cur.n < 2 ^ 55 → s.cur.flag = false → s.walk s.here.ctxTag s.cur.n = some e →
    s.walkFate s.cur.core s.here.ctxTag s.cur.n = .arrives →
    ∃ t, exec .translationWalk s = .next t ∧ t.here.tlb = (e :: s.here.tlb).take 1024 ∧ t.mem = s.mem ∧ t.here.regs = s.here.regs ∧
      ∀ d (h : d < 2), t.tlb2[d] = if d = s.variant.dieOf s.cur.core % 2 then (e :: s.tlb2[d]).take 32768 else s.tlb2[d]) ∧
  (∀ (s : State), let fate := s.walkFate s.cur.core s.here.ctxTag s.cur.n
    (2 ^ 55 ≤ s.cur.n → exec .translationWalk s = .next s) ∧
    (s.cur.n < 2 ^ 55 → fate ≠ .arrives → exec .translationWalk s = .next (s.recordDeny fate s.here.ctxTag)) ∧
    (s.cur.n < 2 ^ 55 → fate = .arrives → s.walk s.here.ctxTag s.cur.n = none → exec .translationWalk s = .next s)) ∧
  (∀ (s : State), let tag := BitVec.ofNat 6 s.cur.unit
    let a := s.cur.n
    let n := s.cur.m
    let inRange (e : TlbEntry) : Prop := e.tag = tag ∧ e.base < a + n ∧ a < e.base + e.size
    let busy (c : Core) : Prop := c.accesses ≠ [] ∨ ∃ g ∈ c.engines.toList, ∃ j, g.job = some j ∧ j.translated = true
    ((∃ e ∈ s.cores, s.partOf e.1 = some (s.ctx tag).part ∧ busy e.2) → exec .tlbShootdown s = .next s) ∧
    (a % 65536 = 0 → (∀ e ∈ s.cores, s.partOf e.1 = some (s.ctx tag).part → ¬busy e.2) →
      ∃ t, exec .tlbShootdown s = .next t ∧ t.mem = s.mem ∧
        (∀ d (h : d < 2), ∀ e, e ∈ t.tlb2[d] ↔ e ∈ s.tlb2[d] ∧ ¬inRange e) ∧
        ∀ c, let k := s.core c
          (s.partOf c = some (s.ctx tag).part → (∀ e, e ∈ (t.core c).tlb ↔ e ∈ k.tlb ∧ ¬inRange e) ∧
            (k.ctxTag = tag → (∀ w, w ∈ (t.core c).icache ↔ w ∈ k.icache ∧ ¬(a ≤ w.1 ∧ w.1 < a + n)) ∧
              ∀ w, w ∈ (t.core c).prefetch ↔ w ∈ k.prefetch ∧ ¬(a ≤ w.1 ∧ w.1 < a + n))) ∧
          (s.partOf c ≠ some (s.ctx tag).part → t.core c = k) ∧ (t.core c).regs = k.regs)) ∧
  (∀ (s : State) (m : Message), s.message = some m → m.op = 5 →
    let t := s.takeMessage
    let qid := ((qwordsOf m.payload)[0]?.getD 0).toNat
    let va := (qwordsOf m.payload)[1]?.getD 0
    let tag := BitVec.ofNat 6 m.ctxh
    m.clean = true → m.len = 16 → s.ready = true → m.ctxh < 64 → (s.ctx tag).live = true → qid < s.variant.userQueues → va.toNat < 2 ^ 55 →
    va.toNat % 128 = 0 →
    (t.accepted m tag = none → exec .queueRegister s = .next (t.acknowledge m 1)) ∧
    (∀ u, t.accepted m tag = some u → exec .queueRegister s =
      .next (({ u with queues := Sparse.put u.queues qid { tag := tag, qcb := va, gone := false } } : State).acknowledge m 0)) ∧
    ((s.ctx tag).prot = false → m.isSealed = false → t.accepted m tag = some t) ∧
    ((s.ctx tag).prot = true → m.isSealed = false → t.accepted m tag = none)) ∧
  (∀ (s : State) (m : Message), s.message = some m → m.op = 4 →
    (∀ u, Sparse.find s.queues m.ctxh = some u → s.updatesOpen u.tag = false ∧ s.readsFate u.tag [u.qcb] = .arrives) →
    let t := s.takeMessage
    let ok := m.clean = true ∧ m.isSealed = false ∧ m.len = 0 ∧ m.status = 0 ∧ m.qword1 = 0 ∧ s.ready = true
    (¬ok → exec .kick s = .next (t.acknowledge m 1)) ∧
    (ok → Sparse.find s.queues m.ctxh = none → exec .kick s = .next { t with droppedKicks := t.droppedKicks + 1 }) ∧
    (∀ u, ok → Sparse.find s.queues m.ctxh = some u → u.gone = true → exec .kick s = .next t) ∧
    (∀ u, ok → Sparse.find s.queues m.ctxh = some u → u.gone = false → s.slotOfQueue m.ctxh = none →
      exec .kick s = .next { t with kicked := if s.kicked.contains m.ctxh then t.kicked else t.kicked ++ [m.ctxh] }) ∧
    (∀ u k q, ok → Sparse.find s.queues m.ctxh = some u → u.gone = false → s.slotOfQueue m.ctxh = some k → Sparse.find s.slots k = some q →
      (q.unmapping = true → exec .kick s = .next { t with kicked := if s.kicked.contains m.ctxh then t.kicked else t.kicked ++ [m.ctxh] }) ∧
      (∀ b, q.unmapping = false → q.head = none → t.readQcb u = some b → let n := qcbOf b
        (q.q.state = 0 → let r : State := { t with slots := Sparse.put t.slots k { q with q := { q.q with widx := n.widx } } }
          (({ q.q with widx := n.widx } : Qcb).overrun = false → exec .kick s = .next r) ∧
          (({ q.q with widx := n.widx } : Qcb).overrun = true → exec .kick s = .next (r.queueError m.ctxh 1 0x85))) ∧
        (q.q.state = 1 → let c : Qcb :=
            { q.q with base := n.base, sz := n.sz, prio := n.prio, shift := n.shift, state := n.state, err := n.err, widx := n.widx }
          let r : State := { t with slots := Sparse.put t.slots k { q with q := c } }
          (qcbOk b = true → c.overrun = false → exec .kick s = .next r) ∧
          ((qcbOk b = false ∨ c.overrun = true) → n.state = 0 → exec .kick s = .next (r.queueError m.ctxh 1 0x85)) ∧
          ((qcbOk b = false ∨ c.overrun = true) → n.state = 1 → exec .kick s =
            .next (({ r with slots := Sparse.put r.slots k { q with q := { c with err := 0x85 } } } : State).onQcb (u.stateWrite 1 0x85 none))))))) ∧
  (∀ (s : State) (u : UserQueue) (b : List Word), Sparse.find s.queues s.cur.n = some u → s.cur.unit < s.variant.queueSlots →
    Sparse.find s.slots s.cur.unit = none → s.slotOfQueue s.cur.n = none → s.readQcb u = some b →
    u.gone = false → (∀ w ∈ s.qcbWrites, w.queue ≠ u) → s.updatesOpen u.tag = false → s.readsFate u.tag [u.qcb] = .arrives →
    let fresh : QueueSlot := { qid := s.cur.n, tag := u.tag, q := qcbOf b, granted := false, head := none, satisfied := false, unmapping := false }
    let t : State := { s with kicked := s.kicked.filter (· != s.cur.n), slots := Sparse.put s.slots s.cur.unit fresh }
    let bad := qcbOk b = false ∨ (qcbOf b).overrun = true
    (bad → (qcbOf b).state = 0 → exec .queueMap s = .next (t.queueError s.cur.n 1 0x85)) ∧
    (bad → (qcbOf b).state = 1 → exec .queueMap s = .next
      (({ t with slots := Sparse.put t.slots s.cur.unit { fresh with q := { qcbOf b with err := 0x85 } } } : State).onQcb (u.stateWrite 1 0x85 none))) ∧
    ((¬bad ∨ 1 < (qcbOf b).state.toNat) → exec .queueMap s = .next t)) ∧
  (∀ (s : State) (q : QueueSlot), Sparse.find s.slots s.cur.unit = some q →
    let busy := q.granted = true ∧ ∃ p, q.head = some p ∧ packetType p ≠ pkWait ∧ packetType p ≠ pkNop
    (busy → exec .queueUnmap s = .next { s with slots := Sparse.put s.slots s.cur.unit { q with unmapping := true } }) ∧
    (¬busy → Sparse.find s.queues q.qid = none → exec .queueUnmap s = .next { s with slots := Sparse.drop s.slots s.cur.unit }) ∧
    (¬busy → ∀ u, Sparse.find s.queues q.qid = some u → let t : State := { s with slots := Sparse.drop s.slots s.cur.unit }
      exec .queueUnmap s = .next (if u.gone then t
        else ((t.onQcb (u.stateWrite q.q.state q.q.err none)).onQcb (u.ridxWrite q.q.ridx)).onQcb (u.ageWrite q.q.age)))) ∧
  (∀ (s : State) (w : QcbWrite), s.qcbWrites = [] →
    (s.qcbHeld w = true → s.onQcb w = { s with qcbWrites := [w] }) ∧
    (s.qcbHeld w = false → s.onQcb w = { s.doQcb w with qcbWrites := [] })) ∧
  (∀ (s : State) (w : QcbWrite) (a : Nat), s.reachWord w.queue.tag .write (w.queue.qcb + BitVec.ofNat 64 w.off) = some a → s.portFate a = .arrives →
    w.report = none → s.doQcb w =
      { s with mem := writeBytes s.mem a (bytesOf 8 ((BitVec.ofNat 64 (readMem s.mem a 8) &&& ~~~w.mask) ||| w.bits).toNat) }) ∧
  (∀ (s : State), (∀ e ∈ s.slots, e.2.granted = false) →
    let r := (s.slots.map (·.1)).foldl State.readHead s
    let cands := r.slots.filter fun e => r.candidate e.2
    (cands = [] → exec .queueArbitration s = .next r) ∧
    (cands ≠ [] → ∃ g t pre post, cands = pre ++ g :: post ∧ exec .queueArbitration s = .next t ∧ t.mem = r.mem ∧
      (∀ e ∈ pre, e.2.effective < g.2.effective) ∧ (∀ e ∈ post, e.2.effective ≤ g.2.effective) ∧
      t.slots = r.slots.map fun e =>
        if e.1 = g.1 then (e.1, { e.2 with q := { e.2.q with age := 0 }, granted := true })
        else if cands.any (fun c => c.1 == e.1) then (e.1, { e.2 with q := { e.2.q with age := min (e.2.q.age + 1) 0xFFFF }, granted := false })
        else if e.2.q.holds then e else (e.1, { e.2 with q := { e.2.q with age := 0 }, granted := false }))) ∧
  (∀ (s : State) (q : QueueSlot) (p : List Word), Sparse.find s.slots s.cur.unit = some q → q.head = some p → packetType p = pkWait →
    q.satisfied = false → exec .waitReread s = .next
      { s with slots := Sparse.put s.slots s.cur.unit { q with satisfied := s.waitSatisfied q.tag p } })

/-- R365, R369–R371, R378–R381, R384. -/
def Obligations.PacketsAreProcessed : Prop :=
  (∀ (s : State) (k : Nat) (q : QueueSlot), Sparse.find s.slots k = some q →
    Sparse.find (s.packetDone k).slots k = some { q with q := { q.q with ridx := q.q.ridx + 1 }, granted := false, head := none } ∧
    ∀ j, j ≠ k → Sparse.find (s.packetDone k).slots j = Sparse.find s.slots j) ∧
  (∀ (s : State) (k : Nat) (q : QueueSlot) (p : List Word), s.grantedPacket pkNop = some (k, q, p) →
    exec .nopPacket s = .next (s.packetDone k)) ∧
  (∀ (s : State) (k : Nat) (q : QueueSlot) (p : List Word), s.grantedPacket pkWait = some (k, q, p) →
    ((s.reachWord q.tag .read (packetVa p 1)).isSome = true → exec .waitPacket s = .next (s.packetDone k)) ∧
    (s.reachWord q.tag .read (packetVa p 1) = none → exec .waitPacket s = .next (s.queueError q.qid 1 0x82))) ∧
  (∀ (s : State) (k : Nat) (q : QueueSlot) (p : List Word), s.grantedPacket pkSignal = some (k, q, p) →
    (s.reachWord q.tag .write (packetVa p 1) = none → exec .signalPacket s = .next (s.queueError q.qid 1 0x82)) ∧
    (∀ a, s.reachWord q.tag .write (packetVa p 1) = some a → s.inWindow a 8 = true → exec .signalPacket s = .next s) ∧
    (∀ a, s.reachWord q.tag .write (packetVa p 1) = some a → s.inWindow a 8 = false → s.portFate a ≠ .arrives →
      exec .signalPacket s = .next ((s.recordDeny (s.portFate a) q.tag).packetDone k)) ∧
    (∀ a, s.reachWord q.tag .write (packetVa p 1) = some a → s.inWindow a 8 = false → s.portFate a = .arrives →
      let old : Word := BitVec.ofNat 64 (readMem s.mem a 8)
      let v := if (packetAt p 1).getLsbD 63 then old + packetAt p 2 else packetAt p 2
      ∃ u : State, u = ({ s with mem := writeBytes s.mem a (bytesOf 8 v.toNat) } : State).rereadWaits ∧
        exec .signalPacket s = .next (u.packetDone k))) ∧
  (∀ (i : Instr) (s : State) (t k : Nat) (q : QueueSlot) (p : List Word) (st : Option (List Word)),
    let seeds := (s.ctx q.tag).seeds
    s.grantedPacket t = some (k, q, p) →
    ((i = .seedPush ∧ t = pkPush ∧ st = if 16 ≤ seeds.length then none else some (packetAt p 1 :: seeds)) ∨
      (i = .seedPop ∧ t = pkPop ∧ st = if seeds.length ≤ 1 then none else some (seeds.drop 1)) ∨
      (i = .seedFork ∧ t = pkFork ∧ st = if 16 ≤ seeds.length then none else
        some ((let x := seeds.headD 0 ^^^ packetAt p 1
               mix64 (if x = 0 then 1 else x)) :: seeds))) →
    (st = none → exec i s = .next (s.queueError q.qid 1 0x84)) ∧
    (∀ l, st = some l → exec i s = .next ((s.onCtx q.tag fun c => { c with seeds := l }).packetDone k))) ∧
  (∀ (i : Instr) (op : Nat) (act : State → Proposer → List Word → State × Except (BitVec 8 × Word) Word) (s : State) (k : Nat)
      (q : QueueSlot) (p : List Word) (b : List Byte) (a : Nat),
    ((i = .jrnPacketProp ∧ op = 0 ∧ act = fun s w q => s.propose w q) ∨
      (i = .jrnPacketRvt ∧ op = 1 ∧ act = fun s w q =>
        ((s.requestRevert w ((q[0]?.getD 0).extractLsb' 0 48).toNat).1, .ok (s.requestRevert w ((q[0]?.getD 0).extractLsb' 0 48).toNat).2)) ∨
      (i = .jrnPacketExp ∧ op = 2 ∧ act = fun s w q => ((s.acceptJob (s.exportJob w q)).1, .ok (s.acceptJob (s.exportJob w q)).2)) ∨
      (i = .jrnPacketLoad ∧ op = 3 ∧ act = fun s w q => ((s.acceptJob (s.loadJob w q)).1, .ok (s.acceptJob (s.loadJob w q)).2))) →
    s.grantedPacket pkJrn = some (k, q, p) → ((packetAt p 0).extractLsb' 16 2).toNat = op →
    s.contextBytes q.tag (packetVa p 1) 64 = some b → s.reachWord q.tag .write (packetVa p 2) = some a →
    s.updatesOpen q.tag = false → s.readsFate q.tag [packetVa p 1, packetVa p 2] = .arrives →
    (∀ u e, act s ⟨none, q.tag, (s.ctx q.tag).part, 4⟩ (qwordsOf b) = (u, .error e) →
      (e.1 ≠ noAnswer → exec i s = .next (s.queueError q.qid 1 0x82)) ∧ (e.1 = noAnswer → exec i s = .next u)) ∧
    (∀ u v, act s ⟨none, q.tag, (s.ctx q.tag).part, 4⟩ (qwordsOf b) = (u, .ok v) →
      exec i s = .next (({ u.applyPending a 8 with
        mem := writeBytes (u.applyPending a 8).mem a (bytesOf 8 v.toNat) } : State).packetDone k)))

/-- R139, R341, R379, R382, R383, R389–R397, R407. Completion and the placement refusals are log entries 27 and 38, the save that waits for the region's
rest 29, the restore 30, the handover 31, and what becomes of requests dropped on their way 59. -/
def Obligations.LaunchesAndPreemption : Prop :=
  (∀ d a p (s : State), s.here.pred p = true → let va := s.here.reg a
    (va.toNat % 64 ≠ 0 → CompletesIn (.launch d a p) s s 4 fun c => c.setReg d 2) ∧
    (va.toNat % 64 = 0 → s.here.outstanding ≠ [] → exec (.launch d a p) s = .next s) ∧
    (va.toNat % 64 = 0 → s.here.outstanding = [] →
      (∀ t code x, s.fetchBytes (some s.cur.core) s.here.ctxTag va 64 = (t, .error (code, x)) →
        (code ≠ noAnswer → exec (.launch d a p) s = .next (t.precise code x)) ∧ (code = noAnswer → exec (.launch d a p) s = .next t)) ∧
      ∀ t b, s.fetchBytes (some s.cur.core) s.here.ctxTag va 64 = (t, .ok b) → let q := qwordsOf b
        let l := { launchOfPacket q 0 s.here.ctxTag t.here.ctxPart with core := t.cur.core, packet := va }
        (t.updatesOpen s.here.ctxTag = true → exec (.launch d a p) s = .next t) ∧
        (t.updatesOpen s.here.ctxTag = false → t.readsFate s.here.ctxTag [l.code] = .arrives →
        let bad := packetType q ≠ pkLaunch ∨ packetOk q = false ∨ packetBar q = true ∨ t.shapeRefused l = true
        (bad → CompletesIn (.launch d a p) s t 4 fun c => c.setReg d 3) ∧
        (t.kernelHeader l.tag l.code l.kidx = none → t.shapeFits l.part l.cols l.rows = false → bad) ∧
        (¬bad → 16 ≤ t.input.length → CompletesIn (.launch d a p) s t 4 fun c => c.setReg d 1) ∧
        (¬bad → t.input.length < 16 → CompletesIn (.launch d a p) s
          { t with input := t.input ++ [{ l with id := t.nextLaunch }], nextLaunch := t.nextLaunch + 1 } 4 fun c => c.setReg d 0)))) ∧
  (∀ (s : State) (k : Nat) (q : QueueSlot) (p : List Word), s.grantedPacket pkLaunch = some (k, q, p) →
    let l := { launchOfPacket p 0 q.tag (s.ctx q.tag).part with qid := some q.qid, ridx := q.q.ridx }
    s.updatesOpen q.tag = false → s.readsFate q.tag [l.code] = .arrives →
    (s.shapeRefused l = true → exec .launchPacket s = .next (s.queueError q.qid 1 0x82)) ∧
    (s.shapeRefused l = false → 16 ≤ s.input.length → exec .launchPacket s = .next s) ∧
    (s.shapeRefused l = false → s.input.length < 16 → ∃ u : State, exec .launchPacket s = .next (u.packetDone k) ∧
      u = { s with input := s.input ++ [{ l with id := s.nextLaunch }], nextLaunch := s.nextLaunch + 1 })) ∧
  (∀ (s : State) (l : Launch), s.input.find? (fun l => l.part.toNat == s.cur.n) = some l →
    s.updatesOpen l.tag = false → s.readsFate l.tag [l.code + BitVec.ofNat 64 (96 * l.kidx)] = .arrives →
    (s.kernelHeader l.tag l.code l.kidx = none → exec .launchPlacement s = .next (s.refuseLaunch l 0x83)) ∧
    (∀ h, s.kernelHeader l.tag l.code l.kidx = some h →
      ((s.liveOf l.tag h = none ∨ s.poolTableOf l.tag h = none) → exec .launchPlacement s = .next (s.refuseLaunch l 0x83)) ∧
      (∀ live pools, s.liveOf l.tag h = some live → s.poolTableOf l.tag h = some pools →
        (s.measured l h = false → exec .launchPlacement s = .next (s.refuseLaunch l 0x71)) ∧
        (s.measured l h = true → s.shapeOk l.part l.cols l.rows h = false → exec .launchPlacement s = .next (s.refuseLaunch l 0x82)) ∧
        (s.measured l h = true → s.shapeOk l.part l.cols l.rows h = true →
          (s.firstFit l.part h.cols h.rows = none → exec .launchPlacement s = .next s) ∧
          (∀ x y, s.firstFit l.part h.cols h.rows = some (x, y) → ∃ (t : State) (m : Launch),
            t = { s with input := s.input.filter fun m => m.id != l.id } ∧
            m = { l with cols := h.cols, rows := h.rows, ox := x, oy := y, header := h.va, det := h.det, bound := h.bound, live := live,
                         poolTable := pools } ∧
            exec .launchPlacement s = .next (t.startLaunch m h.entry)))))) ∧
  (∀ (c : Core) (tag : BitVec 6) (part : BitVec 5) (org ext : BitVec 16) (seed pc s1 s2 : Word),
    let k := c.atLaunch tag part org ext seed pc s1 s2
    k.pc = pc ∧ k.reg 1 = s1 ∧ k.reg 2 = s2 ∧ (∀ r, r ≠ 1 → r ≠ 2 → k.reg r = 0) ∧ (∀ p, p ≠ 0 → k.pred p = false) ∧ k.lvl = false ∧
      k.tin = false ∧ k.plvl = false ∧ k.loops = Loops.reset ∧ k.regionOrg = org ∧ k.regionExt = ext ∧ k.ctxTag = tag ∧
      k.seedHi ++ k.seedLo = seed ∧ k.run = .running ∧ k.cycle = c.cycle ∧ k.accesses = []) ∧
  (∀ (s : State) (l : Launch), s.launches.find? (fun l => l.placed && l.id == s.cur.n) = some l → let cs := l.cores s.variant
    ((∃ c ∈ cs, s.coreSettled c = false) → exec .launchCompletion s = .next s) ∧
    ((∀ c ∈ cs, s.coreSettled c = true) → (∀ r ∈ s.regions, ¬r.lead ∈ cs) →
      ∀ u, ((l.signal = 0 ∧ u = s) ∨ (l.signal ≠ 0 ∧ ∃ f, s.writeSignal l.tag l.signal l.sop l.value = some (u, f))) →
        ∃ t : State, t = (cs.foldl (fun t c => t.onCore c Core.release) u).dropReservations cs ∧
          exec .launchCompletion s = .next (({ t with launches := t.launches.filter fun m => m.id != l.id,
                                                      chains := t.chains.filter fun c => c.last.launch != l.id } : State).launchDrainPoint cs))) ∧
  (∀ (s : State) (cs : List Nat) (c : Nat) (n : Fin 16) (r : Nat × Nat), r ∈ (((s.dropReservations cs).core c).pools[n]).rsv ↔
    r ∈ ((s.core c).pools[n]).rsv ∧ ¬r.1 ∈ cs) ∧
  (∀ (s : State) (l : Launch), s.launchById s.cur.n = some l →
    ((l.pending = true ∨ l.saved = true) → exec .preemptRequest s = .next s) ∧
    (l.pending = false → l.saved = false → let u := (l.cores s.variant).foldl (fun s c => s.onCore c Core.cancelMarks) s
      exec .preemptRequest s = .next ((l.cores s.variant).foldl State.pauseAtMark (u.onLaunch l.id fun m =>
        { m with pending := true, asked := (u.core (u.launchLead l)).cycle, heldCores := [], pausedCores := [] }))) ∧
    ((l.pending = false ∨ l.saved = true ∨ l.stopped = true ∨ l.point = none) → exec .checkpointSave s = .next s) ∧
    (∀ id, l.pending = true → l.saved = false → l.stopped = false → l.point = some id →
      (s.regionAtRest (l.cores s.variant) = true → exec .checkpointSave s = .next (s.saveLaunch l false id)) ∧
      (s.regionAtRest (l.cores s.variant) = false → exec .checkpointSave s = .next s)) ∧
    (let waited := (s.core (s.launchLead l)).cycle - l.asked
     let told := (s.emit 0x81 l.tag 0 0 0 (BitVec.ofNat 64 (l.qid.getD 0xFFF % 4096 + l.ridx.toNat % 2 ^ 48 * 2 ^ 16)) waited).onLaunch l.id
       fun m => { m with stopped := true }
     let quiet (t : State) : Bool := t.regionAtRest (l.cores t.variant) &&
       (t.flights.all (fun f => !(l.cores t.variant).contains f.dst.core) && t.credits.all (fun k => !(l.cores t.variant).contains k.dst.core))
     ((l.saved = true ∨ l.point ≠ none) → exec .ckptOverdue s = .next s) ∧
     (s.overdue l = true ↔ l.pending = true ∧ l.point = none ∧ 2 ^ l.bound ≤ waited.toNat) ∧
     (l.stopped = false → s.overdue l = false → exec .ckptOverdue s = .next s) ∧
     (∀ t, l.saved = false → l.point = none → ((l.stopped = true ∧ t = s) ∨ (l.stopped = false ∧ s.overdue l = true ∧ t = told)) →
       (quiet t = true → exec .ckptOverdue s = .next (t.saveLaunch l true 0)) ∧ (quiet t = false → exec .ckptOverdue s = .next t)))) ∧
  (∀ (s : State) (area : SaveArea) (a : SavedLaunch), s.saves[s.cur.n]? = some area → area.saved[s.cur.m]? = some a → let l := a.launch
    let cs := l.cores s.variant
    area.sealed_ = false → a.wellFormed s.variant = true → (s.ctx l.tag).live = true → (s.ctx l.tag).keys = true →
    (∀ c ∈ cs, (s.launchOf c).isNone = true ∧ s.partOf c = some l.part ∧ s.retired.contains c = false) →
    ∃ t u : State, t = a.cores.foldl (fun t p => t.onCore p.1 fun now =>
        now.restored p.2 a.full l.poolTable (l.liveAt s.variant a.id p.1)) ((s.dropTraffic cs).journalLaunch l) ∧
      u = t.takeSave s.cur.n s.cur.m ∧
      exec .contextRestore s = .next { u with launches := t.launches ++ [l], net := t.net ++ a.traffic, dusk := t.dusk.filter fun c => !cs.contains c }) ∧
  (∀ (now saved : Core) (full : Bool) (table qs : List Word), let c := now.restored saved full table qs
    c.regs = saved.regs ∧ c.preds = saved.preds ∧ c.pc = saved.pc ∧ c.loops = saved.loops ∧ c.tin = saved.tin ∧ c.plvl = saved.plvl ∧
      c.lvl = saved.lvl ∧ c.epc = saved.epc ∧ c.cfg = saved.cfg ∧ c.elems = saved.elems ∧ c.cycle = now.cycle ∧
      (full = true → c.bars = saved.bars ∧ c.sram = saved.sram) ∧
      (full = false → ∀ k, ¬k ∈ saved.liveSectors table qs → Sparse.find c.sram k = Sparse.find now.sram k)) ∧
  (∀ (s : State) (l : Launch) (full : Bool) (id : BitVec 8), ∃ r : SavedLaunch, r.launch.id = l.id ∧ r.cores.map (·.1) = l.cores s.variant ∧
    ((s.saveLaunch l full id).saves = if s.saves.any fun a => a.tag == l.tag then
        s.saves.map fun a => if a.tag = l.tag then { a with saved := a.saved ++ [r] } else a
      else s.saves ++ [{ tag := l.tag, saved := [r], sealed_ := false }])) ∧
  (∀ (s : State) (a : SaveArea), s.saves[s.cur.n]? = some a → let held (l : Launch) : Prop := l.saved = true ∧ l.tag = a.tag
    (a.sealed_ = false → (∃ l ∈ s.launches, held l) →
      (s.cur.flag = true → exec .handoverPhase1 s =
        .next { s with saves := s.saves.set s.cur.n { a with sealed_ := true }, draws := s.draws + 1 }) ∧
      (s.cur.flag = false → exec .handoverPhase1 s = .next { s with
        saves := s.saves.eraseIdx s.cur.n,
        launches := s.launches.map fun m => if m.saved = true ∧ m.tag = a.tag then
          { m with pending := false, stopped := false, saved := false, point := none, heldCores := [], pausedCores := [] } else m })) ∧
    (a.sealed_ = false → exec .handoverPhase2 s = .next s) ∧
    (a.sealed_ = true → s.cur.flag = false → exec .handoverPhase2 s = .next (s.loseContext a.tag)) ∧
    (a.sealed_ = true → s.cur.flag = true → ∃ t u : State, t = { s with saves := s.saves.set s.cur.n { a with sealed_ := false } } ∧
      u = (t.launches.filter fun m => m.saved && m.tag == a.tag).foldl State.endLaunch t ∧
      exec .handoverPhase2 s = .next (({ u with draws := u.draws + 4 } : State).onCtx a.tag fun c =>
        { c with slot := some (KeySlot.drawn u.draws), draw := u.draws })))

/-- R386, R404–R406, R415, R416, R420. The qword layout of CREATE and REGISTER is log entry 18, one context for each session log entry 55, and a page that
has failed already and is not reported again log entry 20. -/
def Obligations.ContextsAndProtection : Prop :=
  (∀ (i : Instr) (s : State) (m : Message), (i = .create ∨ i = .registerObject ∨ i = .sealContext) → s.message = some m → m.op = 5 →
    s.takeMessage.sessionOf m = none → exec i s = .next (s.takeMessage.replyTo m 1 [])) ∧
  (∀ (s : State) (m : Message) (k t : Nat) (x : Session), s.message = some m → m.op = 5 → s.takeMessage.sessionOf m = some (k, x) →
    m.clean = true → s.ready = true → s.lowestFreeTag = some t →
    let q := qwordsOf m.payload
    let at_ (i : Nat) : Word := (q[i]?).getD 0
    let tag : BitVec 6 := BitVec.ofNat 6 t
    let part : BitVec 5 := BitVec.ofNat 5 (at_ 0).toNat
    x.tag = none → q.length = 3 → (at_ 0).toNat < s.variant.partitions → (at_ 1).toNat ≤ 1 → s.tagOfPart part = 0 →
    ∃ u : State, exec .create s = .next ((u.tagPartition part tag).replyTo m 0 (bytesOf 8 t)) ∧
      (u.ctx tag).state = .opened ∧ (u.ctx tag).prot = (at_ 1 == 1) ∧ (u.ctx tag).part = part ∧ (u.ctx tag).slot = some (KeySlot.drawn (s.draws + 1)) ∧
      (u.ctx tag).objects = [] ∧ (at_ 2 ≠ 0 → (u.ctx tag).seeds = [at_ 2]) ∧ (u.ctx tag).session = some k ∧
      registerBytes (u.ctx tag).cmr = sha512 (List.replicate 64 0 ++ (part.setWidth 8 :: (BitVec.ofNat 8 (at_ 1 == 1).toNat :: List.replicate 62 0))) ∧
      Sparse.find u.spdm.sessions k = some { x with tag := some tag } ∧ ∀ g : BitVec 6, g ≠ tag → u.ctx g = s.ctx g) ∧
  (∀ (s : State) (m : Message) (k : Nat) (x : Session) (tag : BitVec 6) (bytes : List Byte) (ds : List (BitVec 256)),
    s.message = some m → m.op = 5 → s.takeMessage.sessionOf m = some (k, x) → m.clean = true → s.ready = true → x.tag = some tag →
    let c := s.ctx tag
    let va := ((qwordsOf m.payload)[0]?).getD 0
    let len := (((qwordsOf m.payload)[1]?).getD 0).toNat
    c.state = .opened → m.ctxh = tag.toNat → (qwordsOf m.payload).length = 2 → c.objects.length < 64 →
    s.updatesOpen tag = false → s.readsFate tag [va] = .arrives →
    s.takeMessage.contextBytes tag va len = some bytes →
    s.takeMessage.kernelsOf tag va (256 - (c.objects.map fun o => o.digests.length).foldl (· + ·) 0) 0 = some ds →
    let cmr := digestValue (sha512 (registerBytes c.cmr ++ sha512 (bytesOf 8 va.toNat ++ bytesOf 8 len ++ bytes)))
    exec .registerObject s = .next ((s.takeMessage.onCtx tag fun c =>
      { c with objects := c.objects ++ [{ va := va, len := len, digests := ds }], cmr := cmr }).replyTo m 0 [])) ∧
  (∀ (s : State) (m : Message) (k : Nat) (x : Session) (tag : BitVec 6), s.message = some m → m.op = 5 →
    s.takeMessage.sessionOf m = some (k, x) → m.clean = true → s.ready = true → x.tag = some tag → m.ctxh = tag.toNat →
    ((s.ctx tag).state = .opened → exec .sealContext s = .next ((s.takeMessage.onCtx tag fun c => { c with state := .closed }).replyTo m 0 [])) ∧
    ((s.ctx tag).state ≠ .opened → exec .sealContext s = .next (s.takeMessage.replyTo m 1 []))) ∧
  (∀ (s : State) (h : s.cur.unit < 16), 4 ≤ s.cur.unit → ∃ t, exec .measurementExtend s = .next t ∧
    t.mr = s.mr.set s.cur.unit (digestValue (sha512 (registerBytes s.mr[s.cur.unit] ++ bytesOf 64 s.cur.n))) ∧ t = { s with mr := t.mr }) ∧
  (∀ s : State, (s.cur.unit < 4 ∨ 16 ≤ s.cur.unit) → exec .measurementExtend s = .next s) ∧
  (∀ s : State, exec .tagCheckPass s = .next { s with checks := s.checks.eraseIdx s.cur.n }) ∧
  (∀ (s : State) (k : TagCheck), s.cur.flag = true → s.checks[s.cur.n]? = some k →
    let fails (x : TagCheck) : Prop := x ∈ s.checks ∧ s.unitTag x = s.unitTag k ∧ (s.cur.m).testBit x.stack.toNat = true
    ∃ (f : TagCheck) (t : State), (f = k ∨ fails f) ∧ f.stack ≤ k.stack ∧ (∀ x, fails x → f.stack ≤ x.stack) ∧
      t = s.failContext (s.unitTag k) 0x70 f.stack (f.off * 256) ∧
      exec .integrity s = .next { t with checks := t.checks.filter fun x => x.id != k.id }) ∧
  (∀ (s : State) (a : Nat), s.cur.flag = false → canonical s.variant s.cur.n = some a →
    let page := Sparse.get 0#7 s.pot (a / 65536)
    (page.getLsbD 6 = true → exec .integrity s = .next s) ∧
    (page.getLsbD 6 = false → exec .integrity s = .next (s.failContext (page.extractLsb' 0 6) 0x70 (BitVec.ofNat 3 (stackOf a))
      (a % 2 ^ 36 / 256 * 256 * 256)))) ∧
  (∀ (s : State) (core k n phys : Nat), ∃ t : State, s.returnSector core k n phys true = t ∧ ∃ c ∈ t.checks,
    c.off = phys % 2 ^ 36 / 256 * 256 ∧ c.stack = BitVec.ofNat 3 (stackOf phys) ∧
      c.tag = (Sparse.get 0#7 s.pot (phys / 65536)).extractLsb' 0 6) ∧
  (∀ (s : State) (tag : BitVec 6) (code : BitVec 8) (stack : BitVec 3) (detail : Nat), tag ≠ 0 → (s.ctx tag).state ≠ .free →
    let t := s.failContext tag code stack detail
    (t.ctx tag).state = .free ∧ (t.ctx tag).slot = none ∧ (∀ k ∈ t.checks, k.tag ≠ tag) ∧
      (∀ o ∈ t.outbox, o ∈ s.outbox → o.tag = tag → ∀ i ∈ o.waits, ∀ k ∈ s.checks, k.id ≠ i) ∧ (∀ l ∈ t.input, l.tag ≠ tag) ∧
      (∀ a ∈ t.saves, a.tag ≠ tag) ∧ ∀ c ∈ t.mem, (Sparse.get 0#7 s.pot (c.1 / 65536)).extractLsb' 0 6 ≠ tag) ∧
  (∀ s : State, let tag := BitVec.ofNat 6 s.cur.unit
    ((tag = 0 ∨ (s.ctx tag).state = .free) → exec .contextTeardown s = .next s) ∧
    (tag ≠ 0 → (s.ctx tag).state ≠ .free → ∀ t disc ran dead, s.endWork tag 0x80 = (t, disc, ran, dead) →
      exec .contextTeardown s = .next ((t.emit 0 tag 0 0 2 (BitVec.ofNat 64 (disc + ran * 2 ^ 16 + dead * 2 ^ 32)) (tag.setWidth 64)).dropSession tag |>.freeTag tag) ∧
      disc = (s.input.filter fun l => l.tag == tag).length ∧ ran = (s.launches.filter fun l => l.tag == tag).length ∧
      dead = (s.queues.filter fun q => q.2.tag == tag && !q.2.gone).length))

/-- R155, R317, R344, R408, R413, R421, R433–R435, R440; the model's choices are log entries 18, 20, 21, 22, 33 and 59. -/
def Obligations.SessionsAndLink : Prop :=
  let code : Instr → Option Nat
    | .getVersion => some 0x84 | .getCapabilities => some 0xE1 | .negotiateAlgorithms => some 0xE3 | .getDigests => some 0x81
    | .getCertificate => some 0x82 | .challenge => some 0x83 | .getMeasurements => some 0xE0 | .keyExchange => some 0xE4
    | .finish => some 0xE5 | .heartbeat => some 0xE8 | .keyUpdate => some 0xE9 | .endSession => some 0xEC | _ => none
  let early (i : Instr) (s : State) : Bool := match i with
    | .getVersion => false
    | .getCapabilities => !(s.spdm.version && s.ready)
    | .negotiateAlgorithms => !(s.spdm.version && s.spdm.caps)
    | .keyExchange => !(s.spdm.agreed && s.ready)
    | _ => !s.spdm.agreed
  let asked (i : Instr) (s : State) (m : Message) : Prop := s.message = some m ∧ m.op = 5 ∧ some (requestByte m 1) = code i
  let due (i : Instr) (s : State) (m : Message) : Prop := asked i s m ∧ m.clean = true ∧ 4 ≤ m.len ∧ early i s = false
  (∀ (i : Instr) (s : State) (m : Message), asked i s m →
    (m.clean = false → exec i s = .next (s.takeMessage.replyTo m 1 [])) ∧
    (m.clean = true → m.len < 4 → exec i s = .next (s.takeMessage.replyTo m 0 [0x13, 0x7F, 1, 0])) ∧
    (m.clean = true → 4 ≤ m.len → early i s = true → exec i s = .next (s.takeMessage.replyTo m 0 [0x13, 0x7F, 4, 0]))) ∧
  (∀ (s : State) (m : Message), let t := s.takeMessage
    (due .getVersion s m → exec .getVersion s =
      .next (({ t with spdm := { t.spdm with version := true, caps := false, algorithms := false } } : State).replyTo m 0
        [0x10, 4, 0, 0, 0, 1, 0, 0x13])) ∧
    (due .getCapabilities s m → ∃ r u, exec .getCapabilities s = .next (u.replyTo m 0 (0x13 :: 0x61 :: r)) ∧
      u = { t with spdm := { t.spdm with caps := true } }) ∧
    (due .negotiateAlgorithms s m → exec .negotiateAlgorithms s =
      .next (({ t with spdm := { t.spdm with algorithms := true } } : State).replyTo m 0
        [0x13, 0x63, 4, 0, 52, 0, 1, 0, 8, 0, 0, 0, 0, 1, 0, 0, 4, 0, 0, 0, 0, 0, 0, 0, 0, 0, 0, 0, 0, 0, 0, 0, 0, 0, 0, 0,
         2, 0x20, 0x20, 0, 3, 0x20, 2, 0, 4, 0x20, 0, 1, 5, 0x20, 1, 0])) ∧
    (due .getDigests s m → exec .getDigests s = .next (t.replyTo m 0 (0x13 :: 0x01 :: 0 :: 1 :: sha512 certificate))) ∧
    (due .getCertificate s m → let off := numberAt m.payload 4 2
      let part := (certificate.drop off).take (numberAt m.payload 6 2)
      exec .getCertificate s = .next (t.replyTo m 0 (0x13 :: 0x02 :: 0 :: 0 ::
        (bytesOf 2 part.length ++ bytesOf 2 (certificate.length - (off + part.length)) ++ part)))) ∧
    (due .challenge s m → ∃ sig u, u = { t with draws := t.draws + 1 } ∧ exec .challenge s = .next (u.replyTo m 0
      (0x13 :: 0x03 :: 0 :: 1 :: (sha512 certificate ++ t.nonce ++ t.summary (requestByte m 3) ++ bytesOf 2 0 ++
        bytesOf 8 (numberAt m.payload 36 8) ++ sig)))) ∧
    (due .getMeasurements s m → ∃ sig u, u = { t with draws := t.draws + 1 } ∧
      let all := (List.range 0x80).flatMap t.measurement
      let ms := if requestByte m 3 = 0xFF then all else t.measurement (requestByte m 3)
      let blocks := ms.flatMap fun x => BitVec.ofNat 8 x.1 :: 1 :: (bytesOf 2 67 ++ measurementType x.1 :: (bytesOf 2 64 ++ registerBytes x.2))
      let sign := requestByte m 2 % 2 = 1
      (¬sign → sig = []) ∧ exec .getMeasurements s = .next (u.replyTo m 0
        (0x13 :: 0x60 :: BitVec.ofNat 8 (if requestByte m 3 = 0 then all.length else 0) :: 0 :: BitVec.ofNat 8 ms.length ::
          (bytesOf 3 blocks.length ++ blocks ++ t.nonce ++ bytesOf 2 0 ++ bytesOf 8 (numberAt m.payload (if sign then 37 else 4) 8) ++ sig)))) ∧
    (∀ k, due .keyExchange s m → 1 ≤ k → k < 65536 → Sparse.find t.spdm.sessions k = none →
      (∀ j, 1 ≤ j → j < k → Sparse.find t.spdm.sessions j ≠ none) → ∃ r u, exec .keyExchange s =
        .next (u.replyTo m 0 (0x13 :: 0x64 :: 0 :: 0 :: (bytesOf 2 k ++ r))) ∧ u = { t with draws := t.draws + 1, spdm := { t.spdm with
          sessions := Sparse.put t.spdm.sessions k { device := m.device, finished := false, tag := none, count := 0, keyGen := 0, wrapped := false } } }) ∧
    (due .keyExchange s m → (∀ j, 1 ≤ j → j < 65536 → Sparse.find t.spdm.sessions j ≠ none) →
      exec .keyExchange s = .next (t.replyTo m 0 [0x13, 0x7F, 0x0A, 0])) ∧
    (∀ k x, due .finish s m → t.namedSession m = some (k, x) →
      (x.finished = true → exec .finish s = .next (t.replyTo m 0 [0x13, 0x7F, 4, 0])) ∧
      (x.finished = false → m.payload.drop 4 ≠ finishCode k → exec .finish s = .next (t.replyTo m 0 [0x13, 0x7F, 6, 0])) ∧
      (x.finished = false → m.payload.drop 4 = finishCode k →
        exec .finish s = .next ((t.putSession k { x with finished := true }).replyTo m 0 [0x13, 0x65, 0, 0]))) ∧
    (∀ i, (i = .heartbeat ∨ i = .keyUpdate ∨ i = .endSession) → due i s m → t.sessionOf m = none →
      exec i s = .next (t.replyTo m 0 [0x13, 0x7F, 4, 0])) ∧
    (∀ k x, t.sessionOf m = some (k, x) →
      (due .heartbeat s m → exec .heartbeat s = .next (t.replyTo m 0 [0x13, 0x68, 0, 0])) ∧
      (due .keyUpdate s m → (requestByte m 2 = 0 ∨ 3 < requestByte m 2) → exec .keyUpdate s = .next (t.replyTo m 0 [0x13, 0x7F, 1, 0])) ∧
      (∀ op, due .keyUpdate s m → requestByte m 2 = op → 1 ≤ op → op ≤ 3 → exec .keyUpdate s =
        .next ((if op = 3 then t else t.putSession k { x with keyGen := x.keyGen + 1 }).replyTo m 0
          [0x13, 0x69, BitVec.ofNat 8 op, BitVec.ofNat 8 (requestByte m 3)])) ∧
      (due .endSession s m → ∃ u : State, exec .endSession s = .next (u.replyTo m 0 [0x13, 0x6C, 0, 0]) ∧
        Sparse.find u.spdm.sessions k = none ∧ ∀ tag, x.tag = some tag → (u.ctx tag).session = none))) ∧
  (∀ (s : State) (i : Nat) (h : i - 1 < 16), 1 ≤ i → s.measurement i = [(i, s.mr[i - 1])]) ∧
  (∀ (s : State) (tag : BitVec 6), s.measurement (0x40 + tag.toNat) = if (s.ctx tag).state = .free then [] else [(0x40 + tag.toNat, (s.ctx tag).cmr)]) ∧
  (∀ (s : State) (m : Message) (tag : BitVec 6), s.message = some m → let t := s.takeMessage
    t.contextOf m = some tag →
    (m.op = 1 → m.clean = true → m.status = 0 →
      (t.accepted m tag = none → exec .rdmaWrite s = .next (t.acknowledge m 1)) ∧
      ∀ u, t.accepted m tag = some u → (u.stretches tag .write rdmaGranules m.va m.len = none → exec .rdmaWrite s = .next (u.acknowledge m 2)) ∧
        ∀ as, u.stretches tag .write rdmaGranules m.va m.len = some as →
          ((∃ a ∈ as, u.inWindow a.1 a.2 = true) → exec .rdmaWrite s = .next s) ∧
          ((∀ a ∈ as, u.inWindow a.1 a.2 = false) → (∀ a ∈ as, s.portFate a.1 = .arrives) →
            exec .rdmaWrite s = .next (({ u with mem := writeStretches u.mem as m.payload } : State).acknowledge m 0))) ∧
    (m.op = 2 → ({ m with payload := List.replicate m.len 0 } : Message).clean = true → m.payload = [] → m.status = 0 →
      (t.accepted m tag = none → exec .rdmaReadRequest s = .next (t.acknowledge m 1)) ∧
      ∀ u, t.accepted m tag = some u → (u.stretches tag .read rdmaGranules m.va m.len = none → exec .rdmaReadRequest s = .next (u.acknowledge m 2)) ∧
        ∀ as, u.stretches tag .read rdmaGranules m.va m.len = some as → (∀ a ∈ as, u.inWindow a.1 a.2 = false) →
          (∀ a ∈ as, s.portFate a.1 = .arrives) →
          exec .rdmaReadRequest s = .next (u.answerTo m 3 0 m.isSealed m.va tag (as.flatMap fun a => readBytes u.mem a.1 a.2)))) ∧
  (∀ (s : State) (m : Message), s.message = some m → let t := s.takeMessage
    (t.contextOf m = none → (m.op = 1 → exec .rdmaWrite s = .next (t.acknowledge m 1)) ∧
      (m.op = 2 → exec .rdmaReadRequest s = .next (t.acknowledge m 1))) ∧
    (t.accepted m (t.core m.core).ctxTag = none → (m.op = 3 → exec .readReply s = .next t) ∧ (m.op = 7 → exec .acknowledgment s = .next t)) ∧
    (∀ u, t.accepted m (t.core m.core).ctxTag = some u →
      (m.status ≠ 0 → (m.op = 3 → exec .readReply s = .next u) ∧ (m.op = 7 → exec .acknowledgment s = .next u)) ∧
      (m.op = 3 → m.status = 0 → m.payload.length = 32 → u.beatMeets m.core m.engine m.beat Beat.awaitsReply = true →
        exec .readReply s = .next (u.fillBeat m.core m.engine m.beat (BitVec.ofNat 256 (bytesNat m.payload)) false)) ∧
      (m.op = 7 → m.status = 0 → u.beatMeets m.core m.engine m.beat (fun b => b.delivered && !b.remote.isEmpty) = true →
        exec .acknowledgment s = .next (u.onCore m.core fun c => c.onEngine m.engine fun e => e.beatDone m.beat))) ∧
    (s.power = .boot → (m.op = 0 ∨ m.op = 5 ∨ 8 ≤ m.op) → m.uploads = false → exec .managementMessage s = .next t) ∧
    (s.power ≠ .boot → (m.op = 0 ∨ 8 ≤ m.op) → exec .managementMessage s = .next (t.acknowledge m 1)) ∧
    (m.op = 5 → (s.power ≠ .boot ∨ m.uploads = true) →
      ((m.clean = false ∨ m.status ≠ 0 ∨ t.admitted m = none) → exec .managementMessage s = .next (t.replyTo m 1 [])) ∧
      (∀ v, m.clean = true → m.status = 0 → t.admitted m = some v →
        (∀ a, v.manageAddress (qwordsOf m.payload) = some a → v.pageBusy (a / 65536) = true → exec .managementMessage s = .next s) ∧
        ((∀ a, v.manageAddress (qwordsOf m.payload) = some a → v.pageBusy (a / 65536) = false ∧ s.portFate a = .arrives) →
          (v.management m (qwordsOf m.payload) = none → exec .managementMessage s = .next (v.replyTo m 1 [])) ∧
          ∀ u r, v.management m (qwordsOf m.payload) = some (u, r) → exec .managementMessage s = .next (u.replyTo m 0 r))))) ∧
  (∀ (s : State) (m : Message), s.management m [7] = some (s, bytesOf 8 s.variant.devCap.toNat) ∧ s.management m [10] = some (s, [])) ∧
  (∀ (s : State) (m : Message) (p : Word), let tag : BitVec 6 := BitVec.ofNat 6 p.toNat
    (s.sessionOf m = none → s.management m [9, p] = none) ∧
    (∀ k x d, s.sessionOf m = some (k, x) → x.device = some d → p.toNat < 64 → (s.ctx tag).live = true → (s.ctx tag).peers.contains d = true →
      let count (m : Sparse (BitVec 64)) := if (Sparse.find m d.toNat).isSome then m else Sparse.put m d.toNat 0
      s.management m [9, p] = some (s.onCtx tag fun c => { c with peerKeys := count c.peerKeys }, []))) ∧
  (∀ s : State, (s.cur.n = 0 → exec .connectionRequest s = .next { s with connections := s.connections ++ [false] }) ∧
    (s.cur.n = 1 → exec .connectionRequest s = .next { s with connections := s.connections ++ [true] }) ∧
    (1 < s.cur.n → exec .connectionRequest s = .next s))

/-- R418–R423, R440–R445; the model's choices are log entries 4, 32 and 60. -/
def Obligations.HealthAndPower : Prop :=
  (∀ s : State, let u := s.cur.unit
    let n := Sparse.get 0 s.softErrors u + 1
    let t : State := { s with softErrors := Sparse.put s.softErrors u n }
    (s.variant.healthUnit u = false → exec .softErrorCorrected s = .next s) ∧
    let v : State := { t with softLimits := s.softLimits ++ [u] }
    (s.variant.healthUnit u = true → (n < s.hthr.toNat ∨ u ∈ s.softLimits) → exec .softErrorCorrected s = .next t) ∧
    (s.variant.healthUnit u = true → s.hthr.toNat ≤ n → u ∉ s.softLimits → s.variant.coreCount ≤ u →
      exec .softErrorCorrected s = .next (v.healthEvent 0xF0 u n)) ∧
    (s.variant.healthUnit u = true → s.hthr.toNat ≤ n → u ∉ s.softLimits → u < s.variant.coreCount → s.lasting.contains u = false →
      s.retired.contains u = false → ∃ w, exec .softErrorCorrected s = .next w ∧ w.lasting = s.lasting ++ [u] ∧
        w.softLimits = s.softLimits ++ [u] ∧ w.outbox = (t.healthEvent 0xF0 u n).outbox) ∧
    exec .healthWindowExpiry s = .next { s with softErrors := Sparse.drop s.softErrors u, softLimits := s.softLimits.filter (· != u) } ∧
    (u < s.variant.coreCount →
      exec .uncorrectable s = .next ((((s.healthEvent 0xF1 u 0).failLaunchOn u).markLasting u).startRetirement u)) ∧
    (∀ a, s.variant.coreCount ≤ u → canonical s.variant s.cur.n = some a → u = 0x200 + stackOf a → exec .uncorrectable s = .next
      (s.failContext ((Sparse.get 0#7 s.pot (a / 65536)).extractLsb' 0 6) 0xF1 (BitVec.ofNat 3 (stackOf a)) u))) ∧
  (∀ s : State, let u := s.cur.unit
    let underWay := ∃ x ∈ s.journal.records, x.retires = true ∧ x.state.inFlight = true ∧ ∃ e ∈ x.entries, keyCore e.key = u
    ((u ∉ s.lasting ∨ underWay ∨ ∃ l ∈ s.launches, l.placed = true ∧ l.saved = false ∧ u ∈ l.cores s.variant) →
      exec .coreRetire s = .next s) ∧
    (u ∈ s.lasting → ¬underWay → (∀ l ∈ s.launches, l.placed = true → l.saved = false → u ∉ l.cores s.variant) →
      (s.partOf u = none → ∃ t, exec .coreRetire s = .next t ∧ t.retired = s.retired ++ [u] ∧ u ∉ t.lasting ∧ t.mem = s.mem) ∧
      (∀ p, s.partOf u = some p → s.roomForTx = none → exec .coreRetire s = .next s) ∧
      (∀ p v, s.partOf u = some p → s.roomForTx = some v → ∃ e : ImageEntry, keyType e.key = 1 ∧ keyCore e.key = u ∧
        let part (x : TxRecord) : TxRecord := { x with scope := scopeOf p 0 0 0 0, retires := true, entries := [e] }
        exec .coreRetire s = .next ((v.recordTx .proposed part).proceedTx v.journal.nextNum)))) ∧
  (∀ (s : State) (u : Nat), let t := s.retireCore u
    t.retired = s.retired ++ [u] ∧ u ∉ t.lasting ∧ (∀ p, s.partOf u = some p → t.partOf u = none) ∧ t.mem = s.mem) ∧
  (∀ (i : Instr) (code : BitVec 8) (s : State), ((i = .thermal ∧ code = 0xF2) ∨ (i = .supply ∧ code = 0xF3)) → let u := s.cur.unit
    (s.variant.coreCount ≤ u → exec i s = .next s) ∧
    (u < s.variant.coreCount → ∃ t, exec i s = .next (t.healthEvent code u 0) ∧
      t = { s with slow := if s.slow.contains u then s.slow else s.slow ++ [u] })) ∧
  (∀ s : State, exec .shutdown s = .next { s.healthEvent 0xF4 s.cur.unit 0 with power := .off }) ∧
  (∀ s : State, (s.cur.flag = false → exec .debugUnlock s = .next s) ∧
    (s.cur.flag = true → ∃ t, exec .debugUnlock s = .next t ∧ t.power = .frozen ∧ (∀ tag, (t.ctx tag).slot = none) ∧
      t.mr = s.mr.set 3 (digestValue (sha512 (registerBytes s.mr[3] ++ bytesOf 64 s.cur.n))))) ∧
  (∀ s : State, let u := s.cur.unit
    let c := s.core u
    let called := (∃ p ∈ s.net, p.dst = u) ∨ (∃ f ∈ s.flights, f.dst.core = u) ∨ ∃ k ∈ s.credits, k.dst.core = u
    ((s.variant.coreCount ≤ u ∨ u ∈ s.dusk ∨ (s.launchOf u).isSome = true ∨ called ∨ c.run = .running ∨ c.accesses ≠ [] ∨
      (∃ e ∈ c.engines.toList, e.job.isSome = true) ∨ c.cfg.loads ≠ [] ∨ (∃ b ∈ c.banks.toList, b.queue ≠ []) ∨
      (∃ e ∈ c.elems, e.2.atRest = false) ∨ c.router.entries ≠ [] ∨ c.router.stores ≠ []) → exec .duskEntry s = .next s) ∧
    (u < s.variant.coreCount → u ∉ s.dusk → s.launchOf u = none → ¬called → c.unitsIdle = true →
      exec .duskEntry s = .next { s with dusk := s.dusk ++ [u] }) ∧
    (called → exec .duskExit s = .next { s with dusk := s.dusk.filter (· != u) }) ∧
    (¬called → exec .duskExit s = .next s)) ∧
  (∀ s : State, let idle := ∀ l ∈ s.launches, l.placed = true → l.saved = true
    (idle → s.checks ≠ [] → exec .midnightEntry s = .next s) ∧
    (idle → s.checks = [] → ∃ t, exec .midnightEntry s = .next t ∧ t.power = .midnight ∧ t.mem = s.mem ∧ t.net = [] ∧ t.flights = [] ∧ t.credits = [] ∧
      (∀ tag, (t.ctx tag).slot = none ∧ (t.ctx tag).wrapped = (s.ctx tag).slot) ∧
      (∀ k x, Sparse.find t.spdm.sessions k = some x → x.wrapped = true) ∧
      ∀ c < s.variant.coreCount, (t.core c).regs = Core.reset.regs ∧ (t.core c).sram = []) ∧
    (∀ l, l ∈ s.launches → l.placed = true → l.saved = false → ∃ t, exec .midnightEntry s = .next t ∧ t.power = s.power ∧ t.cur = s.cur ∧
      ((s.launches.map (·.id)).Nodup → ∀ k ∈ t.launches, k.placed = true → k.saved = false → k.pending = true))) ∧
  (∀ s : State, (s.power ≠ .midnight → exec .wake s = .next s) ∧ (s.power = .midnight → ∃ t, exec .wake s = .next t ∧ t.power = .on ∧
    (s.cur.flag = true → t.mem = s.mem ∧ t.saves = s.saves ∧
      (∀ tag, (t.ctx tag).slot = (s.ctx tag).wrapped ∧ (t.ctx tag).wrapped = none) ∧
      ∀ k x, Sparse.find t.spdm.sessions k = some x → x.wrapped = false) ∧
    (s.cur.flag = false → t.spdm.sessions = [] ∧ t.draws = s.draws + 5 ∧ (t.ctx 0).slot = some (KeySlot.drawn (s.draws + 1))))) ∧
  (∀ s : State, let fresh : State := { State.reset with variant := s.variant, agenda := s.agenda, cur := s.cur, tick := s.tick, draws := s.draws }
    (s.cur.flag = false → ∃ t, exec .deviceReset s = .next t ∧ t.power = .boot ∧ t.ready = false ∧ t.ctxs = [] ∧ t.mem = [] ∧
      t.cores = State.reset.cores ∧ t.mr = (fresh.measureStages (1 + s.cur.n % 3)).mr ∧ ∀ k (h : k < 16), 3 ≤ k → t.mr[k] = 0) ∧
    (s.cur.flag = true → ∃ t, exec .deviceReset s = .next t ∧ t.power = .on ∧ t.ready = true ∧ t.mem = [] ∧ t.cores = State.reset.cores ∧
      (t.ctx 0).slot = some (KeySlot.drawn (s.draws + 1)) ∧ t.mr = (fresh.boot).mr ∧ ∀ k (h : k < 16), 4 ≤ k → t.mr[k] = 0))
end

