-- ==== Sys2Proof/Laws/State.lean ====
section
/-! SUPPORT. What each update of a state or of a core leaves: one lemma for each field of each update, and what the shared operations
of Ops do. -/

namespace Sys2Proof.Machine

/-! ### Updates of the state -/

@[simp] theorem State.setCore_variant (s : State) (c : Nat) (k : Core) : (s.setCore c k).variant = s.variant := rfl
@[simp] theorem State.setCore_mem (s : State) (c : Nat) (k : Core) : (s.setCore c k).mem = s.mem := rfl
@[simp] theorem State.setCore_ctxs (s : State) (c : Nat) (k : Core) : (s.setCore c k).ctxs = s.ctxs := rfl
@[simp] theorem State.setCore_flights (s : State) (c : Nat) (k : Core) : (s.setCore c k).flights = s.flights := rfl
@[simp] theorem State.setCore_net (s : State) (c : Nat) (k : Core) : (s.setCore c k).net = s.net := rfl
@[simp] theorem State.setCore_credits (s : State) (c : Nat) (k : Core) : (s.setCore c k).credits = s.credits := rfl
@[simp] theorem State.setCore_tlb2 (s : State) (c : Nat) (k : Core) : (s.setCore c k).tlb2 = s.tlb2 := rfl
@[simp] theorem State.setCore_supd (s : State) (c : Nat) (k : Core) : (s.setCore c k).supd = s.supd := rfl
@[simp] theorem State.setCore_chains (s : State) (c : Nat) (k : Core) : (s.setCore c k).chains = s.chains := rfl
@[simp] theorem State.setCore_journal (s : State) (c : Nat) (k : Core) : (s.setCore c k).journal = s.journal := rfl
@[simp] theorem State.setCore_regions (s : State) (c : Nat) (k : Core) : (s.setCore c k).regions = s.regions := rfl
@[simp] theorem State.setCore_moves (s : State) (c : Nat) (k : Core) : (s.setCore c k).moves = s.moves := rfl
@[simp] theorem State.setCore_queues (s : State) (c : Nat) (k : Core) : (s.setCore c k).queues = s.queues := rfl
@[simp] theorem State.setCore_slots (s : State) (c : Nat) (k : Core) : (s.setCore c k).slots = s.slots := rfl
@[simp] theorem State.setCore_kicked (s : State) (c : Nat) (k : Core) : (s.setCore c k).kicked = s.kicked := rfl
@[simp] theorem State.setCore_droppedKicks (s : State) (c : Nat) (k : Core) : (s.setCore c k).droppedKicks = s.droppedKicks := rfl
@[simp] theorem State.setCore_qcbWrites (s : State) (c : Nat) (k : Core) : (s.setCore c k).qcbWrites = s.qcbWrites := rfl
@[simp] theorem State.setCore_input (s : State) (c : Nat) (k : Core) : (s.setCore c k).input = s.input := rfl
@[simp] theorem State.setCore_launches (s : State) (c : Nat) (k : Core) : (s.setCore c k).launches = s.launches := rfl
@[simp] theorem State.setCore_nextLaunch (s : State) (c : Nat) (k : Core) : (s.setCore c k).nextLaunch = s.nextLaunch := rfl
@[simp] theorem State.setCore_saves (s : State) (c : Nat) (k : Core) : (s.setCore c k).saves = s.saves := rfl
@[simp] theorem State.setCore_ctag (s : State) (c : Nat) (k : Core) : (s.setCore c k).ctag = s.ctag := rfl
@[simp] theorem State.setCore_btag (s : State) (c : Nat) (k : Core) : (s.setCore c k).btag = s.btag := rfl
@[simp] theorem State.setCore_reserve (s : State) (c : Nat) (k : Core) : (s.setCore c k).reserve = s.reserve := rfl
@[simp] theorem State.setCore_permit (s : State) (c : Nat) (k : Core) : (s.setCore c k).permit = s.permit := rfl
@[simp] theorem State.setCore_corePart (s : State) (c : Nat) (k : Core) : (s.setCore c k).corePart = s.corePart := rfl
@[simp] theorem State.setCore_bankPart (s : State) (c : Nat) (k : Core) : (s.setCore c k).bankPart = s.bankPart := rfl
@[simp] theorem State.setCore_unowned (s : State) (c : Nat) (k : Core) : (s.setCore c k).unowned = s.unowned := rfl
@[simp] theorem State.setCore_retired (s : State) (c : Nat) (k : Core) : (s.setCore c k).retired = s.retired := rfl
@[simp] theorem State.setCore_lasting (s : State) (c : Nat) (k : Core) : (s.setCore c k).lasting = s.lasting := rfl
@[simp] theorem State.setCore_pot (s : State) (c : Nat) (k : Core) : (s.setCore c k).pot = s.pot := rfl
@[simp] theorem State.setCore_mr (s : State) (c : Nat) (k : Core) : (s.setCore c k).mr = s.mr := rfl
@[simp] theorem State.setCore_sleepKey (s : State) (c : Nat) (k : Core) : (s.setCore c k).sleepKey = s.sleepKey := rfl
@[simp] theorem State.setCore_draws (s : State) (c : Nat) (k : Core) : (s.setCore c k).draws = s.draws := rfl
@[simp] theorem State.setCore_checks (s : State) (c : Nat) (k : Core) : (s.setCore c k).checks = s.checks := rfl
@[simp] theorem State.setCore_nextCheck (s : State) (c : Nat) (k : Core) : (s.setCore c k).nextCheck = s.nextCheck := rfl
@[simp] theorem State.setCore_spdm (s : State) (c : Nat) (k : Core) : (s.setCore c k).spdm = s.spdm := rfl
@[simp] theorem State.setCore_inbox (s : State) (c : Nat) (k : Core) : (s.setCore c k).inbox = s.inbox := rfl
@[simp] theorem State.setCore_outbox (s : State) (c : Nat) (k : Core) : (s.setCore c k).outbox = s.outbox := rfl
@[simp] theorem State.setCore_connections (s : State) (c : Nat) (k : Core) : (s.setCore c k).connections = s.connections := rfl
@[simp] theorem State.setCore_softErrors (s : State) (c : Nat) (k : Core) : (s.setCore c k).softErrors = s.softErrors := rfl
@[simp] theorem State.setCore_softLimits (s : State) (c : Nat) (k : Core) : (s.setCore c k).softLimits = s.softLimits := rfl
@[simp] theorem State.setCore_hthr (s : State) (c : Nat) (k : Core) : (s.setCore c k).hthr = s.hthr := rfl
@[simp] theorem State.setCore_power (s : State) (c : Nat) (k : Core) : (s.setCore c k).power = s.power := rfl
@[simp] theorem State.setCore_ready (s : State) (c : Nat) (k : Core) : (s.setCore c k).ready = s.ready := rfl
@[simp] theorem State.setCore_dusk (s : State) (c : Nat) (k : Core) : (s.setCore c k).dusk = s.dusk := rfl
@[simp] theorem State.setCore_slow (s : State) (c : Nat) (k : Core) : (s.setCore c k).slow = s.slow := rfl
@[simp] theorem State.setCore_mcycle (s : State) (c : Nat) (k : Core) : (s.setCore c k).mcycle = s.mcycle := rfl
@[simp] theorem State.setCore_paths (s : State) (c : Nat) (k : Core) : (s.setCore c k).paths = s.paths := rfl
@[simp] theorem State.setCore_agenda (s : State) (c : Nat) (k : Core) : (s.setCore c k).agenda = s.agenda := rfl
@[simp] theorem State.setCore_cur (s : State) (c : Nat) (k : Core) : (s.setCore c k).cur = s.cur := rfl
@[simp] theorem State.setCore_tick (s : State) (c : Nat) (k : Core) : (s.setCore c k).tick = s.tick := rfl

@[simp] theorem State.onCore_variant (s : State) (c : Nat) (f : Core → Core) : (s.onCore c f).variant = s.variant := rfl
@[simp] theorem State.onCore_mem (s : State) (c : Nat) (f : Core → Core) : (s.onCore c f).mem = s.mem := rfl
@[simp] theorem State.onCore_ctxs (s : State) (c : Nat) (f : Core → Core) : (s.onCore c f).ctxs = s.ctxs := rfl
@[simp] theorem State.onCore_flights (s : State) (c : Nat) (f : Core → Core) : (s.onCore c f).flights = s.flights := rfl
@[simp] theorem State.onCore_net (s : State) (c : Nat) (f : Core → Core) : (s.onCore c f).net = s.net := rfl
@[simp] theorem State.onCore_credits (s : State) (c : Nat) (f : Core → Core) : (s.onCore c f).credits = s.credits := rfl
@[simp] theorem State.onCore_tlb2 (s : State) (c : Nat) (f : Core → Core) : (s.onCore c f).tlb2 = s.tlb2 := rfl
@[simp] theorem State.onCore_supd (s : State) (c : Nat) (f : Core → Core) : (s.onCore c f).supd = s.supd := rfl
@[simp] theorem State.onCore_chains (s : State) (c : Nat) (f : Core → Core) : (s.onCore c f).chains = s.chains := rfl
@[simp] theorem State.onCore_journal (s : State) (c : Nat) (f : Core → Core) : (s.onCore c f).journal = s.journal := rfl
@[simp] theorem State.onCore_regions (s : State) (c : Nat) (f : Core → Core) : (s.onCore c f).regions = s.regions := rfl
@[simp] theorem State.onCore_moves (s : State) (c : Nat) (f : Core → Core) : (s.onCore c f).moves = s.moves := rfl
@[simp] theorem State.onCore_queues (s : State) (c : Nat) (f : Core → Core) : (s.onCore c f).queues = s.queues := rfl
@[simp] theorem State.onCore_slots (s : State) (c : Nat) (f : Core → Core) : (s.onCore c f).slots = s.slots := rfl
@[simp] theorem State.onCore_kicked (s : State) (c : Nat) (f : Core → Core) : (s.onCore c f).kicked = s.kicked := rfl
@[simp] theorem State.onCore_droppedKicks (s : State) (c : Nat) (f : Core → Core) : (s.onCore c f).droppedKicks = s.droppedKicks := rfl
@[simp] theorem State.onCore_qcbWrites (s : State) (c : Nat) (f : Core → Core) : (s.onCore c f).qcbWrites = s.qcbWrites := rfl
@[simp] theorem State.onCore_input (s : State) (c : Nat) (f : Core → Core) : (s.onCore c f).input = s.input := rfl
@[simp] theorem State.onCore_launches (s : State) (c : Nat) (f : Core → Core) : (s.onCore c f).launches = s.launches := rfl
@[simp] theorem State.onCore_nextLaunch (s : State) (c : Nat) (f : Core → Core) : (s.onCore c f).nextLaunch = s.nextLaunch := rfl
@[simp] theorem State.onCore_saves (s : State) (c : Nat) (f : Core → Core) : (s.onCore c f).saves = s.saves := rfl
@[simp] theorem State.onCore_ctag (s : State) (c : Nat) (f : Core → Core) : (s.onCore c f).ctag = s.ctag := rfl
@[simp] theorem State.onCore_btag (s : State) (c : Nat) (f : Core → Core) : (s.onCore c f).btag = s.btag := rfl
@[simp] theorem State.onCore_reserve (s : State) (c : Nat) (f : Core → Core) : (s.onCore c f).reserve = s.reserve := rfl
@[simp] theorem State.onCore_permit (s : State) (c : Nat) (f : Core → Core) : (s.onCore c f).permit = s.permit := rfl
@[simp] theorem State.onCore_corePart (s : State) (c : Nat) (f : Core → Core) : (s.onCore c f).corePart = s.corePart := rfl
@[simp] theorem State.onCore_bankPart (s : State) (c : Nat) (f : Core → Core) : (s.onCore c f).bankPart = s.bankPart := rfl
@[simp] theorem State.onCore_unowned (s : State) (c : Nat) (f : Core → Core) : (s.onCore c f).unowned = s.unowned := rfl
@[simp] theorem State.onCore_retired (s : State) (c : Nat) (f : Core → Core) : (s.onCore c f).retired = s.retired := rfl
@[simp] theorem State.onCore_lasting (s : State) (c : Nat) (f : Core → Core) : (s.onCore c f).lasting = s.lasting := rfl
@[simp] theorem State.onCore_pot (s : State) (c : Nat) (f : Core → Core) : (s.onCore c f).pot = s.pot := rfl
@[simp] theorem State.onCore_mr (s : State) (c : Nat) (f : Core → Core) : (s.onCore c f).mr = s.mr := rfl
@[simp] theorem State.onCore_sleepKey (s : State) (c : Nat) (f : Core → Core) : (s.onCore c f).sleepKey = s.sleepKey := rfl
@[simp] theorem State.onCore_draws (s : State) (c : Nat) (f : Core → Core) : (s.onCore c f).draws = s.draws := rfl
@[simp] theorem State.onCore_checks (s : State) (c : Nat) (f : Core → Core) : (s.onCore c f).checks = s.checks := rfl
@[simp] theorem State.onCore_nextCheck (s : State) (c : Nat) (f : Core → Core) : (s.onCore c f).nextCheck = s.nextCheck := rfl
@[simp] theorem State.onCore_spdm (s : State) (c : Nat) (f : Core → Core) : (s.onCore c f).spdm = s.spdm := rfl
@[simp] theorem State.onCore_inbox (s : State) (c : Nat) (f : Core → Core) : (s.onCore c f).inbox = s.inbox := rfl
@[simp] theorem State.onCore_outbox (s : State) (c : Nat) (f : Core → Core) : (s.onCore c f).outbox = s.outbox := rfl
@[simp] theorem State.onCore_connections (s : State) (c : Nat) (f : Core → Core) : (s.onCore c f).connections = s.connections := rfl
@[simp] theorem State.onCore_softErrors (s : State) (c : Nat) (f : Core → Core) : (s.onCore c f).softErrors = s.softErrors := rfl
@[simp] theorem State.onCore_softLimits (s : State) (c : Nat) (f : Core → Core) : (s.onCore c f).softLimits = s.softLimits := rfl
@[simp] theorem State.onCore_hthr (s : State) (c : Nat) (f : Core → Core) : (s.onCore c f).hthr = s.hthr := rfl
@[simp] theorem State.onCore_power (s : State) (c : Nat) (f : Core → Core) : (s.onCore c f).power = s.power := rfl
@[simp] theorem State.onCore_ready (s : State) (c : Nat) (f : Core → Core) : (s.onCore c f).ready = s.ready := rfl
@[simp] theorem State.onCore_dusk (s : State) (c : Nat) (f : Core → Core) : (s.onCore c f).dusk = s.dusk := rfl
@[simp] theorem State.onCore_slow (s : State) (c : Nat) (f : Core → Core) : (s.onCore c f).slow = s.slow := rfl
@[simp] theorem State.onCore_mcycle (s : State) (c : Nat) (f : Core → Core) : (s.onCore c f).mcycle = s.mcycle := rfl
@[simp] theorem State.onCore_paths (s : State) (c : Nat) (f : Core → Core) : (s.onCore c f).paths = s.paths := rfl
@[simp] theorem State.onCore_agenda (s : State) (c : Nat) (f : Core → Core) : (s.onCore c f).agenda = s.agenda := rfl
@[simp] theorem State.onCore_cur (s : State) (c : Nat) (f : Core → Core) : (s.onCore c f).cur = s.cur := rfl
@[simp] theorem State.onCore_tick (s : State) (c : Nat) (f : Core → Core) : (s.onCore c f).tick = s.tick := rfl

@[simp] theorem State.on_variant (s : State) (f : Core → Core) : (s.on f).variant = s.variant := rfl
@[simp] theorem State.on_mem (s : State) (f : Core → Core) : (s.on f).mem = s.mem := rfl
@[simp] theorem State.on_ctxs (s : State) (f : Core → Core) : (s.on f).ctxs = s.ctxs := rfl
@[simp] theorem State.on_flights (s : State) (f : Core → Core) : (s.on f).flights = s.flights := rfl
@[simp] theorem State.on_net (s : State) (f : Core → Core) : (s.on f).net = s.net := rfl
@[simp] theorem State.on_credits (s : State) (f : Core → Core) : (s.on f).credits = s.credits := rfl
@[simp] theorem State.on_tlb2 (s : State) (f : Core → Core) : (s.on f).tlb2 = s.tlb2 := rfl
@[simp] theorem State.on_supd (s : State) (f : Core → Core) : (s.on f).supd = s.supd := rfl
@[simp] theorem State.on_chains (s : State) (f : Core → Core) : (s.on f).chains = s.chains := rfl
@[simp] theorem State.on_journal (s : State) (f : Core → Core) : (s.on f).journal = s.journal := rfl
@[simp] theorem State.on_regions (s : State) (f : Core → Core) : (s.on f).regions = s.regions := rfl
@[simp] theorem State.on_moves (s : State) (f : Core → Core) : (s.on f).moves = s.moves := rfl
@[simp] theorem State.on_queues (s : State) (f : Core → Core) : (s.on f).queues = s.queues := rfl
@[simp] theorem State.on_slots (s : State) (f : Core → Core) : (s.on f).slots = s.slots := rfl
@[simp] theorem State.on_kicked (s : State) (f : Core → Core) : (s.on f).kicked = s.kicked := rfl
@[simp] theorem State.on_droppedKicks (s : State) (f : Core → Core) : (s.on f).droppedKicks = s.droppedKicks := rfl
@[simp] theorem State.on_qcbWrites (s : State) (f : Core → Core) : (s.on f).qcbWrites = s.qcbWrites := rfl
@[simp] theorem State.on_input (s : State) (f : Core → Core) : (s.on f).input = s.input := rfl
@[simp] theorem State.on_launches (s : State) (f : Core → Core) : (s.on f).launches = s.launches := rfl
@[simp] theorem State.on_nextLaunch (s : State) (f : Core → Core) : (s.on f).nextLaunch = s.nextLaunch := rfl
@[simp] theorem State.on_saves (s : State) (f : Core → Core) : (s.on f).saves = s.saves := rfl
@[simp] theorem State.on_ctag (s : State) (f : Core → Core) : (s.on f).ctag = s.ctag := rfl
@[simp] theorem State.on_btag (s : State) (f : Core → Core) : (s.on f).btag = s.btag := rfl
@[simp] theorem State.on_reserve (s : State) (f : Core → Core) : (s.on f).reserve = s.reserve := rfl
@[simp] theorem State.on_permit (s : State) (f : Core → Core) : (s.on f).permit = s.permit := rfl
@[simp] theorem State.on_corePart (s : State) (f : Core → Core) : (s.on f).corePart = s.corePart := rfl
@[simp] theorem State.on_bankPart (s : State) (f : Core → Core) : (s.on f).bankPart = s.bankPart := rfl
@[simp] theorem State.on_unowned (s : State) (f : Core → Core) : (s.on f).unowned = s.unowned := rfl
@[simp] theorem State.on_retired (s : State) (f : Core → Core) : (s.on f).retired = s.retired := rfl
@[simp] theorem State.on_lasting (s : State) (f : Core → Core) : (s.on f).lasting = s.lasting := rfl
@[simp] theorem State.on_pot (s : State) (f : Core → Core) : (s.on f).pot = s.pot := rfl
@[simp] theorem State.on_mr (s : State) (f : Core → Core) : (s.on f).mr = s.mr := rfl
@[simp] theorem State.on_sleepKey (s : State) (f : Core → Core) : (s.on f).sleepKey = s.sleepKey := rfl
@[simp] theorem State.on_draws (s : State) (f : Core → Core) : (s.on f).draws = s.draws := rfl
@[simp] theorem State.on_checks (s : State) (f : Core → Core) : (s.on f).checks = s.checks := rfl
@[simp] theorem State.on_nextCheck (s : State) (f : Core → Core) : (s.on f).nextCheck = s.nextCheck := rfl
@[simp] theorem State.on_spdm (s : State) (f : Core → Core) : (s.on f).spdm = s.spdm := rfl
@[simp] theorem State.on_inbox (s : State) (f : Core → Core) : (s.on f).inbox = s.inbox := rfl
@[simp] theorem State.on_outbox (s : State) (f : Core → Core) : (s.on f).outbox = s.outbox := rfl
@[simp] theorem State.on_connections (s : State) (f : Core → Core) : (s.on f).connections = s.connections := rfl
@[simp] theorem State.on_softErrors (s : State) (f : Core → Core) : (s.on f).softErrors = s.softErrors := rfl
@[simp] theorem State.on_softLimits (s : State) (f : Core → Core) : (s.on f).softLimits = s.softLimits := rfl
@[simp] theorem State.on_hthr (s : State) (f : Core → Core) : (s.on f).hthr = s.hthr := rfl
@[simp] theorem State.on_power (s : State) (f : Core → Core) : (s.on f).power = s.power := rfl
@[simp] theorem State.on_ready (s : State) (f : Core → Core) : (s.on f).ready = s.ready := rfl
@[simp] theorem State.on_dusk (s : State) (f : Core → Core) : (s.on f).dusk = s.dusk := rfl
@[simp] theorem State.on_slow (s : State) (f : Core → Core) : (s.on f).slow = s.slow := rfl
@[simp] theorem State.on_mcycle (s : State) (f : Core → Core) : (s.on f).mcycle = s.mcycle := rfl
@[simp] theorem State.on_paths (s : State) (f : Core → Core) : (s.on f).paths = s.paths := rfl
@[simp] theorem State.on_agenda (s : State) (f : Core → Core) : (s.on f).agenda = s.agenda := rfl
@[simp] theorem State.on_cur (s : State) (f : Core → Core) : (s.on f).cur = s.cur := rfl
@[simp] theorem State.on_tick (s : State) (f : Core → Core) : (s.on f).tick = s.tick := rfl

@[simp] theorem State.onCtx_variant (s : State) (t : BitVec 6) (f : Context → Context) : (s.onCtx t f).variant = s.variant := rfl
@[simp] theorem State.onCtx_mem (s : State) (t : BitVec 6) (f : Context → Context) : (s.onCtx t f).mem = s.mem := rfl
@[simp] theorem State.onCtx_cores (s : State) (t : BitVec 6) (f : Context → Context) : (s.onCtx t f).cores = s.cores := rfl
@[simp] theorem State.onCtx_flights (s : State) (t : BitVec 6) (f : Context → Context) : (s.onCtx t f).flights = s.flights := rfl
@[simp] theorem State.onCtx_net (s : State) (t : BitVec 6) (f : Context → Context) : (s.onCtx t f).net = s.net := rfl
@[simp] theorem State.onCtx_credits (s : State) (t : BitVec 6) (f : Context → Context) : (s.onCtx t f).credits = s.credits := rfl
@[simp] theorem State.onCtx_tlb2 (s : State) (t : BitVec 6) (f : Context → Context) : (s.onCtx t f).tlb2 = s.tlb2 := rfl
@[simp] theorem State.onCtx_supd (s : State) (t : BitVec 6) (f : Context → Context) : (s.onCtx t f).supd = s.supd := rfl
@[simp] theorem State.onCtx_chains (s : State) (t : BitVec 6) (f : Context → Context) : (s.onCtx t f).chains = s.chains := rfl
@[simp] theorem State.onCtx_journal (s : State) (t : BitVec 6) (f : Context → Context) : (s.onCtx t f).journal = s.journal := rfl
@[simp] theorem State.onCtx_regions (s : State) (t : BitVec 6) (f : Context → Context) : (s.onCtx t f).regions = s.regions := rfl
@[simp] theorem State.onCtx_moves (s : State) (t : BitVec 6) (f : Context → Context) : (s.onCtx t f).moves = s.moves := rfl
@[simp] theorem State.onCtx_queues (s : State) (t : BitVec 6) (f : Context → Context) : (s.onCtx t f).queues = s.queues := rfl
@[simp] theorem State.onCtx_slots (s : State) (t : BitVec 6) (f : Context → Context) : (s.onCtx t f).slots = s.slots := rfl
@[simp] theorem State.onCtx_kicked (s : State) (t : BitVec 6) (f : Context → Context) : (s.onCtx t f).kicked = s.kicked := rfl
@[simp] theorem State.onCtx_droppedKicks (s : State) (t : BitVec 6) (f : Context → Context) : (s.onCtx t f).droppedKicks = s.droppedKicks := rfl
@[simp] theorem State.onCtx_qcbWrites (s : State) (t : BitVec 6) (f : Context → Context) : (s.onCtx t f).qcbWrites = s.qcbWrites := rfl
@[simp] theorem State.onCtx_input (s : State) (t : BitVec 6) (f : Context → Context) : (s.onCtx t f).input = s.input := rfl
@[simp] theorem State.onCtx_launches (s : State) (t : BitVec 6) (f : Context → Context) : (s.onCtx t f).launches = s.launches := rfl
@[simp] theorem State.onCtx_nextLaunch (s : State) (t : BitVec 6) (f : Context → Context) : (s.onCtx t f).nextLaunch = s.nextLaunch := rfl
@[simp] theorem State.onCtx_saves (s : State) (t : BitVec 6) (f : Context → Context) : (s.onCtx t f).saves = s.saves := rfl
@[simp] theorem State.onCtx_ctag (s : State) (t : BitVec 6) (f : Context → Context) : (s.onCtx t f).ctag = s.ctag := rfl
@[simp] theorem State.onCtx_btag (s : State) (t : BitVec 6) (f : Context → Context) : (s.onCtx t f).btag = s.btag := rfl
@[simp] theorem State.onCtx_reserve (s : State) (t : BitVec 6) (f : Context → Context) : (s.onCtx t f).reserve = s.reserve := rfl
@[simp] theorem State.onCtx_permit (s : State) (t : BitVec 6) (f : Context → Context) : (s.onCtx t f).permit = s.permit := rfl
@[simp] theorem State.onCtx_corePart (s : State) (t : BitVec 6) (f : Context → Context) : (s.onCtx t f).corePart = s.corePart := rfl
@[simp] theorem State.onCtx_bankPart (s : State) (t : BitVec 6) (f : Context → Context) : (s.onCtx t f).bankPart = s.bankPart := rfl
@[simp] theorem State.onCtx_unowned (s : State) (t : BitVec 6) (f : Context → Context) : (s.onCtx t f).unowned = s.unowned := rfl
@[simp] theorem State.onCtx_retired (s : State) (t : BitVec 6) (f : Context → Context) : (s.onCtx t f).retired = s.retired := rfl
@[simp] theorem State.onCtx_lasting (s : State) (t : BitVec 6) (f : Context → Context) : (s.onCtx t f).lasting = s.lasting := rfl
@[simp] theorem State.onCtx_pot (s : State) (t : BitVec 6) (f : Context → Context) : (s.onCtx t f).pot = s.pot := rfl
@[simp] theorem State.onCtx_mr (s : State) (t : BitVec 6) (f : Context → Context) : (s.onCtx t f).mr = s.mr := rfl
@[simp] theorem State.onCtx_sleepKey (s : State) (t : BitVec 6) (f : Context → Context) : (s.onCtx t f).sleepKey = s.sleepKey := rfl
@[simp] theorem State.onCtx_draws (s : State) (t : BitVec 6) (f : Context → Context) : (s.onCtx t f).draws = s.draws := rfl
@[simp] theorem State.onCtx_checks (s : State) (t : BitVec 6) (f : Context → Context) : (s.onCtx t f).checks = s.checks := rfl
@[simp] theorem State.onCtx_nextCheck (s : State) (t : BitVec 6) (f : Context → Context) : (s.onCtx t f).nextCheck = s.nextCheck := rfl
@[simp] theorem State.onCtx_spdm (s : State) (t : BitVec 6) (f : Context → Context) : (s.onCtx t f).spdm = s.spdm := rfl
@[simp] theorem State.onCtx_inbox (s : State) (t : BitVec 6) (f : Context → Context) : (s.onCtx t f).inbox = s.inbox := rfl
@[simp] theorem State.onCtx_outbox (s : State) (t : BitVec 6) (f : Context → Context) : (s.onCtx t f).outbox = s.outbox := rfl
@[simp] theorem State.onCtx_connections (s : State) (t : BitVec 6) (f : Context → Context) : (s.onCtx t f).connections = s.connections := rfl
@[simp] theorem State.onCtx_softErrors (s : State) (t : BitVec 6) (f : Context → Context) : (s.onCtx t f).softErrors = s.softErrors := rfl
@[simp] theorem State.onCtx_softLimits (s : State) (t : BitVec 6) (f : Context → Context) : (s.onCtx t f).softLimits = s.softLimits := rfl
@[simp] theorem State.onCtx_hthr (s : State) (t : BitVec 6) (f : Context → Context) : (s.onCtx t f).hthr = s.hthr := rfl
@[simp] theorem State.onCtx_power (s : State) (t : BitVec 6) (f : Context → Context) : (s.onCtx t f).power = s.power := rfl
@[simp] theorem State.onCtx_ready (s : State) (t : BitVec 6) (f : Context → Context) : (s.onCtx t f).ready = s.ready := rfl
@[simp] theorem State.onCtx_dusk (s : State) (t : BitVec 6) (f : Context → Context) : (s.onCtx t f).dusk = s.dusk := rfl
@[simp] theorem State.onCtx_slow (s : State) (t : BitVec 6) (f : Context → Context) : (s.onCtx t f).slow = s.slow := rfl
@[simp] theorem State.onCtx_mcycle (s : State) (t : BitVec 6) (f : Context → Context) : (s.onCtx t f).mcycle = s.mcycle := rfl
@[simp] theorem State.onCtx_paths (s : State) (t : BitVec 6) (f : Context → Context) : (s.onCtx t f).paths = s.paths := rfl
@[simp] theorem State.onCtx_agenda (s : State) (t : BitVec 6) (f : Context → Context) : (s.onCtx t f).agenda = s.agenda := rfl
@[simp] theorem State.onCtx_cur (s : State) (t : BitVec 6) (f : Context → Context) : (s.onCtx t f).cur = s.cur := rfl
@[simp] theorem State.onCtx_tick (s : State) (t : BitVec 6) (f : Context → Context) : (s.onCtx t f).tick = s.tick := rfl

@[simp] theorem State.raise_variant (s : State) (c : Nat) (code : BitVec 8) (k : BitVec 3) (u : Nat) (v : Word) : (s.raise c code k u v).variant = s.variant := rfl
@[simp] theorem State.raise_mem (s : State) (c : Nat) (code : BitVec 8) (k : BitVec 3) (u : Nat) (v : Word) : (s.raise c code k u v).mem = s.mem := rfl
@[simp] theorem State.raise_ctxs (s : State) (c : Nat) (code : BitVec 8) (k : BitVec 3) (u : Nat) (v : Word) : (s.raise c code k u v).ctxs = s.ctxs := rfl
@[simp] theorem State.raise_flights (s : State) (c : Nat) (code : BitVec 8) (k : BitVec 3) (u : Nat) (v : Word) : (s.raise c code k u v).flights = s.flights := rfl
@[simp] theorem State.raise_net (s : State) (c : Nat) (code : BitVec 8) (k : BitVec 3) (u : Nat) (v : Word) : (s.raise c code k u v).net = s.net := rfl
@[simp] theorem State.raise_credits (s : State) (c : Nat) (code : BitVec 8) (k : BitVec 3) (u : Nat) (v : Word) : (s.raise c code k u v).credits = s.credits := rfl
@[simp] theorem State.raise_tlb2 (s : State) (c : Nat) (code : BitVec 8) (k : BitVec 3) (u : Nat) (v : Word) : (s.raise c code k u v).tlb2 = s.tlb2 := rfl
@[simp] theorem State.raise_supd (s : State) (c : Nat) (code : BitVec 8) (k : BitVec 3) (u : Nat) (v : Word) : (s.raise c code k u v).supd = s.supd := rfl
@[simp] theorem State.raise_chains (s : State) (c : Nat) (code : BitVec 8) (k : BitVec 3) (u : Nat) (v : Word) : (s.raise c code k u v).chains = s.chains := rfl
@[simp] theorem State.raise_journal (s : State) (c : Nat) (code : BitVec 8) (k : BitVec 3) (u : Nat) (v : Word) : (s.raise c code k u v).journal = s.journal := rfl
@[simp] theorem State.raise_regions (s : State) (c : Nat) (code : BitVec 8) (k : BitVec 3) (u : Nat) (v : Word) : (s.raise c code k u v).regions = s.regions := rfl
@[simp] theorem State.raise_moves (s : State) (c : Nat) (code : BitVec 8) (k : BitVec 3) (u : Nat) (v : Word) : (s.raise c code k u v).moves = s.moves := rfl
@[simp] theorem State.raise_queues (s : State) (c : Nat) (code : BitVec 8) (k : BitVec 3) (u : Nat) (v : Word) : (s.raise c code k u v).queues = s.queues := rfl
@[simp] theorem State.raise_slots (s : State) (c : Nat) (code : BitVec 8) (k : BitVec 3) (u : Nat) (v : Word) : (s.raise c code k u v).slots = s.slots := rfl
@[simp] theorem State.raise_kicked (s : State) (c : Nat) (code : BitVec 8) (k : BitVec 3) (u : Nat) (v : Word) : (s.raise c code k u v).kicked = s.kicked := rfl
@[simp] theorem State.raise_droppedKicks (s : State) (c : Nat) (code : BitVec 8) (k : BitVec 3) (u : Nat) (v : Word) : (s.raise c code k u v).droppedKicks = s.droppedKicks := rfl
@[simp] theorem State.raise_qcbWrites (s : State) (c : Nat) (code : BitVec 8) (k : BitVec 3) (u : Nat) (v : Word) : (s.raise c code k u v).qcbWrites = s.qcbWrites := rfl
@[simp] theorem State.raise_input (s : State) (c : Nat) (code : BitVec 8) (k : BitVec 3) (u : Nat) (v : Word) : (s.raise c code k u v).input = s.input := rfl
@[simp] theorem State.raise_launches (s : State) (c : Nat) (code : BitVec 8) (k : BitVec 3) (u : Nat) (v : Word) : (s.raise c code k u v).launches = s.launches := rfl
@[simp] theorem State.raise_nextLaunch (s : State) (c : Nat) (code : BitVec 8) (k : BitVec 3) (u : Nat) (v : Word) : (s.raise c code k u v).nextLaunch = s.nextLaunch := rfl
@[simp] theorem State.raise_saves (s : State) (c : Nat) (code : BitVec 8) (k : BitVec 3) (u : Nat) (v : Word) : (s.raise c code k u v).saves = s.saves := rfl
@[simp] theorem State.raise_ctag (s : State) (c : Nat) (code : BitVec 8) (k : BitVec 3) (u : Nat) (v : Word) : (s.raise c code k u v).ctag = s.ctag := rfl
@[simp] theorem State.raise_btag (s : State) (c : Nat) (code : BitVec 8) (k : BitVec 3) (u : Nat) (v : Word) : (s.raise c code k u v).btag = s.btag := rfl
@[simp] theorem State.raise_reserve (s : State) (c : Nat) (code : BitVec 8) (k : BitVec 3) (u : Nat) (v : Word) : (s.raise c code k u v).reserve = s.reserve := rfl
@[simp] theorem State.raise_permit (s : State) (c : Nat) (code : BitVec 8) (k : BitVec 3) (u : Nat) (v : Word) : (s.raise c code k u v).permit = s.permit := rfl
@[simp] theorem State.raise_corePart (s : State) (c : Nat) (code : BitVec 8) (k : BitVec 3) (u : Nat) (v : Word) : (s.raise c code k u v).corePart = s.corePart := rfl
@[simp] theorem State.raise_bankPart (s : State) (c : Nat) (code : BitVec 8) (k : BitVec 3) (u : Nat) (v : Word) : (s.raise c code k u v).bankPart = s.bankPart := rfl
@[simp] theorem State.raise_unowned (s : State) (c : Nat) (code : BitVec 8) (k : BitVec 3) (u : Nat) (v : Word) : (s.raise c code k u v).unowned = s.unowned := rfl
@[simp] theorem State.raise_retired (s : State) (c : Nat) (code : BitVec 8) (k : BitVec 3) (u : Nat) (v : Word) : (s.raise c code k u v).retired = s.retired := rfl
@[simp] theorem State.raise_lasting (s : State) (c : Nat) (code : BitVec 8) (k : BitVec 3) (u : Nat) (v : Word) : (s.raise c code k u v).lasting = s.lasting := rfl
@[simp] theorem State.raise_pot (s : State) (c : Nat) (code : BitVec 8) (k : BitVec 3) (u : Nat) (v : Word) : (s.raise c code k u v).pot = s.pot := rfl
@[simp] theorem State.raise_mr (s : State) (c : Nat) (code : BitVec 8) (k : BitVec 3) (u : Nat) (v : Word) : (s.raise c code k u v).mr = s.mr := rfl
@[simp] theorem State.raise_sleepKey (s : State) (c : Nat) (code : BitVec 8) (k : BitVec 3) (u : Nat) (v : Word) : (s.raise c code k u v).sleepKey = s.sleepKey := rfl
@[simp] theorem State.raise_draws (s : State) (c : Nat) (code : BitVec 8) (k : BitVec 3) (u : Nat) (v : Word) : (s.raise c code k u v).draws = s.draws := rfl
@[simp] theorem State.raise_checks (s : State) (c : Nat) (code : BitVec 8) (k : BitVec 3) (u : Nat) (v : Word) : (s.raise c code k u v).checks = s.checks := rfl
@[simp] theorem State.raise_nextCheck (s : State) (c : Nat) (code : BitVec 8) (k : BitVec 3) (u : Nat) (v : Word) : (s.raise c code k u v).nextCheck = s.nextCheck := rfl
@[simp] theorem State.raise_spdm (s : State) (c : Nat) (code : BitVec 8) (k : BitVec 3) (u : Nat) (v : Word) : (s.raise c code k u v).spdm = s.spdm := rfl
@[simp] theorem State.raise_inbox (s : State) (c : Nat) (code : BitVec 8) (k : BitVec 3) (u : Nat) (v : Word) : (s.raise c code k u v).inbox = s.inbox := rfl
@[simp] theorem State.raise_outbox (s : State) (c : Nat) (code : BitVec 8) (k : BitVec 3) (u : Nat) (v : Word) : (s.raise c code k u v).outbox = s.outbox := rfl
@[simp] theorem State.raise_connections (s : State) (c : Nat) (code : BitVec 8) (k : BitVec 3) (u : Nat) (v : Word) : (s.raise c code k u v).connections = s.connections := rfl
@[simp] theorem State.raise_softErrors (s : State) (c : Nat) (code : BitVec 8) (k : BitVec 3) (u : Nat) (v : Word) : (s.raise c code k u v).softErrors = s.softErrors := rfl
@[simp] theorem State.raise_softLimits (s : State) (c : Nat) (code : BitVec 8) (k : BitVec 3) (u : Nat) (v : Word) : (s.raise c code k u v).softLimits = s.softLimits := rfl
@[simp] theorem State.raise_hthr (s : State) (c : Nat) (code : BitVec 8) (k : BitVec 3) (u : Nat) (v : Word) : (s.raise c code k u v).hthr = s.hthr := rfl
@[simp] theorem State.raise_power (s : State) (c : Nat) (code : BitVec 8) (k : BitVec 3) (u : Nat) (v : Word) : (s.raise c code k u v).power = s.power := rfl
@[simp] theorem State.raise_ready (s : State) (c : Nat) (code : BitVec 8) (k : BitVec 3) (u : Nat) (v : Word) : (s.raise c code k u v).ready = s.ready := rfl
@[simp] theorem State.raise_dusk (s : State) (c : Nat) (code : BitVec 8) (k : BitVec 3) (u : Nat) (v : Word) : (s.raise c code k u v).dusk = s.dusk := rfl
@[simp] theorem State.raise_slow (s : State) (c : Nat) (code : BitVec 8) (k : BitVec 3) (u : Nat) (v : Word) : (s.raise c code k u v).slow = s.slow := rfl
@[simp] theorem State.raise_mcycle (s : State) (c : Nat) (code : BitVec 8) (k : BitVec 3) (u : Nat) (v : Word) : (s.raise c code k u v).mcycle = s.mcycle := rfl
@[simp] theorem State.raise_paths (s : State) (c : Nat) (code : BitVec 8) (k : BitVec 3) (u : Nat) (v : Word) : (s.raise c code k u v).paths = s.paths := rfl
@[simp] theorem State.raise_agenda (s : State) (c : Nat) (code : BitVec 8) (k : BitVec 3) (u : Nat) (v : Word) : (s.raise c code k u v).agenda = s.agenda := rfl
@[simp] theorem State.raise_cur (s : State) (c : Nat) (code : BitVec 8) (k : BitVec 3) (u : Nat) (v : Word) : (s.raise c code k u v).cur = s.cur := rfl
@[simp] theorem State.raise_tick (s : State) (c : Nat) (code : BitVec 8) (k : BitVec 3) (u : Nat) (v : Word) : (s.raise c code k u v).tick = s.tick := rfl

@[simp] theorem State.send_variant (s : State) (a b : Nat) (k : NetKind) : (s.send a b k).variant = s.variant := rfl
@[simp] theorem State.send_mem (s : State) (a b : Nat) (k : NetKind) : (s.send a b k).mem = s.mem := rfl
@[simp] theorem State.send_cores (s : State) (a b : Nat) (k : NetKind) : (s.send a b k).cores = s.cores := rfl
@[simp] theorem State.send_ctxs (s : State) (a b : Nat) (k : NetKind) : (s.send a b k).ctxs = s.ctxs := rfl
@[simp] theorem State.send_flights (s : State) (a b : Nat) (k : NetKind) : (s.send a b k).flights = s.flights := rfl
@[simp] theorem State.send_credits (s : State) (a b : Nat) (k : NetKind) : (s.send a b k).credits = s.credits := rfl
@[simp] theorem State.send_tlb2 (s : State) (a b : Nat) (k : NetKind) : (s.send a b k).tlb2 = s.tlb2 := rfl
@[simp] theorem State.send_supd (s : State) (a b : Nat) (k : NetKind) : (s.send a b k).supd = s.supd := rfl
@[simp] theorem State.send_chains (s : State) (a b : Nat) (k : NetKind) : (s.send a b k).chains = s.chains := rfl
@[simp] theorem State.send_journal (s : State) (a b : Nat) (k : NetKind) : (s.send a b k).journal = s.journal := rfl
@[simp] theorem State.send_regions (s : State) (a b : Nat) (k : NetKind) : (s.send a b k).regions = s.regions := rfl
@[simp] theorem State.send_moves (s : State) (a b : Nat) (k : NetKind) : (s.send a b k).moves = s.moves := rfl
@[simp] theorem State.send_queues (s : State) (a b : Nat) (k : NetKind) : (s.send a b k).queues = s.queues := rfl
@[simp] theorem State.send_slots (s : State) (a b : Nat) (k : NetKind) : (s.send a b k).slots = s.slots := rfl
@[simp] theorem State.send_kicked (s : State) (a b : Nat) (k : NetKind) : (s.send a b k).kicked = s.kicked := rfl
@[simp] theorem State.send_droppedKicks (s : State) (a b : Nat) (k : NetKind) : (s.send a b k).droppedKicks = s.droppedKicks := rfl
@[simp] theorem State.send_qcbWrites (s : State) (a b : Nat) (k : NetKind) : (s.send a b k).qcbWrites = s.qcbWrites := rfl
@[simp] theorem State.send_input (s : State) (a b : Nat) (k : NetKind) : (s.send a b k).input = s.input := rfl
@[simp] theorem State.send_launches (s : State) (a b : Nat) (k : NetKind) : (s.send a b k).launches = s.launches := rfl
@[simp] theorem State.send_nextLaunch (s : State) (a b : Nat) (k : NetKind) : (s.send a b k).nextLaunch = s.nextLaunch := rfl
@[simp] theorem State.send_saves (s : State) (a b : Nat) (k : NetKind) : (s.send a b k).saves = s.saves := rfl
@[simp] theorem State.send_ctag (s : State) (a b : Nat) (k : NetKind) : (s.send a b k).ctag = s.ctag := rfl
@[simp] theorem State.send_btag (s : State) (a b : Nat) (k : NetKind) : (s.send a b k).btag = s.btag := rfl
@[simp] theorem State.send_reserve (s : State) (a b : Nat) (k : NetKind) : (s.send a b k).reserve = s.reserve := rfl
@[simp] theorem State.send_permit (s : State) (a b : Nat) (k : NetKind) : (s.send a b k).permit = s.permit := rfl
@[simp] theorem State.send_corePart (s : State) (a b : Nat) (k : NetKind) : (s.send a b k).corePart = s.corePart := rfl
@[simp] theorem State.send_bankPart (s : State) (a b : Nat) (k : NetKind) : (s.send a b k).bankPart = s.bankPart := rfl
@[simp] theorem State.send_unowned (s : State) (a b : Nat) (k : NetKind) : (s.send a b k).unowned = s.unowned := rfl
@[simp] theorem State.send_retired (s : State) (a b : Nat) (k : NetKind) : (s.send a b k).retired = s.retired := rfl
@[simp] theorem State.send_lasting (s : State) (a b : Nat) (k : NetKind) : (s.send a b k).lasting = s.lasting := rfl
@[simp] theorem State.send_pot (s : State) (a b : Nat) (k : NetKind) : (s.send a b k).pot = s.pot := rfl
@[simp] theorem State.send_mr (s : State) (a b : Nat) (k : NetKind) : (s.send a b k).mr = s.mr := rfl
@[simp] theorem State.send_sleepKey (s : State) (a b : Nat) (k : NetKind) : (s.send a b k).sleepKey = s.sleepKey := rfl
@[simp] theorem State.send_draws (s : State) (a b : Nat) (k : NetKind) : (s.send a b k).draws = s.draws := rfl
@[simp] theorem State.send_checks (s : State) (a b : Nat) (k : NetKind) : (s.send a b k).checks = s.checks := rfl
@[simp] theorem State.send_nextCheck (s : State) (a b : Nat) (k : NetKind) : (s.send a b k).nextCheck = s.nextCheck := rfl
@[simp] theorem State.send_spdm (s : State) (a b : Nat) (k : NetKind) : (s.send a b k).spdm = s.spdm := rfl
@[simp] theorem State.send_inbox (s : State) (a b : Nat) (k : NetKind) : (s.send a b k).inbox = s.inbox := rfl
@[simp] theorem State.send_outbox (s : State) (a b : Nat) (k : NetKind) : (s.send a b k).outbox = s.outbox := rfl
@[simp] theorem State.send_connections (s : State) (a b : Nat) (k : NetKind) : (s.send a b k).connections = s.connections := rfl
@[simp] theorem State.send_softErrors (s : State) (a b : Nat) (k : NetKind) : (s.send a b k).softErrors = s.softErrors := rfl
@[simp] theorem State.send_softLimits (s : State) (a b : Nat) (k : NetKind) : (s.send a b k).softLimits = s.softLimits := rfl
@[simp] theorem State.send_hthr (s : State) (a b : Nat) (k : NetKind) : (s.send a b k).hthr = s.hthr := rfl
@[simp] theorem State.send_power (s : State) (a b : Nat) (k : NetKind) : (s.send a b k).power = s.power := rfl
@[simp] theorem State.send_ready (s : State) (a b : Nat) (k : NetKind) : (s.send a b k).ready = s.ready := rfl
@[simp] theorem State.send_dusk (s : State) (a b : Nat) (k : NetKind) : (s.send a b k).dusk = s.dusk := rfl
@[simp] theorem State.send_slow (s : State) (a b : Nat) (k : NetKind) : (s.send a b k).slow = s.slow := rfl
@[simp] theorem State.send_mcycle (s : State) (a b : Nat) (k : NetKind) : (s.send a b k).mcycle = s.mcycle := rfl
@[simp] theorem State.send_paths (s : State) (a b : Nat) (k : NetKind) : (s.send a b k).paths = s.paths := rfl
@[simp] theorem State.send_agenda (s : State) (a b : Nat) (k : NetKind) : (s.send a b k).agenda = s.agenda := rfl
@[simp] theorem State.send_cur (s : State) (a b : Nat) (k : NetKind) : (s.send a b k).cur = s.cur := rfl
@[simp] theorem State.send_tick (s : State) (a b : Nat) (k : NetKind) : (s.send a b k).tick = s.tick := rfl

@[simp] theorem State.emit_variant (s : State) (code : BitVec 8) (tag : BitVec 6) (st : BitVec 3) (c : Nat) (kind : BitVec 8) (d0 d1 : Word) : (s.emit code tag st c kind d0 d1).variant = s.variant := rfl
@[simp] theorem State.emit_mem (s : State) (code : BitVec 8) (tag : BitVec 6) (st : BitVec 3) (c : Nat) (kind : BitVec 8) (d0 d1 : Word) : (s.emit code tag st c kind d0 d1).mem = s.mem := rfl
@[simp] theorem State.emit_cores (s : State) (code : BitVec 8) (tag : BitVec 6) (st : BitVec 3) (c : Nat) (kind : BitVec 8) (d0 d1 : Word) : (s.emit code tag st c kind d0 d1).cores = s.cores := rfl
@[simp] theorem State.emit_ctxs (s : State) (code : BitVec 8) (tag : BitVec 6) (st : BitVec 3) (c : Nat) (kind : BitVec 8) (d0 d1 : Word) : (s.emit code tag st c kind d0 d1).ctxs = s.ctxs := rfl
@[simp] theorem State.emit_flights (s : State) (code : BitVec 8) (tag : BitVec 6) (st : BitVec 3) (c : Nat) (kind : BitVec 8) (d0 d1 : Word) : (s.emit code tag st c kind d0 d1).flights = s.flights := rfl
@[simp] theorem State.emit_net (s : State) (code : BitVec 8) (tag : BitVec 6) (st : BitVec 3) (c : Nat) (kind : BitVec 8) (d0 d1 : Word) : (s.emit code tag st c kind d0 d1).net = s.net := rfl
@[simp] theorem State.emit_credits (s : State) (code : BitVec 8) (tag : BitVec 6) (st : BitVec 3) (c : Nat) (kind : BitVec 8) (d0 d1 : Word) : (s.emit code tag st c kind d0 d1).credits = s.credits := rfl
@[simp] theorem State.emit_tlb2 (s : State) (code : BitVec 8) (tag : BitVec 6) (st : BitVec 3) (c : Nat) (kind : BitVec 8) (d0 d1 : Word) : (s.emit code tag st c kind d0 d1).tlb2 = s.tlb2 := rfl
@[simp] theorem State.emit_supd (s : State) (code : BitVec 8) (tag : BitVec 6) (st : BitVec 3) (c : Nat) (kind : BitVec 8) (d0 d1 : Word) : (s.emit code tag st c kind d0 d1).supd = s.supd := rfl
@[simp] theorem State.emit_chains (s : State) (code : BitVec 8) (tag : BitVec 6) (st : BitVec 3) (c : Nat) (kind : BitVec 8) (d0 d1 : Word) : (s.emit code tag st c kind d0 d1).chains = s.chains := rfl
@[simp] theorem State.emit_journal (s : State) (code : BitVec 8) (tag : BitVec 6) (st : BitVec 3) (c : Nat) (kind : BitVec 8) (d0 d1 : Word) : (s.emit code tag st c kind d0 d1).journal = s.journal := rfl
@[simp] theorem State.emit_regions (s : State) (code : BitVec 8) (tag : BitVec 6) (st : BitVec 3) (c : Nat) (kind : BitVec 8) (d0 d1 : Word) : (s.emit code tag st c kind d0 d1).regions = s.regions := rfl
@[simp] theorem State.emit_moves (s : State) (code : BitVec 8) (tag : BitVec 6) (st : BitVec 3) (c : Nat) (kind : BitVec 8) (d0 d1 : Word) : (s.emit code tag st c kind d0 d1).moves = s.moves := rfl
@[simp] theorem State.emit_queues (s : State) (code : BitVec 8) (tag : BitVec 6) (st : BitVec 3) (c : Nat) (kind : BitVec 8) (d0 d1 : Word) : (s.emit code tag st c kind d0 d1).queues = s.queues := rfl
@[simp] theorem State.emit_slots (s : State) (code : BitVec 8) (tag : BitVec 6) (st : BitVec 3) (c : Nat) (kind : BitVec 8) (d0 d1 : Word) : (s.emit code tag st c kind d0 d1).slots = s.slots := rfl
@[simp] theorem State.emit_kicked (s : State) (code : BitVec 8) (tag : BitVec 6) (st : BitVec 3) (c : Nat) (kind : BitVec 8) (d0 d1 : Word) : (s.emit code tag st c kind d0 d1).kicked = s.kicked := rfl
@[simp] theorem State.emit_droppedKicks (s : State) (code : BitVec 8) (tag : BitVec 6) (st : BitVec 3) (c : Nat) (kind : BitVec 8) (d0 d1 : Word) : (s.emit code tag st c kind d0 d1).droppedKicks = s.droppedKicks := rfl
@[simp] theorem State.emit_qcbWrites (s : State) (code : BitVec 8) (tag : BitVec 6) (st : BitVec 3) (c : Nat) (kind : BitVec 8) (d0 d1 : Word) : (s.emit code tag st c kind d0 d1).qcbWrites = s.qcbWrites := rfl
@[simp] theorem State.emit_input (s : State) (code : BitVec 8) (tag : BitVec 6) (st : BitVec 3) (c : Nat) (kind : BitVec 8) (d0 d1 : Word) : (s.emit code tag st c kind d0 d1).input = s.input := rfl
@[simp] theorem State.emit_launches (s : State) (code : BitVec 8) (tag : BitVec 6) (st : BitVec 3) (c : Nat) (kind : BitVec 8) (d0 d1 : Word) : (s.emit code tag st c kind d0 d1).launches = s.launches := rfl
@[simp] theorem State.emit_nextLaunch (s : State) (code : BitVec 8) (tag : BitVec 6) (st : BitVec 3) (c : Nat) (kind : BitVec 8) (d0 d1 : Word) : (s.emit code tag st c kind d0 d1).nextLaunch = s.nextLaunch := rfl
@[simp] theorem State.emit_saves (s : State) (code : BitVec 8) (tag : BitVec 6) (st : BitVec 3) (c : Nat) (kind : BitVec 8) (d0 d1 : Word) : (s.emit code tag st c kind d0 d1).saves = s.saves := rfl
@[simp] theorem State.emit_ctag (s : State) (code : BitVec 8) (tag : BitVec 6) (st : BitVec 3) (c : Nat) (kind : BitVec 8) (d0 d1 : Word) : (s.emit code tag st c kind d0 d1).ctag = s.ctag := rfl
@[simp] theorem State.emit_btag (s : State) (code : BitVec 8) (tag : BitVec 6) (st : BitVec 3) (c : Nat) (kind : BitVec 8) (d0 d1 : Word) : (s.emit code tag st c kind d0 d1).btag = s.btag := rfl
@[simp] theorem State.emit_reserve (s : State) (code : BitVec 8) (tag : BitVec 6) (st : BitVec 3) (c : Nat) (kind : BitVec 8) (d0 d1 : Word) : (s.emit code tag st c kind d0 d1).reserve = s.reserve := rfl
@[simp] theorem State.emit_permit (s : State) (code : BitVec 8) (tag : BitVec 6) (st : BitVec 3) (c : Nat) (kind : BitVec 8) (d0 d1 : Word) : (s.emit code tag st c kind d0 d1).permit = s.permit := rfl
@[simp] theorem State.emit_corePart (s : State) (code : BitVec 8) (tag : BitVec 6) (st : BitVec 3) (c : Nat) (kind : BitVec 8) (d0 d1 : Word) : (s.emit code tag st c kind d0 d1).corePart = s.corePart := rfl
@[simp] theorem State.emit_bankPart (s : State) (code : BitVec 8) (tag : BitVec 6) (st : BitVec 3) (c : Nat) (kind : BitVec 8) (d0 d1 : Word) : (s.emit code tag st c kind d0 d1).bankPart = s.bankPart := rfl
@[simp] theorem State.emit_unowned (s : State) (code : BitVec 8) (tag : BitVec 6) (st : BitVec 3) (c : Nat) (kind : BitVec 8) (d0 d1 : Word) : (s.emit code tag st c kind d0 d1).unowned = s.unowned := rfl
@[simp] theorem State.emit_retired (s : State) (code : BitVec 8) (tag : BitVec 6) (st : BitVec 3) (c : Nat) (kind : BitVec 8) (d0 d1 : Word) : (s.emit code tag st c kind d0 d1).retired = s.retired := rfl
@[simp] theorem State.emit_lasting (s : State) (code : BitVec 8) (tag : BitVec 6) (st : BitVec 3) (c : Nat) (kind : BitVec 8) (d0 d1 : Word) : (s.emit code tag st c kind d0 d1).lasting = s.lasting := rfl
@[simp] theorem State.emit_pot (s : State) (code : BitVec 8) (tag : BitVec 6) (st : BitVec 3) (c : Nat) (kind : BitVec 8) (d0 d1 : Word) : (s.emit code tag st c kind d0 d1).pot = s.pot := rfl
@[simp] theorem State.emit_mr (s : State) (code : BitVec 8) (tag : BitVec 6) (st : BitVec 3) (c : Nat) (kind : BitVec 8) (d0 d1 : Word) : (s.emit code tag st c kind d0 d1).mr = s.mr := rfl
@[simp] theorem State.emit_sleepKey (s : State) (code : BitVec 8) (tag : BitVec 6) (st : BitVec 3) (c : Nat) (kind : BitVec 8) (d0 d1 : Word) : (s.emit code tag st c kind d0 d1).sleepKey = s.sleepKey := rfl
@[simp] theorem State.emit_draws (s : State) (code : BitVec 8) (tag : BitVec 6) (st : BitVec 3) (c : Nat) (kind : BitVec 8) (d0 d1 : Word) : (s.emit code tag st c kind d0 d1).draws = s.draws := rfl
@[simp] theorem State.emit_checks (s : State) (code : BitVec 8) (tag : BitVec 6) (st : BitVec 3) (c : Nat) (kind : BitVec 8) (d0 d1 : Word) : (s.emit code tag st c kind d0 d1).checks = s.checks := rfl
@[simp] theorem State.emit_nextCheck (s : State) (code : BitVec 8) (tag : BitVec 6) (st : BitVec 3) (c : Nat) (kind : BitVec 8) (d0 d1 : Word) : (s.emit code tag st c kind d0 d1).nextCheck = s.nextCheck := rfl
@[simp] theorem State.emit_spdm (s : State) (code : BitVec 8) (tag : BitVec 6) (st : BitVec 3) (c : Nat) (kind : BitVec 8) (d0 d1 : Word) : (s.emit code tag st c kind d0 d1).spdm = s.spdm := rfl
@[simp] theorem State.emit_inbox (s : State) (code : BitVec 8) (tag : BitVec 6) (st : BitVec 3) (c : Nat) (kind : BitVec 8) (d0 d1 : Word) : (s.emit code tag st c kind d0 d1).inbox = s.inbox := rfl
@[simp] theorem State.emit_connections (s : State) (code : BitVec 8) (tag : BitVec 6) (st : BitVec 3) (c : Nat) (kind : BitVec 8) (d0 d1 : Word) : (s.emit code tag st c kind d0 d1).connections = s.connections := rfl
@[simp] theorem State.emit_softErrors (s : State) (code : BitVec 8) (tag : BitVec 6) (st : BitVec 3) (c : Nat) (kind : BitVec 8) (d0 d1 : Word) : (s.emit code tag st c kind d0 d1).softErrors = s.softErrors := rfl
@[simp] theorem State.emit_softLimits (s : State) (code : BitVec 8) (tag : BitVec 6) (st : BitVec 3) (c : Nat) (kind : BitVec 8) (d0 d1 : Word) : (s.emit code tag st c kind d0 d1).softLimits = s.softLimits := rfl
@[simp] theorem State.emit_hthr (s : State) (code : BitVec 8) (tag : BitVec 6) (st : BitVec 3) (c : Nat) (kind : BitVec 8) (d0 d1 : Word) : (s.emit code tag st c kind d0 d1).hthr = s.hthr := rfl
@[simp] theorem State.emit_power (s : State) (code : BitVec 8) (tag : BitVec 6) (st : BitVec 3) (c : Nat) (kind : BitVec 8) (d0 d1 : Word) : (s.emit code tag st c kind d0 d1).power = s.power := rfl
@[simp] theorem State.emit_ready (s : State) (code : BitVec 8) (tag : BitVec 6) (st : BitVec 3) (c : Nat) (kind : BitVec 8) (d0 d1 : Word) : (s.emit code tag st c kind d0 d1).ready = s.ready := rfl
@[simp] theorem State.emit_dusk (s : State) (code : BitVec 8) (tag : BitVec 6) (st : BitVec 3) (c : Nat) (kind : BitVec 8) (d0 d1 : Word) : (s.emit code tag st c kind d0 d1).dusk = s.dusk := rfl
@[simp] theorem State.emit_slow (s : State) (code : BitVec 8) (tag : BitVec 6) (st : BitVec 3) (c : Nat) (kind : BitVec 8) (d0 d1 : Word) : (s.emit code tag st c kind d0 d1).slow = s.slow := rfl
@[simp] theorem State.emit_mcycle (s : State) (code : BitVec 8) (tag : BitVec 6) (st : BitVec 3) (c : Nat) (kind : BitVec 8) (d0 d1 : Word) : (s.emit code tag st c kind d0 d1).mcycle = s.mcycle := rfl
@[simp] theorem State.emit_paths (s : State) (code : BitVec 8) (tag : BitVec 6) (st : BitVec 3) (c : Nat) (kind : BitVec 8) (d0 d1 : Word) : (s.emit code tag st c kind d0 d1).paths = s.paths := rfl
@[simp] theorem State.emit_agenda (s : State) (code : BitVec 8) (tag : BitVec 6) (st : BitVec 3) (c : Nat) (kind : BitVec 8) (d0 d1 : Word) : (s.emit code tag st c kind d0 d1).agenda = s.agenda := rfl
@[simp] theorem State.emit_cur (s : State) (code : BitVec 8) (tag : BitVec 6) (st : BitVec 3) (c : Nat) (kind : BitVec 8) (d0 d1 : Word) : (s.emit code tag st c kind d0 d1).cur = s.cur := rfl
@[simp] theorem State.emit_tick (s : State) (code : BitVec 8) (tag : BitVec 6) (st : BitVec 3) (c : Nat) (kind : BitVec 8) (d0 d1 : Word) : (s.emit code tag st c kind d0 d1).tick = s.tick := rfl

/-! ### A core of an updated state -/

theorem State.core_setCore (s : State) (c d : Nat) (k : Core) : (s.setCore c k).core d = if d = c then k else s.core d := by
  unfold State.setCore State.core
  simp only
  induction s.cores with
  | nil => simp only [Sparse.put, Sparse.get]; grind
  | cons e m ih => obtain ⟨i, u⟩ := e; simp only [Sparse.put]; grind [Sparse.get]

@[simp] theorem State.core_setCore_self (s : State) (c : Nat) (k : Core) : (s.setCore c k).core c = k := by
  rw [State.core_setCore, if_pos rfl]

theorem State.core_onCore (s : State) (c d : Nat) (f : Core → Core) :
    (s.onCore c f).core d = if d = c then f (s.core c) else s.core d := State.core_setCore ..

@[simp] theorem State.core_onCore_self (s : State) (c : Nat) (f : Core → Core) : (s.onCore c f).core c = f (s.core c) :=
  State.core_setCore_self ..

@[simp] theorem State.here_on (s : State) (f : Core → Core) : (s.on f).here = f s.here := State.core_setCore_self ..

/-- The core that takes the turn, after it was changed. -/
@[simp] theorem State.core_on_cur (s : State) (f : Core → Core) : (s.on f).core s.cur.core = f (s.core s.cur.core) :=
  State.core_setCore_self ..

theorem State.core_on_other (s : State) (f : Core → Core) {d : Nat} (h : d ≠ s.cur.core) : (s.on f).core d = s.core d := by
  unfold State.on; rw [State.core_onCore, if_neg h]

@[simp] theorem State.core_onCtx (s : State) (t : BitVec 6) (f : Context → Context) (d : Nat) : (s.onCtx t f).core d = s.core d := rfl

@[simp] theorem State.core_send (s : State) (a b : Nat) (k : NetKind) (d : Nat) : (s.send a b k).core d = s.core d := rfl

@[simp] theorem State.core_emit (s : State) (code : BitVec 8) (tag : BitVec 6) (st : BitVec 3) (c : Nat) (kind : BitVec 8)
    (d0 d1 : Word) (d : Nat) : (s.emit code tag st c kind d0 d1).core d = s.core d := rfl

/-- Two changes of one core are one change. -/
theorem Sparse.put_put {α : Type} (m : Sparse α) (k : Nat) (u v : α) : Sparse.put (Sparse.put m k u) k v = Sparse.put m k v := by
  induction m with
  | nil => simp [Sparse.put]
  | cons e m ih => obtain ⟨i, w⟩ := e; simp only [Sparse.put]; grind [Sparse.put]

theorem State.setCore_setCore (s : State) (c : Nat) (k l : Core) : (s.setCore c k).setCore c l = s.setCore c l := by
  simp only [State.setCore, Sparse.put_put]

theorem State.on_on (s : State) (f g : Core → Core) : (s.on f).on g = s.on fun c => g (f c) := by
  simp only [State.on, State.onCore, State.setCore_cur, State.core_setCore_self, State.setCore_setCore]

/-! ### Registers -/

@[simp] theorem Core.reg_zero (c : Core) : c.reg 0 = 0 := rfl

@[simp] theorem Core.pred_zero (c : Core) : c.pred 0 = true := rfl

@[simp] theorem Core.setReg_zero (c : Core) (v : Word) : c.setReg 0 v = c := rfl

@[simp] theorem Core.setPred_zero (c : Core) (v : Bool) : c.setPred 0 v = c := rfl

theorem Core.reg_setReg (c : Core) (d r : SReg) (v : Word) :
    (c.setReg d v).reg r = if r = d ∧ d ≠ 0 then v else c.reg r := by
  by_cases hd : d = 0
  · rw [if_neg (by grind), hd]; rfl
  · have e : (c.setReg d v).regs = c.regs.set d.toNat v := by unfold Core.setReg; rw [if_neg hd]
    unfold Core.reg
    rw [e, Vector.getElem_set]
    by_cases h : r = d
    · subst h; rw [if_neg hd, if_pos rfl, if_pos ⟨rfl, hd⟩]
    · have n1 : ¬d.toNat = r.toNat := fun x => h (BitVec.eq_of_toNat_eq x.symm)
      have n2 : ¬(r = d ∧ d ≠ 0) := fun x => h x.1
      rw [if_neg n1, if_neg n2]

theorem Core.pred_setPred (c : Core) (d p : PReg) (v : Bool) :
    (c.setPred d v).pred p = if p = d ∧ d ≠ 0 then v else c.pred p := by
  by_cases hd : d = 0
  · rw [if_neg (by grind), hd]; rfl
  · have e : (c.setPred d v).preds = c.preds.set d.toNat v := by unfold Core.setPred; rw [if_neg hd]
    unfold Core.pred
    rw [e, Vector.getElem_set]
    by_cases h : p = d
    · subst h; rw [if_neg hd, if_pos rfl, if_pos ⟨rfl, hd⟩]
    · have n1 : ¬d.toNat = p.toNat := fun x => h (BitVec.eq_of_toNat_eq x.symm)
      have n2 : ¬(p = d ∧ d ≠ 0) := fun x => h x.1
      rw [if_neg n1, if_neg n2]

@[simp] theorem Core.setReg_preds (c : Core) (d : SReg) (v : Word) : (c.setReg d v).preds = c.preds := by unfold Core.setReg; split <;> rfl
@[simp] theorem Core.setReg_loops (c : Core) (d : SReg) (v : Word) : (c.setReg d v).loops = c.loops := by unfold Core.setReg; split <;> rfl
@[simp] theorem Core.setReg_pc (c : Core) (d : SReg) (v : Word) : (c.setReg d v).pc = c.pc := by unfold Core.setReg; split <;> rfl
@[simp] theorem Core.setReg_tvec (c : Core) (d : SReg) (v : Word) : (c.setReg d v).tvec = c.tvec := by unfold Core.setReg; split <;> rfl
@[simp] theorem Core.setReg_epc (c : Core) (d : SReg) (v : Word) : (c.setReg d v).epc = c.epc := by unfold Core.setReg; split <;> rfl
@[simp] theorem Core.setReg_tcause (c : Core) (d : SReg) (v : Word) : (c.setReg d v).tcause = c.tcause := by unfold Core.setReg; split <;> rfl
@[simp] theorem Core.setReg_tval (c : Core) (d : SReg) (v : Word) : (c.setReg d v).tval = c.tval := by unfold Core.setReg; split <;> rfl
@[simp] theorem Core.setReg_ovf (c : Core) (d : SReg) (v : Word) : (c.setReg d v).ovf = c.ovf := by unfold Core.setReg; split <;> rfl
@[simp] theorem Core.setReg_tin (c : Core) (d : SReg) (v : Word) : (c.setReg d v).tin = c.tin := by unfold Core.setReg; split <;> rfl
@[simp] theorem Core.setReg_plvl (c : Core) (d : SReg) (v : Word) : (c.setReg d v).plvl = c.plvl := by unfold Core.setReg; split <;> rfl
@[simp] theorem Core.setReg_lvl (c : Core) (d : SReg) (v : Word) : (c.setReg d v).lvl = c.lvl := by unfold Core.setReg; split <;> rfl
@[simp] theorem Core.setReg_faults (c : Core) (d : SReg) (v : Word) : (c.setReg d v).faults = c.faults := by unfold Core.setReg; split <;> rfl
@[simp] theorem Core.setReg_regionOrg (c : Core) (d : SReg) (v : Word) : (c.setReg d v).regionOrg = c.regionOrg := by unfold Core.setReg; split <;> rfl
@[simp] theorem Core.setReg_regionExt (c : Core) (d : SReg) (v : Word) : (c.setReg d v).regionExt = c.regionExt := by unfold Core.setReg; split <;> rfl
@[simp] theorem Core.setReg_ctxTag (c : Core) (d : SReg) (v : Word) : (c.setReg d v).ctxTag = c.ctxTag := by unfold Core.setReg; split <;> rfl
@[simp] theorem Core.setReg_ctxPart (c : Core) (d : SReg) (v : Word) : (c.setReg d v).ctxPart = c.ctxPart := by unfold Core.setReg; split <;> rfl
@[simp] theorem Core.setReg_cycle (c : Core) (d : SReg) (v : Word) : (c.setReg d v).cycle = c.cycle := by unfold Core.setReg; split <;> rfl
@[simp] theorem Core.setReg_seedLo (c : Core) (d : SReg) (v : Word) : (c.setReg d v).seedLo = c.seedLo := by unfold Core.setReg; split <;> rfl
@[simp] theorem Core.setReg_seedHi (c : Core) (d : SReg) (v : Word) : (c.setReg d v).seedHi = c.seedHi := by unfold Core.setReg; split <;> rfl
@[simp] theorem Core.setReg_org (c : Core) (d : SReg) (v : Word) : (c.setReg d v).org = c.org := by unfold Core.setReg; split <;> rfl
@[simp] theorem Core.setReg_cntSel (c : Core) (d : SReg) (v : Word) : (c.setReg d v).cntSel = c.cntSel := by unfold Core.setReg; split <;> rfl
@[simp] theorem Core.setReg_cntEvent (c : Core) (d : SReg) (v : Word) : (c.setReg d v).cntEvent = c.cntEvent := by unfold Core.setReg; split <;> rfl
@[simp] theorem Core.setReg_cntEn (c : Core) (d : SReg) (v : Word) : (c.setReg d v).cntEn = c.cntEn := by unfold Core.setReg; split <;> rfl
@[simp] theorem Core.setReg_cnt (c : Core) (d : SReg) (v : Word) : (c.setReg d v).cnt = c.cnt := by unfold Core.setReg; split <;> rfl
@[simp] theorem Core.setReg_event (c : Core) (d : SReg) (v : Word) : (c.setReg d v).event = c.event := by unfold Core.setReg; split <;> rfl
@[simp] theorem Core.setReg_accesses (c : Core) (d : SReg) (v : Word) : (c.setReg d v).accesses = c.accesses := by unfold Core.setReg; split <;> rfl
@[simp] theorem Core.setReg_nextId (c : Core) (d : SReg) (v : Word) : (c.setReg d v).nextId = c.nextId := by unfold Core.setReg; split <;> rfl
@[simp] theorem Core.setReg_awaited (c : Core) (d : SReg) (v : Word) : (c.setReg d v).awaited = c.awaited := by unfold Core.setReg; split <;> rfl
@[simp] theorem Core.setReg_wait (c : Core) (d : SReg) (v : Word) : (c.setReg d v).wait = c.wait := by unfold Core.setReg; split <;> rfl
@[simp] theorem Core.setReg_run (c : Core) (d : SReg) (v : Word) : (c.setReg d v).run = c.run := by unfold Core.setReg; split <;> rfl
@[simp] theorem Core.setReg_endAsked (c : Core) (d : SReg) (v : Word) : (c.setReg d v).endAsked = c.endAsked := by unfold Core.setReg; split <;> rfl
@[simp] theorem Core.setReg_scratch (c : Core) (d : SReg) (v : Word) : (c.setReg d v).scratch = c.scratch := by unfold Core.setReg; split <;> rfl
@[simp] theorem Core.setReg_icache (c : Core) (d : SReg) (v : Word) : (c.setReg d v).icache = c.icache := by unfold Core.setReg; split <;> rfl
@[simp] theorem Core.setReg_prefetch (c : Core) (d : SReg) (v : Word) : (c.setReg d v).prefetch = c.prefetch := by unfold Core.setReg; split <;> rfl
@[simp] theorem Core.setReg_tlb (c : Core) (d : SReg) (v : Word) : (c.setReg d v).tlb = c.tlb := by unfold Core.setReg; split <;> rfl
@[simp] theorem Core.setReg_bars (c : Core) (d : SReg) (v : Word) : (c.setReg d v).bars = c.bars := by unfold Core.setReg; split <;> rfl
@[simp] theorem Core.setReg_shapes (c : Core) (d : SReg) (v : Word) : (c.setReg d v).shapes = c.shapes := by unfold Core.setReg; split <;> rfl
@[simp] theorem Core.setReg_engines (c : Core) (d : SReg) (v : Word) : (c.setReg d v).engines = c.engines := by unfold Core.setReg; split <;> rfl
@[simp] theorem Core.setReg_elems (c : Core) (d : SReg) (v : Word) : (c.setReg d v).elems = c.elems := by unfold Core.setReg; split <;> rfl
@[simp] theorem Core.setReg_cfg (c : Core) (d : SReg) (v : Word) : (c.setReg d v).cfg = c.cfg := by unfold Core.setReg; split <;> rfl
@[simp] theorem Core.setReg_permits (c : Core) (d : SReg) (v : Word) : (c.setReg d v).permits = c.permits := by unfold Core.setReg; split <;> rfl
@[simp] theorem Core.setReg_takePort (c : Core) (d : SReg) (v : Word) : (c.setReg d v).takePort = c.takePort := by unfold Core.setReg; split <;> rfl
@[simp] theorem Core.setReg_pools (c : Core) (d : SReg) (v : Word) : (c.setReg d v).pools = c.pools := by unfold Core.setReg; split <;> rfl
@[simp] theorem Core.setReg_banks (c : Core) (d : SReg) (v : Word) : (c.setReg d v).banks = c.banks := by unfold Core.setReg; split <;> rfl
@[simp] theorem Core.setReg_sram (c : Core) (d : SReg) (v : Word) : (c.setReg d v).sram = c.sram := by unfold Core.setReg; split <;> rfl
@[simp] theorem Core.setReg_sramTaint (c : Core) (d : SReg) (v : Word) : (c.setReg d v).sramTaint = c.sramTaint := by unfold Core.setReg; split <;> rfl
@[simp] theorem Core.setReg_router (c : Core) (d : SReg) (v : Word) : (c.setReg d v).router = c.router := by unfold Core.setReg; split <;> rfl
@[simp] theorem Core.setReg_waits (c : Core) (d : SReg) (v : Word) : (c.setReg d v).waits = c.waits := by unfold Core.setReg; split <;> rfl
@[simp] theorem Core.setReg_told (c : Core) (d : SReg) (v : Word) : (c.setReg d v).told = c.told := by unfold Core.setReg; split <;> rfl
@[simp] theorem Core.setReg_units (c : Core) (d : SReg) (v : Word) : (c.setReg d v).units = c.units := by unfold Core.setReg; split <;> rfl

@[simp] theorem Core.setPred_regs (c : Core) (d : PReg) (v : Bool) : (c.setPred d v).regs = c.regs := by unfold Core.setPred; split <;> rfl
@[simp] theorem Core.setPred_loops (c : Core) (d : PReg) (v : Bool) : (c.setPred d v).loops = c.loops := by unfold Core.setPred; split <;> rfl
@[simp] theorem Core.setPred_pc (c : Core) (d : PReg) (v : Bool) : (c.setPred d v).pc = c.pc := by unfold Core.setPred; split <;> rfl
@[simp] theorem Core.setPred_tvec (c : Core) (d : PReg) (v : Bool) : (c.setPred d v).tvec = c.tvec := by unfold Core.setPred; split <;> rfl
@[simp] theorem Core.setPred_epc (c : Core) (d : PReg) (v : Bool) : (c.setPred d v).epc = c.epc := by unfold Core.setPred; split <;> rfl
@[simp] theorem Core.setPred_tcause (c : Core) (d : PReg) (v : Bool) : (c.setPred d v).tcause = c.tcause := by unfold Core.setPred; split <;> rfl
@[simp] theorem Core.setPred_tval (c : Core) (d : PReg) (v : Bool) : (c.setPred d v).tval = c.tval := by unfold Core.setPred; split <;> rfl
@[simp] theorem Core.setPred_ovf (c : Core) (d : PReg) (v : Bool) : (c.setPred d v).ovf = c.ovf := by unfold Core.setPred; split <;> rfl
@[simp] theorem Core.setPred_tin (c : Core) (d : PReg) (v : Bool) : (c.setPred d v).tin = c.tin := by unfold Core.setPred; split <;> rfl
@[simp] theorem Core.setPred_plvl (c : Core) (d : PReg) (v : Bool) : (c.setPred d v).plvl = c.plvl := by unfold Core.setPred; split <;> rfl
@[simp] theorem Core.setPred_lvl (c : Core) (d : PReg) (v : Bool) : (c.setPred d v).lvl = c.lvl := by unfold Core.setPred; split <;> rfl
@[simp] theorem Core.setPred_faults (c : Core) (d : PReg) (v : Bool) : (c.setPred d v).faults = c.faults := by unfold Core.setPred; split <;> rfl
@[simp] theorem Core.setPred_regionOrg (c : Core) (d : PReg) (v : Bool) : (c.setPred d v).regionOrg = c.regionOrg := by unfold Core.setPred; split <;> rfl
@[simp] theorem Core.setPred_regionExt (c : Core) (d : PReg) (v : Bool) : (c.setPred d v).regionExt = c.regionExt := by unfold Core.setPred; split <;> rfl
@[simp] theorem Core.setPred_ctxTag (c : Core) (d : PReg) (v : Bool) : (c.setPred d v).ctxTag = c.ctxTag := by unfold Core.setPred; split <;> rfl
@[simp] theorem Core.setPred_ctxPart (c : Core) (d : PReg) (v : Bool) : (c.setPred d v).ctxPart = c.ctxPart := by unfold Core.setPred; split <;> rfl
@[simp] theorem Core.setPred_cycle (c : Core) (d : PReg) (v : Bool) : (c.setPred d v).cycle = c.cycle := by unfold Core.setPred; split <;> rfl
@[simp] theorem Core.setPred_seedLo (c : Core) (d : PReg) (v : Bool) : (c.setPred d v).seedLo = c.seedLo := by unfold Core.setPred; split <;> rfl
@[simp] theorem Core.setPred_seedHi (c : Core) (d : PReg) (v : Bool) : (c.setPred d v).seedHi = c.seedHi := by unfold Core.setPred; split <;> rfl
@[simp] theorem Core.setPred_org (c : Core) (d : PReg) (v : Bool) : (c.setPred d v).org = c.org := by unfold Core.setPred; split <;> rfl
@[simp] theorem Core.setPred_cntSel (c : Core) (d : PReg) (v : Bool) : (c.setPred d v).cntSel = c.cntSel := by unfold Core.setPred; split <;> rfl
@[simp] theorem Core.setPred_cntEvent (c : Core) (d : PReg) (v : Bool) : (c.setPred d v).cntEvent = c.cntEvent := by unfold Core.setPred; split <;> rfl
@[simp] theorem Core.setPred_cntEn (c : Core) (d : PReg) (v : Bool) : (c.setPred d v).cntEn = c.cntEn := by unfold Core.setPred; split <;> rfl
@[simp] theorem Core.setPred_cnt (c : Core) (d : PReg) (v : Bool) : (c.setPred d v).cnt = c.cnt := by unfold Core.setPred; split <;> rfl
@[simp] theorem Core.setPred_event (c : Core) (d : PReg) (v : Bool) : (c.setPred d v).event = c.event := by unfold Core.setPred; split <;> rfl
@[simp] theorem Core.setPred_accesses (c : Core) (d : PReg) (v : Bool) : (c.setPred d v).accesses = c.accesses := by unfold Core.setPred; split <;> rfl
@[simp] theorem Core.setPred_nextId (c : Core) (d : PReg) (v : Bool) : (c.setPred d v).nextId = c.nextId := by unfold Core.setPred; split <;> rfl
@[simp] theorem Core.setPred_awaited (c : Core) (d : PReg) (v : Bool) : (c.setPred d v).awaited = c.awaited := by unfold Core.setPred; split <;> rfl
@[simp] theorem Core.setPred_wait (c : Core) (d : PReg) (v : Bool) : (c.setPred d v).wait = c.wait := by unfold Core.setPred; split <;> rfl
@[simp] theorem Core.setPred_run (c : Core) (d : PReg) (v : Bool) : (c.setPred d v).run = c.run := by unfold Core.setPred; split <;> rfl
@[simp] theorem Core.setPred_endAsked (c : Core) (d : PReg) (v : Bool) : (c.setPred d v).endAsked = c.endAsked := by unfold Core.setPred; split <;> rfl
@[simp] theorem Core.setPred_scratch (c : Core) (d : PReg) (v : Bool) : (c.setPred d v).scratch = c.scratch := by unfold Core.setPred; split <;> rfl
@[simp] theorem Core.setPred_icache (c : Core) (d : PReg) (v : Bool) : (c.setPred d v).icache = c.icache := by unfold Core.setPred; split <;> rfl
@[simp] theorem Core.setPred_prefetch (c : Core) (d : PReg) (v : Bool) : (c.setPred d v).prefetch = c.prefetch := by unfold Core.setPred; split <;> rfl
@[simp] theorem Core.setPred_tlb (c : Core) (d : PReg) (v : Bool) : (c.setPred d v).tlb = c.tlb := by unfold Core.setPred; split <;> rfl
@[simp] theorem Core.setPred_bars (c : Core) (d : PReg) (v : Bool) : (c.setPred d v).bars = c.bars := by unfold Core.setPred; split <;> rfl
@[simp] theorem Core.setPred_shapes (c : Core) (d : PReg) (v : Bool) : (c.setPred d v).shapes = c.shapes := by unfold Core.setPred; split <;> rfl
@[simp] theorem Core.setPred_engines (c : Core) (d : PReg) (v : Bool) : (c.setPred d v).engines = c.engines := by unfold Core.setPred; split <;> rfl
@[simp] theorem Core.setPred_elems (c : Core) (d : PReg) (v : Bool) : (c.setPred d v).elems = c.elems := by unfold Core.setPred; split <;> rfl
@[simp] theorem Core.setPred_cfg (c : Core) (d : PReg) (v : Bool) : (c.setPred d v).cfg = c.cfg := by unfold Core.setPred; split <;> rfl
@[simp] theorem Core.setPred_permits (c : Core) (d : PReg) (v : Bool) : (c.setPred d v).permits = c.permits := by unfold Core.setPred; split <;> rfl
@[simp] theorem Core.setPred_takePort (c : Core) (d : PReg) (v : Bool) : (c.setPred d v).takePort = c.takePort := by unfold Core.setPred; split <;> rfl
@[simp] theorem Core.setPred_pools (c : Core) (d : PReg) (v : Bool) : (c.setPred d v).pools = c.pools := by unfold Core.setPred; split <;> rfl
@[simp] theorem Core.setPred_banks (c : Core) (d : PReg) (v : Bool) : (c.setPred d v).banks = c.banks := by unfold Core.setPred; split <;> rfl
@[simp] theorem Core.setPred_sram (c : Core) (d : PReg) (v : Bool) : (c.setPred d v).sram = c.sram := by unfold Core.setPred; split <;> rfl
@[simp] theorem Core.setPred_sramTaint (c : Core) (d : PReg) (v : Bool) : (c.setPred d v).sramTaint = c.sramTaint := by unfold Core.setPred; split <;> rfl
@[simp] theorem Core.setPred_router (c : Core) (d : PReg) (v : Bool) : (c.setPred d v).router = c.router := by unfold Core.setPred; split <;> rfl
@[simp] theorem Core.setPred_waits (c : Core) (d : PReg) (v : Bool) : (c.setPred d v).waits = c.waits := by unfold Core.setPred; split <;> rfl
@[simp] theorem Core.setPred_told (c : Core) (d : PReg) (v : Bool) : (c.setPred d v).told = c.told := by unfold Core.setPred; split <;> rfl
@[simp] theorem Core.setPred_units (c : Core) (d : PReg) (v : Bool) : (c.setPred d v).units = c.units := by unfold Core.setPred; split <;> rfl

@[simp] theorem Core.reg_setPred (c : Core) (d : PReg) (v : Bool) (r : SReg) : (c.setPred d v).reg r = c.reg r := by
  simp [Core.reg]

@[simp] theorem Core.pred_setReg (c : Core) (d : SReg) (v : Word) (p : PReg) : (c.setReg d v).pred p = c.pred p := by
  simp [Core.pred]

/-! ### Counting, trap entry and return -/

@[simp] theorem Core.count_regs (c : Core) (e : BitVec 8) : (c.count e).regs = c.regs := by unfold Core.count; rfl
@[simp] theorem Core.count_preds (c : Core) (e : BitVec 8) : (c.count e).preds = c.preds := by unfold Core.count; rfl
@[simp] theorem Core.count_loops (c : Core) (e : BitVec 8) : (c.count e).loops = c.loops := by unfold Core.count; rfl
@[simp] theorem Core.count_pc (c : Core) (e : BitVec 8) : (c.count e).pc = c.pc := by unfold Core.count; rfl
@[simp] theorem Core.count_tvec (c : Core) (e : BitVec 8) : (c.count e).tvec = c.tvec := by unfold Core.count; rfl
@[simp] theorem Core.count_epc (c : Core) (e : BitVec 8) : (c.count e).epc = c.epc := by unfold Core.count; rfl
@[simp] theorem Core.count_tcause (c : Core) (e : BitVec 8) : (c.count e).tcause = c.tcause := by unfold Core.count; rfl
@[simp] theorem Core.count_tval (c : Core) (e : BitVec 8) : (c.count e).tval = c.tval := by unfold Core.count; rfl
@[simp] theorem Core.count_ovf (c : Core) (e : BitVec 8) : (c.count e).ovf = c.ovf := by unfold Core.count; rfl
@[simp] theorem Core.count_tin (c : Core) (e : BitVec 8) : (c.count e).tin = c.tin := by unfold Core.count; rfl
@[simp] theorem Core.count_plvl (c : Core) (e : BitVec 8) : (c.count e).plvl = c.plvl := by unfold Core.count; rfl
@[simp] theorem Core.count_lvl (c : Core) (e : BitVec 8) : (c.count e).lvl = c.lvl := by unfold Core.count; rfl
@[simp] theorem Core.count_faults (c : Core) (e : BitVec 8) : (c.count e).faults = c.faults := by unfold Core.count; rfl
@[simp] theorem Core.count_regionOrg (c : Core) (e : BitVec 8) : (c.count e).regionOrg = c.regionOrg := by unfold Core.count; rfl
@[simp] theorem Core.count_regionExt (c : Core) (e : BitVec 8) : (c.count e).regionExt = c.regionExt := by unfold Core.count; rfl
@[simp] theorem Core.count_ctxTag (c : Core) (e : BitVec 8) : (c.count e).ctxTag = c.ctxTag := by unfold Core.count; rfl
@[simp] theorem Core.count_ctxPart (c : Core) (e : BitVec 8) : (c.count e).ctxPart = c.ctxPart := by unfold Core.count; rfl
@[simp] theorem Core.count_cycle (c : Core) (e : BitVec 8) : (c.count e).cycle = c.cycle := by unfold Core.count; rfl
@[simp] theorem Core.count_seedLo (c : Core) (e : BitVec 8) : (c.count e).seedLo = c.seedLo := by unfold Core.count; rfl
@[simp] theorem Core.count_seedHi (c : Core) (e : BitVec 8) : (c.count e).seedHi = c.seedHi := by unfold Core.count; rfl
@[simp] theorem Core.count_org (c : Core) (e : BitVec 8) : (c.count e).org = c.org := by unfold Core.count; rfl
@[simp] theorem Core.count_cntSel (c : Core) (e : BitVec 8) : (c.count e).cntSel = c.cntSel := by unfold Core.count; rfl
@[simp] theorem Core.count_cntEvent (c : Core) (e : BitVec 8) : (c.count e).cntEvent = c.cntEvent := by unfold Core.count; rfl
@[simp] theorem Core.count_cntEn (c : Core) (e : BitVec 8) : (c.count e).cntEn = c.cntEn := by unfold Core.count; rfl
@[simp] theorem Core.count_event (c : Core) (e : BitVec 8) : (c.count e).event = c.event := by unfold Core.count; rfl
@[simp] theorem Core.count_accesses (c : Core) (e : BitVec 8) : (c.count e).accesses = c.accesses := by unfold Core.count; rfl
@[simp] theorem Core.count_nextId (c : Core) (e : BitVec 8) : (c.count e).nextId = c.nextId := by unfold Core.count; rfl
@[simp] theorem Core.count_awaited (c : Core) (e : BitVec 8) : (c.count e).awaited = c.awaited := by unfold Core.count; rfl
@[simp] theorem Core.count_wait (c : Core) (e : BitVec 8) : (c.count e).wait = c.wait := by unfold Core.count; rfl
@[simp] theorem Core.count_run (c : Core) (e : BitVec 8) : (c.count e).run = c.run := by unfold Core.count; rfl
@[simp] theorem Core.count_endAsked (c : Core) (e : BitVec 8) : (c.count e).endAsked = c.endAsked := by unfold Core.count; rfl
@[simp] theorem Core.count_scratch (c : Core) (e : BitVec 8) : (c.count e).scratch = c.scratch := by unfold Core.count; rfl
@[simp] theorem Core.count_icache (c : Core) (e : BitVec 8) : (c.count e).icache = c.icache := by unfold Core.count; rfl
@[simp] theorem Core.count_prefetch (c : Core) (e : BitVec 8) : (c.count e).prefetch = c.prefetch := by unfold Core.count; rfl
@[simp] theorem Core.count_tlb (c : Core) (e : BitVec 8) : (c.count e).tlb = c.tlb := by unfold Core.count; rfl
@[simp] theorem Core.count_bars (c : Core) (e : BitVec 8) : (c.count e).bars = c.bars := by unfold Core.count; rfl
@[simp] theorem Core.count_shapes (c : Core) (e : BitVec 8) : (c.count e).shapes = c.shapes := by unfold Core.count; rfl
@[simp] theorem Core.count_engines (c : Core) (e : BitVec 8) : (c.count e).engines = c.engines := by unfold Core.count; rfl
@[simp] theorem Core.count_elems (c : Core) (e : BitVec 8) : (c.count e).elems = c.elems := by unfold Core.count; rfl
@[simp] theorem Core.count_cfg (c : Core) (e : BitVec 8) : (c.count e).cfg = c.cfg := by unfold Core.count; rfl
@[simp] theorem Core.count_permits (c : Core) (e : BitVec 8) : (c.count e).permits = c.permits := by unfold Core.count; rfl
@[simp] theorem Core.count_takePort (c : Core) (e : BitVec 8) : (c.count e).takePort = c.takePort := by unfold Core.count; rfl
@[simp] theorem Core.count_pools (c : Core) (e : BitVec 8) : (c.count e).pools = c.pools := by unfold Core.count; rfl
@[simp] theorem Core.count_banks (c : Core) (e : BitVec 8) : (c.count e).banks = c.banks := by unfold Core.count; rfl
@[simp] theorem Core.count_sram (c : Core) (e : BitVec 8) : (c.count e).sram = c.sram := by unfold Core.count; rfl
@[simp] theorem Core.count_sramTaint (c : Core) (e : BitVec 8) : (c.count e).sramTaint = c.sramTaint := by unfold Core.count; rfl
@[simp] theorem Core.count_router (c : Core) (e : BitVec 8) : (c.count e).router = c.router := by unfold Core.count; rfl
@[simp] theorem Core.count_waits (c : Core) (e : BitVec 8) : (c.count e).waits = c.waits := by unfold Core.count; rfl
@[simp] theorem Core.count_told (c : Core) (e : BitVec 8) : (c.count e).told = c.told := by unfold Core.count; rfl
@[simp] theorem Core.count_units (c : Core) (e : BitVec 8) : (c.count e).units = c.units := by unfold Core.count; rfl

@[simp] theorem Core.enterTrap_regs (c : Core) (e k v : Word) : (c.enterTrap e k v).regs = c.regs := by unfold Core.enterTrap Core.count; rfl
@[simp] theorem Core.enterTrap_preds (c : Core) (e k v : Word) : (c.enterTrap e k v).preds = c.preds := by unfold Core.enterTrap Core.count; rfl
@[simp] theorem Core.enterTrap_loops (c : Core) (e k v : Word) : (c.enterTrap e k v).loops = c.loops := by unfold Core.enterTrap Core.count; rfl
@[simp] theorem Core.enterTrap_tvec (c : Core) (e k v : Word) : (c.enterTrap e k v).tvec = c.tvec := by unfold Core.enterTrap Core.count; rfl
@[simp] theorem Core.enterTrap_ovf (c : Core) (e k v : Word) : (c.enterTrap e k v).ovf = c.ovf := by unfold Core.enterTrap Core.count; rfl
@[simp] theorem Core.enterTrap_faults (c : Core) (e k v : Word) : (c.enterTrap e k v).faults = c.faults := by unfold Core.enterTrap Core.count; rfl
@[simp] theorem Core.enterTrap_regionOrg (c : Core) (e k v : Word) : (c.enterTrap e k v).regionOrg = c.regionOrg := by unfold Core.enterTrap Core.count; rfl
@[simp] theorem Core.enterTrap_regionExt (c : Core) (e k v : Word) : (c.enterTrap e k v).regionExt = c.regionExt := by unfold Core.enterTrap Core.count; rfl
@[simp] theorem Core.enterTrap_ctxTag (c : Core) (e k v : Word) : (c.enterTrap e k v).ctxTag = c.ctxTag := by unfold Core.enterTrap Core.count; rfl
@[simp] theorem Core.enterTrap_ctxPart (c : Core) (e k v : Word) : (c.enterTrap e k v).ctxPart = c.ctxPart := by unfold Core.enterTrap Core.count; rfl
@[simp] theorem Core.enterTrap_cycle (c : Core) (e k v : Word) : (c.enterTrap e k v).cycle = c.cycle := by unfold Core.enterTrap Core.count; rfl
@[simp] theorem Core.enterTrap_seedLo (c : Core) (e k v : Word) : (c.enterTrap e k v).seedLo = c.seedLo := by unfold Core.enterTrap Core.count; rfl
@[simp] theorem Core.enterTrap_seedHi (c : Core) (e k v : Word) : (c.enterTrap e k v).seedHi = c.seedHi := by unfold Core.enterTrap Core.count; rfl
@[simp] theorem Core.enterTrap_org (c : Core) (e k v : Word) : (c.enterTrap e k v).org = c.org := by unfold Core.enterTrap Core.count; rfl
@[simp] theorem Core.enterTrap_cntSel (c : Core) (e k v : Word) : (c.enterTrap e k v).cntSel = c.cntSel := by unfold Core.enterTrap Core.count; rfl
@[simp] theorem Core.enterTrap_cntEvent (c : Core) (e k v : Word) : (c.enterTrap e k v).cntEvent = c.cntEvent := by unfold Core.enterTrap Core.count; rfl
@[simp] theorem Core.enterTrap_cntEn (c : Core) (e k v : Word) : (c.enterTrap e k v).cntEn = c.cntEn := by unfold Core.enterTrap Core.count; rfl
@[simp] theorem Core.enterTrap_event (c : Core) (e k v : Word) : (c.enterTrap e k v).event = c.event := by unfold Core.enterTrap Core.count; rfl
@[simp] theorem Core.enterTrap_accesses (c : Core) (e k v : Word) : (c.enterTrap e k v).accesses = c.accesses := by unfold Core.enterTrap Core.count; rfl
@[simp] theorem Core.enterTrap_nextId (c : Core) (e k v : Word) : (c.enterTrap e k v).nextId = c.nextId := by unfold Core.enterTrap Core.count; rfl
@[simp] theorem Core.enterTrap_awaited (c : Core) (e k v : Word) : (c.enterTrap e k v).awaited = c.awaited := by unfold Core.enterTrap Core.count; rfl
@[simp] theorem Core.enterTrap_run (c : Core) (e k v : Word) : (c.enterTrap e k v).run = c.run := by unfold Core.enterTrap Core.count; rfl
@[simp] theorem Core.enterTrap_endAsked (c : Core) (e k v : Word) : (c.enterTrap e k v).endAsked = c.endAsked := by unfold Core.enterTrap Core.count; rfl
@[simp] theorem Core.enterTrap_scratch (c : Core) (e k v : Word) : (c.enterTrap e k v).scratch = c.scratch := by unfold Core.enterTrap Core.count; rfl
@[simp] theorem Core.enterTrap_icache (c : Core) (e k v : Word) : (c.enterTrap e k v).icache = c.icache := by unfold Core.enterTrap Core.count; rfl
@[simp] theorem Core.enterTrap_prefetch (c : Core) (e k v : Word) : (c.enterTrap e k v).prefetch = c.prefetch := by unfold Core.enterTrap Core.count; rfl
@[simp] theorem Core.enterTrap_tlb (c : Core) (e k v : Word) : (c.enterTrap e k v).tlb = c.tlb := by unfold Core.enterTrap Core.count; rfl
@[simp] theorem Core.enterTrap_bars (c : Core) (e k v : Word) : (c.enterTrap e k v).bars = c.bars := by unfold Core.enterTrap Core.count; rfl
@[simp] theorem Core.enterTrap_shapes (c : Core) (e k v : Word) : (c.enterTrap e k v).shapes = c.shapes := by unfold Core.enterTrap Core.count; rfl
@[simp] theorem Core.enterTrap_engines (c : Core) (e k v : Word) : (c.enterTrap e k v).engines = c.engines := by unfold Core.enterTrap Core.count; rfl
@[simp] theorem Core.enterTrap_elems (c : Core) (e k v : Word) : (c.enterTrap e k v).elems = c.elems := by unfold Core.enterTrap Core.count; rfl
@[simp] theorem Core.enterTrap_cfg (c : Core) (e k v : Word) : (c.enterTrap e k v).cfg = c.cfg := by unfold Core.enterTrap Core.count; rfl
@[simp] theorem Core.enterTrap_permits (c : Core) (e k v : Word) : (c.enterTrap e k v).permits = c.permits := by unfold Core.enterTrap Core.count; rfl
@[simp] theorem Core.enterTrap_takePort (c : Core) (e k v : Word) : (c.enterTrap e k v).takePort = c.takePort := by unfold Core.enterTrap Core.count; rfl
@[simp] theorem Core.enterTrap_pools (c : Core) (e k v : Word) : (c.enterTrap e k v).pools = c.pools := by unfold Core.enterTrap Core.count; rfl
@[simp] theorem Core.enterTrap_banks (c : Core) (e k v : Word) : (c.enterTrap e k v).banks = c.banks := by unfold Core.enterTrap Core.count; rfl
@[simp] theorem Core.enterTrap_sram (c : Core) (e k v : Word) : (c.enterTrap e k v).sram = c.sram := by unfold Core.enterTrap Core.count; rfl
@[simp] theorem Core.enterTrap_sramTaint (c : Core) (e k v : Word) : (c.enterTrap e k v).sramTaint = c.sramTaint := by unfold Core.enterTrap Core.count; rfl
@[simp] theorem Core.enterTrap_router (c : Core) (e k v : Word) : (c.enterTrap e k v).router = c.router := by unfold Core.enterTrap Core.count; rfl
@[simp] theorem Core.enterTrap_waits (c : Core) (e k v : Word) : (c.enterTrap e k v).waits = c.waits := by unfold Core.enterTrap Core.count; rfl
@[simp] theorem Core.enterTrap_told (c : Core) (e k v : Word) : (c.enterTrap e k v).told = c.told := by unfold Core.enterTrap Core.count; rfl
@[simp] theorem Core.enterTrap_units (c : Core) (e k v : Word) : (c.enterTrap e k v).units = c.units := by unfold Core.enterTrap Core.count; rfl
@[simp] theorem Core.enterTrap_epc (c : Core) (e k v : Word) : (c.enterTrap e k v).epc = e := by unfold Core.enterTrap; rfl
@[simp] theorem Core.enterTrap_tcause (c : Core) (e k v : Word) : (c.enterTrap e k v).tcause = k := by unfold Core.enterTrap; rfl
@[simp] theorem Core.enterTrap_tval (c : Core) (e k v : Word) : (c.enterTrap e k v).tval = v := by unfold Core.enterTrap; rfl
@[simp] theorem Core.enterTrap_plvl (c : Core) (e k v : Word) : (c.enterTrap e k v).plvl = c.lvl := by unfold Core.enterTrap; rfl
@[simp] theorem Core.enterTrap_lvl (c : Core) (e k v : Word) : (c.enterTrap e k v).lvl = true := by unfold Core.enterTrap; rfl
@[simp] theorem Core.enterTrap_tin (c : Core) (e k v : Word) : (c.enterTrap e k v).tin = true := by unfold Core.enterTrap; rfl
@[simp] theorem Core.enterTrap_wait (c : Core) (e k v : Word) : (c.enterTrap e k v).wait = .none := by unfold Core.enterTrap; rfl
@[simp] theorem Core.enterTrap_pc (c : Core) (e k v : Word) : (c.enterTrap e k v).pc = c.tvec := by unfold Core.enterTrap; rfl

@[simp] theorem Core.returnTrap_regs (c : Core) : c.returnTrap.regs = c.regs := rfl
@[simp] theorem Core.returnTrap_preds (c : Core) : c.returnTrap.preds = c.preds := rfl
@[simp] theorem Core.returnTrap_loops (c : Core) : c.returnTrap.loops = c.loops := rfl
@[simp] theorem Core.returnTrap_tvec (c : Core) : c.returnTrap.tvec = c.tvec := rfl
@[simp] theorem Core.returnTrap_epc (c : Core) : c.returnTrap.epc = c.epc := rfl
@[simp] theorem Core.returnTrap_tcause (c : Core) : c.returnTrap.tcause = c.tcause := rfl
@[simp] theorem Core.returnTrap_tval (c : Core) : c.returnTrap.tval = c.tval := rfl
@[simp] theorem Core.returnTrap_ovf (c : Core) : c.returnTrap.ovf = c.ovf := rfl
@[simp] theorem Core.returnTrap_plvl (c : Core) : c.returnTrap.plvl = c.plvl := rfl
@[simp] theorem Core.returnTrap_faults (c : Core) : c.returnTrap.faults = c.faults := rfl
@[simp] theorem Core.returnTrap_regionOrg (c : Core) : c.returnTrap.regionOrg = c.regionOrg := rfl
@[simp] theorem Core.returnTrap_regionExt (c : Core) : c.returnTrap.regionExt = c.regionExt := rfl
@[simp] theorem Core.returnTrap_ctxTag (c : Core) : c.returnTrap.ctxTag = c.ctxTag := rfl
@[simp] theorem Core.returnTrap_ctxPart (c : Core) : c.returnTrap.ctxPart = c.ctxPart := rfl
@[simp] theorem Core.returnTrap_cycle (c : Core) : c.returnTrap.cycle = c.cycle := rfl
@[simp] theorem Core.returnTrap_seedLo (c : Core) : c.returnTrap.seedLo = c.seedLo := rfl
@[simp] theorem Core.returnTrap_seedHi (c : Core) : c.returnTrap.seedHi = c.seedHi := rfl
@[simp] theorem Core.returnTrap_org (c : Core) : c.returnTrap.org = c.org := rfl
@[simp] theorem Core.returnTrap_cntSel (c : Core) : c.returnTrap.cntSel = c.cntSel := rfl
@[simp] theorem Core.returnTrap_cntEvent (c : Core) : c.returnTrap.cntEvent = c.cntEvent := rfl
@[simp] theorem Core.returnTrap_cntEn (c : Core) : c.returnTrap.cntEn = c.cntEn := rfl
@[simp] theorem Core.returnTrap_cnt (c : Core) : c.returnTrap.cnt = c.cnt := rfl
@[simp] theorem Core.returnTrap_event (c : Core) : c.returnTrap.event = c.event := rfl
@[simp] theorem Core.returnTrap_accesses (c : Core) : c.returnTrap.accesses = c.accesses := rfl
@[simp] theorem Core.returnTrap_nextId (c : Core) : c.returnTrap.nextId = c.nextId := rfl
@[simp] theorem Core.returnTrap_awaited (c : Core) : c.returnTrap.awaited = c.awaited := rfl
@[simp] theorem Core.returnTrap_wait (c : Core) : c.returnTrap.wait = c.wait := rfl
@[simp] theorem Core.returnTrap_run (c : Core) : c.returnTrap.run = c.run := rfl
@[simp] theorem Core.returnTrap_endAsked (c : Core) : c.returnTrap.endAsked = c.endAsked := rfl
@[simp] theorem Core.returnTrap_scratch (c : Core) : c.returnTrap.scratch = c.scratch := rfl
@[simp] theorem Core.returnTrap_icache (c : Core) : c.returnTrap.icache = c.icache := rfl
@[simp] theorem Core.returnTrap_prefetch (c : Core) : c.returnTrap.prefetch = c.prefetch := rfl
@[simp] theorem Core.returnTrap_tlb (c : Core) : c.returnTrap.tlb = c.tlb := rfl
@[simp] theorem Core.returnTrap_bars (c : Core) : c.returnTrap.bars = c.bars := rfl
@[simp] theorem Core.returnTrap_shapes (c : Core) : c.returnTrap.shapes = c.shapes := rfl
@[simp] theorem Core.returnTrap_engines (c : Core) : c.returnTrap.engines = c.engines := rfl
@[simp] theorem Core.returnTrap_elems (c : Core) : c.returnTrap.elems = c.elems := rfl
@[simp] theorem Core.returnTrap_cfg (c : Core) : c.returnTrap.cfg = c.cfg := rfl
@[simp] theorem Core.returnTrap_permits (c : Core) : c.returnTrap.permits = c.permits := rfl
@[simp] theorem Core.returnTrap_takePort (c : Core) : c.returnTrap.takePort = c.takePort := rfl
@[simp] theorem Core.returnTrap_pools (c : Core) : c.returnTrap.pools = c.pools := rfl
@[simp] theorem Core.returnTrap_banks (c : Core) : c.returnTrap.banks = c.banks := rfl
@[simp] theorem Core.returnTrap_sram (c : Core) : c.returnTrap.sram = c.sram := rfl
@[simp] theorem Core.returnTrap_sramTaint (c : Core) : c.returnTrap.sramTaint = c.sramTaint := rfl
@[simp] theorem Core.returnTrap_router (c : Core) : c.returnTrap.router = c.router := rfl
@[simp] theorem Core.returnTrap_waits (c : Core) : c.returnTrap.waits = c.waits := rfl
@[simp] theorem Core.returnTrap_told (c : Core) : c.returnTrap.told = c.told := rfl
@[simp] theorem Core.returnTrap_units (c : Core) : c.returnTrap.units = c.units := rfl

/-! ### Completion -/

/-- The loop scan changes the pc, the loop registers and the counters alone. -/
theorem Core.scanLoops_frame (a next : Word) (ns : List (BitVec 2)) (c : Core) :
    ∃ pc loops cnt, Core.scanLoops a next ns c = { c with pc := pc, loops := loops, cnt := cnt } := by
  induction ns generalizing c with
  | nil => exact ⟨next, c.loops, c.cnt, rfl⟩
  | cons n ns ih =>
    simp only [Core.scanLoops]
    split
    · split
      · exact ⟨_, _, _, rfl⟩
      · obtain ⟨pc, l, k, h⟩ := ih { c with loops := { c.loops with lc := c.loops.lc.set n.toNat 0, active := c.loops.active.filter (· != n) } }
        exact ⟨pc, l, k, by rw [h]⟩
    · exact ih c

/-- Completion changes the pc, the loop registers and the counters alone. -/
theorem Core.finish_frame (c : Core) (len : Nat) :
    ∃ pc loops cnt, c.finish len = { c with pc := pc, loops := loops, cnt := cnt } := by
  unfold Core.finish
  simp only
  split
  · exact ⟨_, c.loops, (c.count 0x02).cnt, rfl⟩
  · obtain ⟨pc, l, k, h⟩ := Core.scanLoops_frame (c.count 0x02).pc ((c.count 0x02).pc + BitVec.ofNat 64 len) (c.count 0x02).loops.active (c.count 0x02)
    exact ⟨pc, l, k, by rw [h]; rfl⟩

/-- With no active level an instruction goes on to the next one. -/
theorem Core.finish_of_no_loop (c : Core) (len : Nat) (h : c.loops.active = []) :
    c.finish len = { c.count 0x02 with pc := c.pc + BitVec.ofNat 64 len } := by
  unfold Core.finish; simp [h, Core.scanLoops]

@[simp] theorem Core.finish_regs (c : Core) (n : Nat) : (c.finish n).regs = c.regs := by
  have h := c.finish_frame n; generalize c.finish n = k at h ⊢; obtain ⟨_, _, _, rfl⟩ := h; rfl
@[simp] theorem Core.finish_preds (c : Core) (n : Nat) : (c.finish n).preds = c.preds := by
  have h := c.finish_frame n; generalize c.finish n = k at h ⊢; obtain ⟨_, _, _, rfl⟩ := h; rfl
@[simp] theorem Core.finish_tvec (c : Core) (n : Nat) : (c.finish n).tvec = c.tvec := by
  have h := c.finish_frame n; generalize c.finish n = k at h ⊢; obtain ⟨_, _, _, rfl⟩ := h; rfl
@[simp] theorem Core.finish_epc (c : Core) (n : Nat) : (c.finish n).epc = c.epc := by
  have h := c.finish_frame n; generalize c.finish n = k at h ⊢; obtain ⟨_, _, _, rfl⟩ := h; rfl
@[simp] theorem Core.finish_tcause (c : Core) (n : Nat) : (c.finish n).tcause = c.tcause := by
  have h := c.finish_frame n; generalize c.finish n = k at h ⊢; obtain ⟨_, _, _, rfl⟩ := h; rfl
@[simp] theorem Core.finish_tval (c : Core) (n : Nat) : (c.finish n).tval = c.tval := by
  have h := c.finish_frame n; generalize c.finish n = k at h ⊢; obtain ⟨_, _, _, rfl⟩ := h; rfl
@[simp] theorem Core.finish_ovf (c : Core) (n : Nat) : (c.finish n).ovf = c.ovf := by
  have h := c.finish_frame n; generalize c.finish n = k at h ⊢; obtain ⟨_, _, _, rfl⟩ := h; rfl
@[simp] theorem Core.finish_tin (c : Core) (n : Nat) : (c.finish n).tin = c.tin := by
  have h := c.finish_frame n; generalize c.finish n = k at h ⊢; obtain ⟨_, _, _, rfl⟩ := h; rfl
@[simp] theorem Core.finish_plvl (c : Core) (n : Nat) : (c.finish n).plvl = c.plvl := by
  have h := c.finish_frame n; generalize c.finish n = k at h ⊢; obtain ⟨_, _, _, rfl⟩ := h; rfl
@[simp] theorem Core.finish_lvl (c : Core) (n : Nat) : (c.finish n).lvl = c.lvl := by
  have h := c.finish_frame n; generalize c.finish n = k at h ⊢; obtain ⟨_, _, _, rfl⟩ := h; rfl
@[simp] theorem Core.finish_faults (c : Core) (n : Nat) : (c.finish n).faults = c.faults := by
  have h := c.finish_frame n; generalize c.finish n = k at h ⊢; obtain ⟨_, _, _, rfl⟩ := h; rfl
@[simp] theorem Core.finish_regionOrg (c : Core) (n : Nat) : (c.finish n).regionOrg = c.regionOrg := by
  have h := c.finish_frame n; generalize c.finish n = k at h ⊢; obtain ⟨_, _, _, rfl⟩ := h; rfl
@[simp] theorem Core.finish_regionExt (c : Core) (n : Nat) : (c.finish n).regionExt = c.regionExt := by
  have h := c.finish_frame n; generalize c.finish n = k at h ⊢; obtain ⟨_, _, _, rfl⟩ := h; rfl
@[simp] theorem Core.finish_ctxTag (c : Core) (n : Nat) : (c.finish n).ctxTag = c.ctxTag := by
  have h := c.finish_frame n; generalize c.finish n = k at h ⊢; obtain ⟨_, _, _, rfl⟩ := h; rfl
@[simp] theorem Core.finish_ctxPart (c : Core) (n : Nat) : (c.finish n).ctxPart = c.ctxPart := by
  have h := c.finish_frame n; generalize c.finish n = k at h ⊢; obtain ⟨_, _, _, rfl⟩ := h; rfl
@[simp] theorem Core.finish_cycle (c : Core) (n : Nat) : (c.finish n).cycle = c.cycle := by
  have h := c.finish_frame n; generalize c.finish n = k at h ⊢; obtain ⟨_, _, _, rfl⟩ := h; rfl
@[simp] theorem Core.finish_seedLo (c : Core) (n : Nat) : (c.finish n).seedLo = c.seedLo := by
  have h := c.finish_frame n; generalize c.finish n = k at h ⊢; obtain ⟨_, _, _, rfl⟩ := h; rfl
@[simp] theorem Core.finish_seedHi (c : Core) (n : Nat) : (c.finish n).seedHi = c.seedHi := by
  have h := c.finish_frame n; generalize c.finish n = k at h ⊢; obtain ⟨_, _, _, rfl⟩ := h; rfl
@[simp] theorem Core.finish_org (c : Core) (n : Nat) : (c.finish n).org = c.org := by
  have h := c.finish_frame n; generalize c.finish n = k at h ⊢; obtain ⟨_, _, _, rfl⟩ := h; rfl
@[simp] theorem Core.finish_cntSel (c : Core) (n : Nat) : (c.finish n).cntSel = c.cntSel := by
  have h := c.finish_frame n; generalize c.finish n = k at h ⊢; obtain ⟨_, _, _, rfl⟩ := h; rfl
@[simp] theorem Core.finish_cntEvent (c : Core) (n : Nat) : (c.finish n).cntEvent = c.cntEvent := by
  have h := c.finish_frame n; generalize c.finish n = k at h ⊢; obtain ⟨_, _, _, rfl⟩ := h; rfl
@[simp] theorem Core.finish_cntEn (c : Core) (n : Nat) : (c.finish n).cntEn = c.cntEn := by
  have h := c.finish_frame n; generalize c.finish n = k at h ⊢; obtain ⟨_, _, _, rfl⟩ := h; rfl
@[simp] theorem Core.finish_event (c : Core) (n : Nat) : (c.finish n).event = c.event := by
  have h := c.finish_frame n; generalize c.finish n = k at h ⊢; obtain ⟨_, _, _, rfl⟩ := h; rfl
@[simp] theorem Core.finish_accesses (c : Core) (n : Nat) : (c.finish n).accesses = c.accesses := by
  have h := c.finish_frame n; generalize c.finish n = k at h ⊢; obtain ⟨_, _, _, rfl⟩ := h; rfl
@[simp] theorem Core.finish_nextId (c : Core) (n : Nat) : (c.finish n).nextId = c.nextId := by
  have h := c.finish_frame n; generalize c.finish n = k at h ⊢; obtain ⟨_, _, _, rfl⟩ := h; rfl
@[simp] theorem Core.finish_awaited (c : Core) (n : Nat) : (c.finish n).awaited = c.awaited := by
  have h := c.finish_frame n; generalize c.finish n = k at h ⊢; obtain ⟨_, _, _, rfl⟩ := h; rfl
@[simp] theorem Core.finish_wait (c : Core) (n : Nat) : (c.finish n).wait = c.wait := by
  have h := c.finish_frame n; generalize c.finish n = k at h ⊢; obtain ⟨_, _, _, rfl⟩ := h; rfl
@[simp] theorem Core.finish_run (c : Core) (n : Nat) : (c.finish n).run = c.run := by
  have h := c.finish_frame n; generalize c.finish n = k at h ⊢; obtain ⟨_, _, _, rfl⟩ := h; rfl
@[simp] theorem Core.finish_endAsked (c : Core) (n : Nat) : (c.finish n).endAsked = c.endAsked := by
  have h := c.finish_frame n; generalize c.finish n = k at h ⊢; obtain ⟨_, _, _, rfl⟩ := h; rfl
@[simp] theorem Core.finish_scratch (c : Core) (n : Nat) : (c.finish n).scratch = c.scratch := by
  have h := c.finish_frame n; generalize c.finish n = k at h ⊢; obtain ⟨_, _, _, rfl⟩ := h; rfl
@[simp] theorem Core.finish_icache (c : Core) (n : Nat) : (c.finish n).icache = c.icache := by
  have h := c.finish_frame n; generalize c.finish n = k at h ⊢; obtain ⟨_, _, _, rfl⟩ := h; rfl
@[simp] theorem Core.finish_prefetch (c : Core) (n : Nat) : (c.finish n).prefetch = c.prefetch := by
  have h := c.finish_frame n; generalize c.finish n = k at h ⊢; obtain ⟨_, _, _, rfl⟩ := h; rfl
@[simp] theorem Core.finish_tlb (c : Core) (n : Nat) : (c.finish n).tlb = c.tlb := by
  have h := c.finish_frame n; generalize c.finish n = k at h ⊢; obtain ⟨_, _, _, rfl⟩ := h; rfl
@[simp] theorem Core.finish_bars (c : Core) (n : Nat) : (c.finish n).bars = c.bars := by
  have h := c.finish_frame n; generalize c.finish n = k at h ⊢; obtain ⟨_, _, _, rfl⟩ := h; rfl
@[simp] theorem Core.finish_shapes (c : Core) (n : Nat) : (c.finish n).shapes = c.shapes := by
  have h := c.finish_frame n; generalize c.finish n = k at h ⊢; obtain ⟨_, _, _, rfl⟩ := h; rfl
@[simp] theorem Core.finish_engines (c : Core) (n : Nat) : (c.finish n).engines = c.engines := by
  have h := c.finish_frame n; generalize c.finish n = k at h ⊢; obtain ⟨_, _, _, rfl⟩ := h; rfl
@[simp] theorem Core.finish_elems (c : Core) (n : Nat) : (c.finish n).elems = c.elems := by
  have h := c.finish_frame n; generalize c.finish n = k at h ⊢; obtain ⟨_, _, _, rfl⟩ := h; rfl
@[simp] theorem Core.finish_cfg (c : Core) (n : Nat) : (c.finish n).cfg = c.cfg := by
  have h := c.finish_frame n; generalize c.finish n = k at h ⊢; obtain ⟨_, _, _, rfl⟩ := h; rfl
@[simp] theorem Core.finish_permits (c : Core) (n : Nat) : (c.finish n).permits = c.permits := by
  have h := c.finish_frame n; generalize c.finish n = k at h ⊢; obtain ⟨_, _, _, rfl⟩ := h; rfl
@[simp] theorem Core.finish_takePort (c : Core) (n : Nat) : (c.finish n).takePort = c.takePort := by
  have h := c.finish_frame n; generalize c.finish n = k at h ⊢; obtain ⟨_, _, _, rfl⟩ := h; rfl
@[simp] theorem Core.finish_pools (c : Core) (n : Nat) : (c.finish n).pools = c.pools := by
  have h := c.finish_frame n; generalize c.finish n = k at h ⊢; obtain ⟨_, _, _, rfl⟩ := h; rfl
@[simp] theorem Core.finish_banks (c : Core) (n : Nat) : (c.finish n).banks = c.banks := by
  have h := c.finish_frame n; generalize c.finish n = k at h ⊢; obtain ⟨_, _, _, rfl⟩ := h; rfl
@[simp] theorem Core.finish_sram (c : Core) (n : Nat) : (c.finish n).sram = c.sram := by
  have h := c.finish_frame n; generalize c.finish n = k at h ⊢; obtain ⟨_, _, _, rfl⟩ := h; rfl
@[simp] theorem Core.finish_sramTaint (c : Core) (n : Nat) : (c.finish n).sramTaint = c.sramTaint := by
  have h := c.finish_frame n; generalize c.finish n = k at h ⊢; obtain ⟨_, _, _, rfl⟩ := h; rfl
@[simp] theorem Core.finish_router (c : Core) (n : Nat) : (c.finish n).router = c.router := by
  have h := c.finish_frame n; generalize c.finish n = k at h ⊢; obtain ⟨_, _, _, rfl⟩ := h; rfl
@[simp] theorem Core.finish_waits (c : Core) (n : Nat) : (c.finish n).waits = c.waits := by
  have h := c.finish_frame n; generalize c.finish n = k at h ⊢; obtain ⟨_, _, _, rfl⟩ := h; rfl
@[simp] theorem Core.finish_told (c : Core) (n : Nat) : (c.finish n).told = c.told := by
  have h := c.finish_frame n; generalize c.finish n = k at h ⊢; obtain ⟨_, _, _, rfl⟩ := h; rfl
@[simp] theorem Core.finish_units (c : Core) (n : Nat) : (c.finish n).units = c.units := by
  have h := c.finish_frame n; generalize c.finish n = k at h ⊢; obtain ⟨_, _, _, rfl⟩ := h; rfl

/-- What an instruction that completes leaves: the state of its effect with its core completed, or, where a back-edge turns to a
misaligned start, its trap. -/
theorem State.retire_cases (pre post : State) (len : Nat) :
    pre.retire post len = post.setCore pre.cur.core ((post.core pre.cur.core).finish len) ∨
    (misaligned ((post.core pre.cur.core).finish len).pc = true ∧
      pre.retire post len = pre.precise 0x02 ((post.core pre.cur.core).finish len).pc) := by
  unfold State.retire; simp only
  split
  · next h => exact .inr ⟨h, rfl⟩
  · exact .inl rfl

/-- A register instruction whose completion is aligned. -/
theorem State.issue_of_aligned (s : State) (len : Nat) (f : Core → Core) (h : misaligned ((f s.here).finish len).pc = false) :
    s.issue len f = .next (s.on fun c => (f c).finish len) := by
  have e : (s.on f).core s.cur.core = f s.here := State.here_on s f
  unfold State.issue State.retire
  simp only [e, h]
  simp only [State.on, State.onCore, State.setCore_setCore, Bool.false_eq_true, if_false]
  rfl

theorem State.guarded_true (s : State) (p : PReg) (body : Out) (h : s.here.pred p = true) : s.guarded p body = body := by
  unfold State.guarded; rw [if_pos h]

theorem State.guarded_false (s : State) (p : PReg) (body : Out) (h : s.here.pred p = false) : s.guarded p body = s.issue 4 id := by
  unfold State.guarded; rw [if_neg (by simp [h])]

/-- A precise fault outside a handler takes the trap with EPC at the instruction. -/
theorem State.precise_of_not_tin (s : State) (code : BitVec 8) (v : Word) (h : s.here.tin = false) :
    s.precise code v = s.on fun c => c.enterTrap c.pc (trapCause code 0 0 false) v := by
  have h' : (s.core s.cur.core).tin = false := h
  unfold State.precise State.preciseFrom; simp [h', State.on, State.onCore]

/-- A transfer to an aligned target. -/
theorem State.transfer_of_aligned (s : State) (a : Word) (f : Core → Core) (h : misaligned a = false) :
    s.transfer a f = .next (s.on fun c => { ((f c).count 0x02).count 0x04 with pc := a }) := by
  unfold State.transfer; simp [h]

/-- Every shared form of an instruction answers a next state. -/
theorem State.issue_next (s : State) (len : Nat) (f : Core → Core) : ∃ t, s.issue len f = .next t := ⟨_, rfl⟩

theorem State.answer_next (pre post : State) (d : SReg) (v : Word) : ∃ t, State.answer pre post d v = .next t := ⟨_, rfl⟩

theorem State.transfer_next (s : State) (a : Word) (f : Core → Core) : ∃ t, s.transfer a f = .next t := by
  unfold State.transfer; split <;> exact ⟨_, rfl⟩

theorem State.guarded_next (s : State) (p : PReg) (body : Out) (h : ∃ t, body = .next t) : ∃ t, s.guarded p body = .next t := by
  unfold State.guarded; split
  · exact h
  · exact ⟨_, rfl⟩

end Sys2Proof.Machine
end

