-- ==== Sys2Proof/Laws/Events.lean ====
section
/-! SUPPORT. What the operations that events and the scheduler share do: effects that begin before an instruction completes, packets that
arrive, checkpoint points, loaders and drains beside a firing, and what the end of a launch clears. -/

namespace Sys2Proof.Machine

/-! ### Effects that begin before their instruction completes (R76, R80, R87) -/

theorem State.begun_of_aligned (s : State) (body : Out) (h : misaligned (s.here.finish 4).pc = false) : s.begun body = body := by
  unfold State.begun; simp [h]

theorem State.begun_of_misaligned (s : State) (body : Out) (h : misaligned (s.here.finish 4).pc = true) :
    s.begun body = .next (s.precise 0x02 (s.here.finish 4).pc) := by
  unfold State.begun; simp [h]

theorem State.begun_next (s : State) (body : Out) (h : ∃ t, body = .next t) : ∃ t, s.begun body = .next t := by
  unfold State.begun; split
  · exact ⟨_, rfl⟩
  · exact h

/-! ### Packets that arrive (R402, R403, R410) -/

/-- A packet arrives where it stands in the network, its path leads it to its receiver, and the receiver accepts it and is
not in Dusk. -/
theorem State.arriving_eq_some (s : State) (n : Nat) (p : Packet) :
    s.arriving n = some p ↔ s.net[n]? = some p ∧ s.fate p.src p.dst = .arrives ∧ s.accepts p = true ∧ p.dst ∉ s.dusk := by
  unfold State.arriving
  cases h : s.net[n]? with
  | none => simp
  | some q =>
    simp only [Option.some.injEq]
    constructor
    · intro h; split at h
      · next c => cases h; simpa [and_assoc] using c
      · cases h
    · rintro ⟨rfl, h, k, d⟩; simp [h, k, d]

@[simp] theorem State.takePacket_net (s : State) (n : Nat) : (s.takePacket n).net = s.net.eraseIdx n := rfl
@[simp] theorem State.takePacket_core (s : State) (n c : Nat) : (s.takePacket n).core c = s.core c := rfl
@[simp] theorem State.takePacket_here (s : State) (n : Nat) : (s.takePacket n).here = s.here := rfl
@[simp] theorem State.takePacket_mem (s : State) (n : Nat) : (s.takePacket n).mem = s.mem := rfl
@[simp] theorem State.takePacket_cur (s : State) (n : Nat) : (s.takePacket n).cur = s.cur := rfl
@[simp] theorem State.takePacket_ctx (s : State) (n : Nat) (t : BitVec 6) : (s.takePacket n).ctx t = s.ctx t := rfl
@[simp] theorem State.takePacket_launches (s : State) (n : Nat) : (s.takePacket n).launches = s.launches := rfl
@[simp] theorem State.takePacket_supd (s : State) (n : Nat) : (s.takePacket n).supd = s.supd := rfl

/-! ### Traffic of the memory network (R18; log entry 59) -/

/-- A packet that does not arrive is recorded, or is lost: nothing changes but what is sent to firmware. -/
theorem State.recordDeny_eq (s : State) (f : PacketFate) (tag : BitVec 6) : ∃ out, s.recordDeny f tag = { s with outbox := out } := by
  cases f <;> exact ⟨_, rfl⟩

@[simp] theorem State.recordDeny_mem (s : State) (f : PacketFate) (t : BitVec 6) : (s.recordDeny f t).mem = s.mem := by cases f <;> rfl
@[simp] theorem State.recordDeny_core (s : State) (f : PacketFate) (t : BitVec 6) (c : Nat) : (s.recordDeny f t).core c = s.core c := by
  cases f <;> rfl
@[simp] theorem State.recordDeny_ctx (s : State) (f : PacketFate) (t u : BitVec 6) : (s.recordDeny f t).ctx u = s.ctx u := by cases f <;> rfl

@[simp] theorem State.ifArrives_arrives (s : State) (tag : BitVec 6) (body : Out) : s.ifArrives .arrives tag body = body := rfl

theorem State.ifArrives_next (s : State) (f : PacketFate) (tag : BitVec 6) (body : Out) (h : ∃ t, body = .next t) :
    ∃ t, s.ifArrives f tag body = .next t := by
  unfold State.ifArrives; split
  · exact h
  · exact ⟨_, rfl⟩

/-- What a step of the management complex does where it may read: its body; else it waits or records what was dropped. -/
theorem State.managed_cases (s : State) (tag : BitVec 6) (vas : List Word) (body : Out) :
    s.managed tag vas body = body ∨ s.managed tag vas body = .next s ∨
      ∃ out, s.managed tag vas body = .next { s with outbox := out } := by
  unfold State.managed State.ifArrives; split
  · exact .inr (.inl rfl)
  · split
    · exact .inl rfl
    · obtain ⟨o, h⟩ := s.recordDeny_eq (s.readsFate tag vas) tag
      exact .inr (.inr ⟨o, by rw [h]⟩)

/-- A read within a step: no answer, with at most a record; or the bytes, with nothing changed. -/
theorem State.readNow_cases (s : State) (core a n : Nat) :
    (∃ out, s.readNow core a n = ({ s with outbox := out }, .error noAnswer)) ∨ s.readNow core a n = (s, .ok (readMem s.mem a n)) := by
  unfold State.readNow; split
  · exact .inl ⟨s.outbox, rfl⟩
  · simp only
    split
    · exact .inr rfl
    · obtain ⟨o, h⟩ := s.recordDeny_eq (s.memoryFate core a) (s.core core).ctxTag
      exact .inl ⟨o, by rw [h]⟩

/-! ### Sealed messages (R413, R435) -/

/-- A message of a context that is not protected, and is not sealed, is admitted as it is. -/
theorem State.accepted_plain (s : State) (m : Message) (tag : BitVec 6) (h : (s.ctx tag).prot = false) (k : m.isSealed = false) :
    s.accepted m tag = some s := by simp [State.accepted, h, k]

/-- What is admitted changes nothing but the count of a key. -/
theorem State.accepted_cases (s t : State) (m : Message) (tag : BitVec 6) (h : s.accepted m tag = some t) :
    t = s ∨ t = s.countSealed tag m.device := by
  unfold State.accepted at h
  split at h
  · exact .inl (Option.some.inj h).symm
  · split at h
    · cases h
    · split at h
      · cases h
      · split at h
        · exact .inr (Option.some.inj h).symm
        · cases h

/-! ### Checkpoint points (R390) -/

/-- A mark changes nothing of a launch but its point, and that only where it had none. -/
theorem State.markPoint_cases (s : State) (l : Launch) :
    s.markPoint l = l ∨
    (l.placed = true ∧ l.pending = true ∧ l.saved = false ∧ l.stopped = false ∧ l.point = none ∧ s.overdue l = false ∧
      s.markPoint l = { l with point := s.checkpointPoint l }) := by
  unfold State.markPoint; split
  · next h => exact .inr (by simpa [and_assoc] using h)
  · exact .inl rfl

@[simp] theorem State.markPoints_core (s : State) (c : Nat) : s.markPoints.core c = s.core c := rfl
@[simp] theorem State.markPoints_here (s : State) : s.markPoints.here = s.here := rfl
@[simp] theorem State.markPoints_mem (s : State) : s.markPoints.mem = s.mem := rfl
@[simp] theorem State.markPoints_cur (s : State) : s.markPoints.cur = s.cur := rfl
@[simp] theorem State.markPoints_ctx (s : State) (t : BitVec 6) : s.markPoints.ctx t = s.ctx t := rfl
@[simp] theorem State.markPoints_net (s : State) : s.markPoints.net = s.net := rfl
@[simp] theorem State.markPoints_launches (s : State) : s.markPoints.launches = s.launches.map s.markPoint := rfl

/-! ### A loader or a drain beside the firing (R251) -/

/-- What such a step answers: its own next state, with what the firing waits for as it was. -/
theorem State.beside_of_next (s u : State) (get : Elem → Option Needs) (put : Elem → Option Needs → Elem) (run : State → Out)
    (h : run (s.onElem fun e => { e with blocked := get e }) = .next u) :
    s.beside get put run = .next (u.onElem fun e => { put e e.blocked with blocked := s.elem.blocked }) := by
  unfold State.beside; rw [h]

/-! ### The end of a launch (R282) -/

@[simp] theorem State.dropReservations_mem (s : State) (cs : List Nat) : (s.dropReservations cs).mem = s.mem := rfl
@[simp] theorem State.dropReservations_launches (s : State) (cs : List Nat) : (s.dropReservations cs).launches = s.launches := rfl
@[simp] theorem State.dropReservations_ctx (s : State) (cs : List Nat) (t : BitVec 6) : (s.dropReservations cs).ctx t = s.ctx t := rfl
@[simp] theorem State.dropReservations_net (s : State) (cs : List Nat) : (s.dropReservations cs).net = s.net := rfl

end Sys2Proof.Machine
end

