-- ==== Sys2Proof/Laws/PerInstr.lean ====
section
/-! SUPPORT. Statements for every instruction, a lemma for each constructor. `Form`: no instruction has both
words of the sequencer and an operation word, and an event has neither (R87, R89, R189). CNT_SEL, TSTAT and loop-register writes and
the trap of an unassigned word have neither as well: they are what CSRW and an issue do. -/

namespace Sys2Proof.Laws

/-- At most one of the encodings, and none for an event. -/
def Form.Statement (i : Instr) : Prop :=
  (encode i = [] ∨ encodeEow i = none) ∧ (Machine.isEvent i = true → encode i = [] ∧ encodeEow i = none)

theorem Form.add (d : SReg) (a : SReg) (b : SReg) : Form.Statement (.add d a b) := ⟨.inr rfl, fun h => Bool.noConfusion h⟩
theorem Form.sub (d : SReg) (a : SReg) (b : SReg) : Form.Statement (.sub d a b) := ⟨.inr rfl, fun h => Bool.noConfusion h⟩
theorem Form.mul (d : SReg) (a : SReg) (b : SReg) : Form.Statement (.mul d a b) := ⟨.inr rfl, fun h => Bool.noConfusion h⟩
theorem Form.mulh (d : SReg) (a : SReg) (b : SReg) : Form.Statement (.mulh d a b) := ⟨.inr rfl, fun h => Bool.noConfusion h⟩
theorem Form.mulhn (d : SReg) (a : SReg) (b : SReg) : Form.Statement (.mulhn d a b) := ⟨.inr rfl, fun h => Bool.noConfusion h⟩
theorem Form.div (d : SReg) (a : SReg) (b : SReg) : Form.Statement (.div d a b) := ⟨.inr rfl, fun h => Bool.noConfusion h⟩
theorem Form.divn (d : SReg) (a : SReg) (b : SReg) : Form.Statement (.divn d a b) := ⟨.inr rfl, fun h => Bool.noConfusion h⟩
theorem Form.rem (d : SReg) (a : SReg) (b : SReg) : Form.Statement (.rem d a b) := ⟨.inr rfl, fun h => Bool.noConfusion h⟩
theorem Form.remn (d : SReg) (a : SReg) (b : SReg) : Form.Statement (.remn d a b) := ⟨.inr rfl, fun h => Bool.noConfusion h⟩
theorem Form.and (d : SReg) (a : SReg) (b : SReg) : Form.Statement (.and d a b) := ⟨.inr rfl, fun h => Bool.noConfusion h⟩
theorem Form.or (d : SReg) (a : SReg) (b : SReg) : Form.Statement (.or d a b) := ⟨.inr rfl, fun h => Bool.noConfusion h⟩
theorem Form.xor (d : SReg) (a : SReg) (b : SReg) : Form.Statement (.xor d a b) := ⟨.inr rfl, fun h => Bool.noConfusion h⟩
theorem Form.shl (d : SReg) (a : SReg) (b : SReg) : Form.Statement (.shl d a b) := ⟨.inr rfl, fun h => Bool.noConfusion h⟩
theorem Form.shr (d : SReg) (a : SReg) (b : SReg) : Form.Statement (.shr d a b) := ⟨.inr rfl, fun h => Bool.noConfusion h⟩
theorem Form.sha (d : SReg) (a : SReg) (b : SReg) : Form.Statement (.sha d a b) := ⟨.inr rfl, fun h => Bool.noConfusion h⟩
theorem Form.min (d : SReg) (a : SReg) (b : SReg) : Form.Statement (.min d a b) := ⟨.inr rfl, fun h => Bool.noConfusion h⟩
theorem Form.max (d : SReg) (a : SReg) (b : SReg) : Form.Statement (.max d a b) := ⟨.inr rfl, fun h => Bool.noConfusion h⟩
theorem Form.minn (d : SReg) (a : SReg) (b : SReg) : Form.Statement (.minn d a b) := ⟨.inr rfl, fun h => Bool.noConfusion h⟩
theorem Form.maxn (d : SReg) (a : SReg) (b : SReg) : Form.Statement (.maxn d a b) := ⟨.inr rfl, fun h => Bool.noConfusion h⟩
theorem Form.clz (d : SReg) (a : SReg) : Form.Statement (.clz d a) := ⟨.inr rfl, fun h => Bool.noConfusion h⟩
theorem Form.popc (d : SReg) (a : SReg) : Form.Statement (.popc d a) := ⟨.inr rfl, fun h => Bool.noConfusion h⟩
theorem Form.sel (d : SReg) (a : SReg) (b : SReg) (n : PReg) : Form.Statement (.sel d a b n) := ⟨.inr rfl, fun h => Bool.noConfusion h⟩
theorem Form.addi (d : SReg) (a : SReg) (i : BitVec 16) : Form.Statement (.addi d a i) := ⟨.inr rfl, fun h => Bool.noConfusion h⟩
theorem Form.andi (d : SReg) (a : SReg) (i : BitVec 16) : Form.Statement (.andi d a i) := ⟨.inr rfl, fun h => Bool.noConfusion h⟩
theorem Form.ori (d : SReg) (a : SReg) (i : BitVec 16) : Form.Statement (.ori d a i) := ⟨.inr rfl, fun h => Bool.noConfusion h⟩
theorem Form.xori (d : SReg) (a : SReg) (i : BitVec 16) : Form.Statement (.xori d a i) := ⟨.inr rfl, fun h => Bool.noConfusion h⟩
theorem Form.shli (d : SReg) (a : SReg) (n : BitVec 6) : Form.Statement (.shli d a n) := ⟨.inr rfl, fun h => Bool.noConfusion h⟩
theorem Form.shri (d : SReg) (a : SReg) (n : BitVec 6) : Form.Statement (.shri d a n) := ⟨.inr rfl, fun h => Bool.noConfusion h⟩
theorem Form.shai (d : SReg) (a : SReg) (n : BitVec 6) : Form.Statement (.shai d a n) := ⟨.inr rfl, fun h => Bool.noConfusion h⟩
theorem Form.lih (d : SReg) (i : BitVec 16) : Form.Statement (.lih d i) := ⟨.inr rfl, fun h => Bool.noConfusion h⟩
theorem Form.addiLong (d : SReg) (a : SReg) (i : BitVec 42) : Form.Statement (.addiLong d a i) := ⟨.inr rfl, fun h => Bool.noConfusion h⟩
theorem Form.andiLong (d : SReg) (a : SReg) (i : BitVec 42) : Form.Statement (.andiLong d a i) := ⟨.inr rfl, fun h => Bool.noConfusion h⟩
theorem Form.oriLong (d : SReg) (a : SReg) (i : BitVec 42) : Form.Statement (.oriLong d a i) := ⟨.inr rfl, fun h => Bool.noConfusion h⟩
theorem Form.xoriLong (d : SReg) (a : SReg) (i : BitVec 42) : Form.Statement (.xoriLong d a i) := ⟨.inr rfl, fun h => Bool.noConfusion h⟩
theorem Form.cmpiLong (c : BitVec 2) (q : PReg) (a : SReg) (i : BitVec 42) : Form.Statement (.cmpiLong c q a i) := ⟨.inr rfl, fun h => Bool.noConfusion h⟩
theorem Form.cmpiNaturalLong (c : BitVec 1) (q : PReg) (a : SReg) (i : BitVec 42) : Form.Statement (.cmpiNaturalLong c q a i) := ⟨.inr rfl, fun h => Bool.noConfusion h⟩
theorem Form.ldLong (d : SReg) (a : SReg) (n : BitVec 1) (w : BitVec 2) (i : BitVec 39) : Form.Statement (.ldLong d a n w i) := ⟨.inr rfl, fun h => Bool.noConfusion h⟩
theorem Form.stLong (d : SReg) (a : SReg) (w : BitVec 2) (i : BitVec 39) : Form.Statement (.stLong d a w i) := ⟨.inr rfl, fun h => Bool.noConfusion h⟩
theorem Form.ldlStlLong (d : SReg) (a : SReg) (n : BitVec 1) (w : BitVec 2) (i : BitVec 39) : Form.Statement (.ldlStlLong d a n w i) := ⟨.inr rfl, fun h => Bool.noConfusion h⟩
theorem Form.jalLong (d : SReg) (i : BitVec 42) : Form.Statement (.jalLong d i) := ⟨.inr rfl, fun h => Bool.noConfusion h⟩
theorem Form.cmp (q : PReg) (a : SReg) (b : SReg) (c : BitVec 3) : Form.Statement (.cmp q a b c) := ⟨.inr rfl, fun h => Bool.noConfusion h⟩
theorem Form.cmpi (c : BitVec 2) (q : PReg) (a : SReg) (i : BitVec 16) : Form.Statement (.cmpi c q a i) := ⟨.inr rfl, fun h => Bool.noConfusion h⟩
theorem Form.cmpiNatural (c : BitVec 1) (q : PReg) (a : SReg) (i : BitVec 16) : Form.Statement (.cmpiNatural c q a i) := ⟨.inr rfl, fun h => Bool.noConfusion h⟩
theorem Form.pand (d : PReg) (a : PReg) (b : PReg) : Form.Statement (.pand d a b) := ⟨.inr rfl, fun h => Bool.noConfusion h⟩
theorem Form.por (d : PReg) (a : PReg) (b : PReg) : Form.Statement (.por d a b) := ⟨.inr rfl, fun h => Bool.noConfusion h⟩
theorem Form.pnot (d : PReg) (a : PReg) : Form.Statement (.pnot d a) := ⟨.inr rfl, fun h => Bool.noConfusion h⟩
theorem Form.ld (d : SReg) (a : SReg) (w : BitVec 2) (i : BitVec 13) : Form.Statement (.ld d a w i) := ⟨.inr rfl, fun h => Bool.noConfusion h⟩
theorem Form.ldn (d : SReg) (a : SReg) (w : BitVec 2) (i : BitVec 13) : Form.Statement (.ldn d a w i) := ⟨.inr rfl, fun h => Bool.noConfusion h⟩
theorem Form.st (d : SReg) (a : SReg) (w : BitVec 2) (i : BitVec 13) : Form.Statement (.st d a w i) := ⟨.inr rfl, fun h => Bool.noConfusion h⟩
theorem Form.ldl (d : SReg) (a : SReg) (w : BitVec 2) (i : BitVec 13) : Form.Statement (.ldl d a w i) := ⟨.inr rfl, fun h => Bool.noConfusion h⟩
theorem Form.stl (d : SReg) (a : SReg) (w : BitVec 2) (i : BitVec 13) : Form.Statement (.stl d a w i) := ⟨.inr rfl, fun h => Bool.noConfusion h⟩
theorem Form.amoAdd (d : SReg) (a : SReg) (b : SReg) (w : BitVec 1) : Form.Statement (.amoAdd d a b w) := ⟨.inr rfl, fun h => Bool.noConfusion h⟩
theorem Form.amoFadd (d : SReg) (a : SReg) (b : SReg) : Form.Statement (.amoFadd d a b) := ⟨.inr rfl, fun h => Bool.noConfusion h⟩
theorem Form.amoBadd (d : SReg) (a : SReg) (b : SReg) : Form.Statement (.amoBadd d a b) := ⟨.inr rfl, fun h => Bool.noConfusion h⟩
theorem Form.amoMin (d : SReg) (a : SReg) (b : SReg) (w : BitVec 1) : Form.Statement (.amoMin d a b w) := ⟨.inr rfl, fun h => Bool.noConfusion h⟩
theorem Form.amoMax (d : SReg) (a : SReg) (b : SReg) (w : BitVec 1) : Form.Statement (.amoMax d a b w) := ⟨.inr rfl, fun h => Bool.noConfusion h⟩
theorem Form.amoMinn (d : SReg) (a : SReg) (b : SReg) (w : BitVec 1) : Form.Statement (.amoMinn d a b w) := ⟨.inr rfl, fun h => Bool.noConfusion h⟩
theorem Form.amoMaxn (d : SReg) (a : SReg) (b : SReg) (w : BitVec 1) : Form.Statement (.amoMaxn d a b w) := ⟨.inr rfl, fun h => Bool.noConfusion h⟩
theorem Form.amoAnd (d : SReg) (a : SReg) (b : SReg) (w : BitVec 1) : Form.Statement (.amoAnd d a b w) := ⟨.inr rfl, fun h => Bool.noConfusion h⟩
theorem Form.amoOr (d : SReg) (a : SReg) (b : SReg) (w : BitVec 1) : Form.Statement (.amoOr d a b w) := ⟨.inr rfl, fun h => Bool.noConfusion h⟩
theorem Form.amoXor (d : SReg) (a : SReg) (b : SReg) (w : BitVec 1) : Form.Statement (.amoXor d a b w) := ⟨.inr rfl, fun h => Bool.noConfusion h⟩
theorem Form.amoSwap (d : SReg) (a : SReg) (b : SReg) (w : BitVec 1) : Form.Statement (.amoSwap d a b w) := ⟨.inr rfl, fun h => Bool.noConfusion h⟩
theorem Form.amoCas (d : SReg) (a : SReg) (b : SReg) (w : BitVec 1) : Form.Statement (.amoCas d a b w) := ⟨.inr rfl, fun h => Bool.noConfusion h⟩
theorem Form.amoIncw (d : SReg) (a : SReg) (b : SReg) (w : BitVec 1) : Form.Statement (.amoIncw d a b w) := ⟨.inr rfl, fun h => Bool.noConfusion h⟩
theorem Form.b (p : PReg) (n : BitVec 1) (i : BitVec 22) : Form.Statement (.b p n i) := ⟨.inr rfl, fun h => Bool.noConfusion h⟩
theorem Form.jal (d : SReg) (i : BitVec 16) : Form.Statement (.jal d i) := ⟨.inr rfl, fun h => Bool.noConfusion h⟩
theorem Form.br (a : SReg) : Form.Statement (.br a) := ⟨.inr rfl, fun h => Bool.noConfusion h⟩
theorem Form.jr (d : SReg) (a : SReg) : Form.Statement (.jr d a) := ⟨.inr rfl, fun h => Bool.noConfusion h⟩
theorem Form.loopImm (l : BitVec 2) (c : BitVec 11) (o : BitVec 12) : Form.Statement (.loopImm l c o) := ⟨.inr rfl, fun h => Bool.noConfusion h⟩
theorem Form.loopReg (l : BitVec 2) (x : SReg) (o : BitVec 12) : Form.Statement (.loopReg l x o) := ⟨.inr rfl, fun h => Bool.noConfusion h⟩
theorem Form.loopsImm (l : BitVec 2) (c : BitVec 11) (o : BitVec 12) : Form.Statement (.loopsImm l c o) := ⟨.inr rfl, fun h => Bool.noConfusion h⟩
theorem Form.loopsReg (l : BitVec 2) (x : SReg) (o : BitVec 12) : Form.Statement (.loopsReg l x o) := ⟨.inr rfl, fun h => Bool.noConfusion h⟩
theorem Form.lbrk (l : BitVec 2) : Form.Statement (.lbrk l) := ⟨.inr rfl, fun h => Bool.noConfusion h⟩
theorem Form.barArv (d : SReg) (a : SReg) (p : PReg) : Form.Statement (.barArv d a p) := ⟨.inr rfl, fun h => Bool.noConfusion h⟩
theorem Form.barWt (d : SReg) (a : SReg) (b : SReg) (p : PReg) : Form.Statement (.barWt d a b p) := ⟨.inr rfl, fun h => Bool.noConfusion h⟩
theorem Form.barSyn (d : SReg) (a : SReg) (p : PReg) : Form.Statement (.barSyn d a p) := ⟨.inr rfl, fun h => Bool.noConfusion h⟩
theorem Form.barPhs (d : SReg) (a : SReg) (p : PReg) : Form.Statement (.barPhs d a p) := ⟨.inr rfl, fun h => Bool.noConfusion h⟩
theorem Form.barMap (d : SReg) (a : SReg) (b : SReg) (p : PReg) : Form.Statement (.barMap d a b p) := ⟨.inr rfl, fun h => Bool.noConfusion h⟩
theorem Form.cfgLd (d : SReg) (a : SReg) (b : SReg) (c : SReg) (p : PReg) : Form.Statement (.cfgLd d a b c p) := ⟨.inr rfl, fun h => Bool.noConfusion h⟩
theorem Form.cfgSwp (d : SReg) (p : PReg) : Form.Statement (.cfgSwp d p) := ⟨.inr rfl, fun h => Bool.noConfusion h⟩
theorem Form.cfgDrn (d : SReg) (p : PReg) : Form.Statement (.cfgDrn d p) := ⟨.inr rfl, fun h => Bool.noConfusion h⟩
theorem Form.cfgWt (d : SReg) (p : PReg) : Form.Statement (.cfgWt d p) := ⟨.inr rfl, fun h => Bool.noConfusion h⟩
theorem Form.cfgSel (d : SReg) (a : SReg) (b : SReg) (c : SReg) (p : PReg) : Form.Statement (.cfgSel d a b c p) := ⟨.inr rfl, fun h => Bool.noConfusion h⟩
theorem Form.cfgQry (d : SReg) (a : SReg) (p : PReg) : Form.Statement (.cfgQry d a p) := ⟨.inr rfl, fun h => Bool.noConfusion h⟩
theorem Form.tokInj (d : SReg) (a : SReg) (b : SReg) (c : SReg) (p : PReg) : Form.Statement (.tokInj d a b c p) := ⟨.inr rfl, fun h => Bool.noConfusion h⟩
theorem Form.tokTake (d : SReg) (a : SReg) (p : PReg) : Form.Statement (.tokTake d a p) := ⟨.inr rfl, fun h => Bool.noConfusion h⟩
theorem Form.tokMark (d : SReg) (a : SReg) (b : SReg) (p : PReg) : Form.Statement (.tokMark d a b p) := ⟨.inr rfl, fun h => Bool.noConfusion h⟩
theorem Form.trap (i : BitVec 16) : Form.Statement (.trap i) := ⟨.inr rfl, fun h => Bool.noConfusion h⟩
theorem Form.csrr (d : SReg) (n : BitVec 12) : Form.Statement (.csrr d n) := ⟨.inr rfl, fun h => Bool.noConfusion h⟩
theorem Form.csrw (a : SReg) (n : BitVec 12) : Form.Statement (.csrw a n) := ⟨.inr rfl, fun h => Bool.noConfusion h⟩
theorem Form.csrs (a : SReg) (n : BitVec 12) : Form.Statement (.csrs a n) := ⟨.inr rfl, fun h => Bool.noConfusion h⟩
theorem Form.loopRegisterWrite (r : BitVec 12) (v : Word) : Form.Statement (.loopRegisterWrite r v) := ⟨.inl rfl, fun h => Bool.noConfusion h⟩
theorem Form.cntSelWrite (v : Word) : Form.Statement (.cntSelWrite v) := ⟨.inl rfl, fun h => Bool.noConfusion h⟩
theorem Form.tstatWrite (v : Word) : Form.Statement (.tstatWrite v) := ⟨.inl rfl, fun h => Bool.noConfusion h⟩
theorem Form.evt (a : SReg) : Form.Statement (.evt a) := ⟨.inr rfl, fun h => Bool.noConfusion h⟩
theorem Form.seedGet (d : SReg) : Form.Statement (.seedGet d) := ⟨.inr rfl, fun h => Bool.noConfusion h⟩
theorem Form.fenceAcq (s : BitVec 2) : Form.Statement (.fenceAcq s) := ⟨.inr rfl, fun h => Bool.noConfusion h⟩
theorem Form.fenceRel (s : BitVec 2) : Form.Statement (.fenceRel s) := ⟨.inr rfl, fun h => Bool.noConfusion h⟩
theorem Form.ckpt (d : SReg) (a : SReg) (b : SReg) (p : PReg) : Form.Statement (.ckpt d a b p) := ⟨.inr rfl, fun h => Bool.noConfusion h⟩
theorem Form.launch (d : SReg) (a : SReg) (p : PReg) : Form.Statement (.launch d a p) := ⟨.inr rfl, fun h => Bool.noConfusion h⟩
theorem Form.shpMk (d : SReg) (a : SReg) (b : SReg) (p : PReg) : Form.Statement (.shpMk d a b p) := ⟨.inr rfl, fun h => Bool.noConfusion h⟩
theorem Form.strmLd (d : SReg) (a : SReg) (b : SReg) (c : SReg) (p : PReg) : Form.Statement (.strmLd d a b c p) := ⟨.inr rfl, fun h => Bool.noConfusion h⟩
theorem Form.strmSv (d : SReg) (a : SReg) (b : SReg) (c : SReg) (p : PReg) : Form.Statement (.strmSv d a b c p) := ⟨.inr rfl, fun h => Bool.noConfusion h⟩
theorem Form.strmCp (d : SReg) (a : SReg) (b : SReg) (c : SReg) (p : PReg) : Form.Statement (.strmCp d a b c p) := ⟨.inr rfl, fun h => Bool.noConfusion h⟩
theorem Form.strmGa (d : SReg) (a : SReg) (b : SReg) (c : SReg) (p : PReg) : Form.Statement (.strmGa d a b c p) := ⟨.inr rfl, fun h => Bool.noConfusion h⟩
theorem Form.strmSc (d : SReg) (a : SReg) (b : SReg) (c : SReg) (p : PReg) : Form.Statement (.strmSc d a b c p) := ⟨.inr rfl, fun h => Bool.noConfusion h⟩
theorem Form.strmUpd (d : SReg) (a : SReg) (b : SReg) (c : SReg) (p : PReg) : Form.Statement (.strmUpd d a b c p) := ⟨.inr rfl, fun h => Bool.noConfusion h⟩
theorem Form.strmOrg (d : SReg) (a : SReg) (b : SReg) (p : PReg) : Form.Statement (.strmOrg d a b p) := ⟨.inr rfl, fun h => Bool.noConfusion h⟩
theorem Form.strmWt (d : SReg) (a : SReg) (p : PReg) : Form.Statement (.strmWt d a p) := ⟨.inr rfl, fun h => Bool.noConfusion h⟩
theorem Form.strmQry (d : SReg) (a : SReg) (p : PReg) : Form.Statement (.strmQry d a p) := ⟨.inr rfl, fun h => Bool.noConfusion h⟩
theorem Form.strmRsm (d : SReg) (a : SReg) (p : PReg) : Form.Statement (.strmRsm d a p) := ⟨.inr rfl, fun h => Bool.noConfusion h⟩
theorem Form.strmKil (d : SReg) (a : SReg) (p : PReg) : Form.Statement (.strmKil d a p) := ⟨.inr rfl, fun h => Bool.noConfusion h⟩
theorem Form.poolAl (d : SReg) (a : SReg) (p : PReg) : Form.Statement (.poolAl d a p) := ⟨.inr rfl, fun h => Bool.noConfusion h⟩
theorem Form.poolTal (d : SReg) (a : SReg) (p : PReg) : Form.Statement (.poolTal d a p) := ⟨.inr rfl, fun h => Bool.noConfusion h⟩
theorem Form.poolPb (d : SReg) (a : SReg) (b : SReg) (p : PReg) : Form.Statement (.poolPb d a b p) := ⟨.inr rfl, fun h => Bool.noConfusion h⟩
theorem Form.poolRd (d : SReg) (a : SReg) (b : SReg) (c : SReg) (p : PReg) : Form.Statement (.poolRd d a b c p) := ⟨.inr rfl, fun h => Bool.noConfusion h⟩
theorem Form.poolAb (d : SReg) (a : SReg) (b : SReg) (p : PReg) : Form.Statement (.poolAb d a b p) := ⟨.inr rfl, fun h => Bool.noConfusion h⟩
theorem Form.poolQry (d : SReg) (a : SReg) (b : SReg) (p : PReg) : Form.Statement (.poolQry d a b p) := ⟨.inr rfl, fun h => Bool.noConfusion h⟩
theorem Form.poolFnc (d : SReg) (a : SReg) (b : SReg) (p : PReg) : Form.Statement (.poolFnc d a b p) := ⟨.inr rfl, fun h => Bool.noConfusion h⟩
theorem Form.poolRsv (d : SReg) (a : SReg) (b : SReg) (p : PReg) : Form.Statement (.poolRsv d a b p) := ⟨.inr rfl, fun h => Bool.noConfusion h⟩
theorem Form.fadd (w : Eow) : Form.Statement (.fadd w) := ⟨.inl rfl, fun h => Bool.noConfusion h⟩
theorem Form.fsub (w : Eow) : Form.Statement (.fsub w) := ⟨.inl rfl, fun h => Bool.noConfusion h⟩
theorem Form.fmul (w : Eow) : Form.Statement (.fmul w) := ⟨.inl rfl, fun h => Bool.noConfusion h⟩
theorem Form.fma (w : Eow) : Form.Statement (.fma w) := ⟨.inl rfl, fun h => Bool.noConfusion h⟩
theorem Form.fms (w : Eow) : Form.Statement (.fms w) := ⟨.inl rfl, fun h => Bool.noConfusion h⟩
theorem Form.fnma (w : Eow) : Form.Statement (.fnma w) := ⟨.inl rfl, fun h => Bool.noConfusion h⟩
theorem Form.fmin (w : Eow) : Form.Statement (.fmin w) := ⟨.inl rfl, fun h => Bool.noConfusion h⟩
theorem Form.fmax (w : Eow) : Form.Statement (.fmax w) := ⟨.inl rfl, fun h => Bool.noConfusion h⟩
theorem Form.fabs (w : Eow) : Form.Statement (.fabs w) := ⟨.inl rfl, fun h => Bool.noConfusion h⟩
theorem Form.fneg (w : Eow) : Form.Statement (.fneg w) := ⟨.inl rfl, fun h => Bool.noConfusion h⟩
theorem Form.fcps (w : Eow) : Form.Statement (.fcps w) := ⟨.inl rfl, fun h => Bool.noConfusion h⟩
theorem Form.frcp (w : Eow) : Form.Statement (.frcp w) := ⟨.inl rfl, fun h => Bool.noConfusion h⟩
theorem Form.frsq (w : Eow) : Form.Statement (.frsq w) := ⟨.inl rfl, fun h => Bool.noConfusion h⟩
theorem Form.fsqrt (w : Eow) : Form.Statement (.fsqrt w) := ⟨.inl rfl, fun h => Bool.noConfusion h⟩
theorem Form.fex2 (w : Eow) : Form.Statement (.fex2 w) := ⟨.inl rfl, fun h => Bool.noConfusion h⟩
theorem Form.flg2 (w : Eow) : Form.Statement (.flg2 w) := ⟨.inl rfl, fun h => Bool.noConfusion h⟩
theorem Form.fcmp (w : Eow) : Form.Statement (.fcmp w) := ⟨.inl rfl, fun h => Bool.noConfusion h⟩
theorem Form.fcls (w : Eow) : Form.Statement (.fcls w) := ⟨.inl rfl, fun h => Bool.noConfusion h⟩
theorem Form.iadd (w : Eow) : Form.Statement (.iadd w) := ⟨.inl rfl, fun h => Bool.noConfusion h⟩
theorem Form.isub (w : Eow) : Form.Statement (.isub w) := ⟨.inl rfl, fun h => Bool.noConfusion h⟩
theorem Form.iadds (w : Eow) : Form.Statement (.iadds w) := ⟨.inl rfl, fun h => Bool.noConfusion h⟩
theorem Form.isubs (w : Eow) : Form.Statement (.isubs w) := ⟨.inl rfl, fun h => Bool.noConfusion h⟩
theorem Form.imul (w : Eow) : Form.Statement (.imul w) := ⟨.inl rfl, fun h => Bool.noConfusion h⟩
theorem Form.imulh (w : Eow) : Form.Statement (.imulh w) := ⟨.inl rfl, fun h => Bool.noConfusion h⟩
theorem Form.imad (w : Eow) : Form.Statement (.imad w) := ⟨.inl rfl, fun h => Bool.noConfusion h⟩
theorem Form.imulq (w : Eow) : Form.Statement (.imulq w) := ⟨.inl rfl, fun h => Bool.noConfusion h⟩
theorem Form.imin (w : Eow) : Form.Statement (.imin w) := ⟨.inl rfl, fun h => Bool.noConfusion h⟩
theorem Form.imax (w : Eow) : Form.Statement (.imax w) := ⟨.inl rfl, fun h => Bool.noConfusion h⟩
theorem Form.iabs (w : Eow) : Form.Statement (.iabs w) := ⟨.inl rfl, fun h => Bool.noConfusion h⟩
theorem Form.iand (w : Eow) : Form.Statement (.iand w) := ⟨.inl rfl, fun h => Bool.noConfusion h⟩
theorem Form.ior (w : Eow) : Form.Statement (.ior w) := ⟨.inl rfl, fun h => Bool.noConfusion h⟩
theorem Form.ixor (w : Eow) : Form.Statement (.ixor w) := ⟨.inl rfl, fun h => Bool.noConfusion h⟩
theorem Form.inot (w : Eow) : Form.Statement (.inot w) := ⟨.inl rfl, fun h => Bool.noConfusion h⟩
theorem Form.ishl (w : Eow) : Form.Statement (.ishl w) := ⟨.inl rfl, fun h => Bool.noConfusion h⟩
theorem Form.ishr (w : Eow) : Form.Statement (.ishr w) := ⟨.inl rfl, fun h => Bool.noConfusion h⟩
theorem Form.isha (w : Eow) : Form.Statement (.isha w) := ⟨.inl rfl, fun h => Bool.noConfusion h⟩
theorem Form.icmp (w : Eow) : Form.Statement (.icmp w) := ⟨.inl rfl, fun h => Bool.noConfusion h⟩
theorem Form.iclz (w : Eow) : Form.Statement (.iclz w) := ⟨.inl rfl, fun h => Bool.noConfusion h⟩
theorem Form.cvt (w : Eow) : Form.Statement (.cvt w) := ⟨.inl rfl, fun h => Bool.noConfusion h⟩
theorem Form.deq (w : Eow) : Form.Statement (.deq w) := ⟨.inl rfl, fun h => Bool.noConfusion h⟩
theorem Form.qnt (w : Eow) : Form.Statement (.qnt w) := ⟨.inl rfl, fun h => Bool.noConfusion h⟩
theorem Form.clmp (w : Eow) : Form.Statement (.clmp w) := ⟨.inl rfl, fun h => Bool.noConfusion h⟩
theorem Form.selLanes (w : Eow) : Form.Statement (.selLanes w) := ⟨.inl rfl, fun h => Bool.noConfusion h⟩
theorem Form.shuf (w : Eow) : Form.Statement (.shuf w) := ⟨.inl rfl, fun h => Bool.noConfusion h⟩
theorem Form.bcst (w : Eow) : Form.Statement (.bcst w) := ⟨.inl rfl, fun h => Bool.noConfusion h⟩
theorem Form.rotl (w : Eow) : Form.Statement (.rotl w) := ⟨.inl rfl, fun h => Bool.noConfusion h⟩
theorem Form.slid (w : Eow) : Form.Statement (.slid w) := ⟨.inl rfl, fun h => Bool.noConfusion h⟩
theorem Form.iota (w : Eow) : Form.Statement (.iota w) := ⟨.inl rfl, fun h => Bool.noConfusion h⟩
theorem Form.rsum (w : Eow) : Form.Statement (.rsum w) := ⟨.inl rfl, fun h => Bool.noConfusion h⟩
theorem Form.rmax (w : Eow) : Form.Statement (.rmax w) := ⟨.inl rfl, fun h => Bool.noConfusion h⟩
theorem Form.rmin (w : Eow) : Form.Statement (.rmin w) := ⟨.inl rfl, fun h => Bool.noConfusion h⟩
theorem Form.acc (w : Eow) : Form.Statement (.acc w) := ⟨.inl rfl, fun h => Bool.noConfusion h⟩
theorem Form.amax (w : Eow) : Form.Statement (.amax w) := ⟨.inl rfl, fun h => Bool.noConfusion h⟩
theorem Form.dot (w : Eow) : Form.Statement (.dot w) := ⟨.inl rfl, fun h => Bool.noConfusion h⟩
theorem Form.steer (w : Eow) : Form.Statement (.steer w) := ⟨.inl rfl, fun h => Bool.noConfusion h⟩
theorem Form.merge (w : Eow) : Form.Statement (.merge w) := ⟨.inl rfl, fun h => Bool.noConfusion h⟩
theorem Form.carry (w : Eow) : Form.Statement (.carry w) := ⟨.inl rfl, fun h => Bool.noConfusion h⟩
theorem Form.gate (w : Eow) : Form.Statement (.gate w) := ⟨.inl rfl, fun h => Bool.noConfusion h⟩
theorem Form.invar (w : Eow) : Form.Statement (.invar w) := ⟨.inl rfl, fun h => Bool.noConfusion h⟩
theorem Form.drop (w : Eow) : Form.Statement (.drop w) := ⟨.inl rfl, fun h => Bool.noConfusion h⟩
theorem Form.pass (w : Eow) : Form.Statement (.pass w) := ⟨.inl rfl, fun h => Bool.noConfusion h⟩
theorem Form.prmi (w : Eow) : Form.Statement (.prmi w) := ⟨.inl rfl, fun h => Bool.noConfusion h⟩
theorem Form.prmo (w : Eow) : Form.Statement (.prmo w) := ⟨.inl rfl, fun h => Bool.noConfusion h⟩
theorem Form.mkgn (w : Eow) : Form.Statement (.mkgn w) := ⟨.inl rfl, fun h => Bool.noConfusion h⟩
theorem Form.cntr (w : Eow) : Form.Statement (.cntr w) := ⟨.inl rfl, fun h => Bool.noConfusion h⟩
theorem Form.dly (w : Eow) : Form.Statement (.dly w) := ⟨.inl rfl, fun h => Bool.noConfusion h⟩
theorem Form.rmk (w : Eow) : Form.Statement (.rmk w) := ⟨.inl rfl, fun h => Bool.noConfusion h⟩
theorem Form.rfld (w : Eow) : Form.Statement (.rfld w) := ⟨.inl rfl, fun h => Bool.noConfusion h⟩
theorem Form.rins (w : Eow) : Form.Statement (.rins w) := ⟨.inl rfl, fun h => Bool.noConfusion h⟩
theorem Form.sent (w : Eow) : Form.Statement (.sent w) := ⟨.inl rfl, fun h => Bool.noConfusion h⟩
theorem Form.sret (w : Eow) : Form.Statement (.sret w) := ⟨.inl rfl, fun h => Bool.noConfusion h⟩
theorem Form.aloc (w : Eow) : Form.Statement (.aloc w) := ⟨.inl rfl, fun h => Bool.noConfusion h⟩
theorem Form.pwr (w : Eow) : Form.Statement (.pwr w) := ⟨.inl rfl, fun h => Bool.noConfusion h⟩
theorem Form.ppub (w : Eow) : Form.Statement (.ppub w) := ⟨.inl rfl, fun h => Bool.noConfusion h⟩
theorem Form.prq (w : Eow) : Form.Statement (.prq w) := ⟨.inl rfl, fun h => Bool.noConfusion h⟩
theorem Form.lut (w : Eow) : Form.Statement (.lut w) := ⟨.inl rfl, fun h => Bool.noConfusion h⟩
theorem Form.wld (w : Eow) : Form.Statement (.wld w) := ⟨.inl rfl, fun h => Bool.noConfusion h⟩
theorem Form.mrow (w : Eow) : Form.Statement (.mrow w) := ⟨.inl rfl, fun h => Bool.noConfusion h⟩
theorem Form.mdrn (w : Eow) : Form.Statement (.mdrn w) := ⟨.inl rfl, fun h => Bool.noConfusion h⟩
theorem Form.macc (w : Eow) : Form.Statement (.macc w) := ⟨.inl rfl, fun h => Bool.noConfusion h⟩
theorem Form.rtCfg (d : SReg) (a : SReg) (b : SReg) (p : PReg) : Form.Statement (.rtCfg d a b p) := ⟨.inr rfl, fun h => Bool.noConfusion h⟩
theorem Form.rtMode (d : SReg) (a : SReg) (b : SReg) (p : PReg) : Form.Statement (.rtMode d a b p) := ⟨.inr rfl, fun h => Bool.noConfusion h⟩
theorem Form.rtQry (d : SReg) (a : SReg) (p : PReg) : Form.Statement (.rtQry d a p) := ⟨.inr rfl, fun h => Bool.noConfusion h⟩
theorem Form.rtLog (d : SReg) (a : SReg) (b : SReg) (c : SReg) (p : PReg) : Form.Statement (.rtLog d a b c p) := ⟨.inr rfl, fun h => Bool.noConfusion h⟩
theorem Form.jrnProp (d : SReg) (a : SReg) (p : PReg) : Form.Statement (.jrnProp d a p) := ⟨.inr rfl, fun h => Bool.noConfusion h⟩
theorem Form.jrnSub (d : SReg) (a : SReg) (p : PReg) : Form.Statement (.jrnSub d a p) := ⟨.inr rfl, fun h => Bool.noConfusion h⟩
theorem Form.jrnUsub (d : SReg) (a : SReg) (p : PReg) : Form.Statement (.jrnUsub d a p) := ⟨.inr rfl, fun h => Bool.noConfusion h⟩
theorem Form.jrnPin (d : SReg) (a : SReg) (b : SReg) (p : PReg) : Form.Statement (.jrnPin d a b p) := ⟨.inr rfl, fun h => Bool.noConfusion h⟩
theorem Form.jrnUpin (d : SReg) (a : SReg) (p : PReg) : Form.Statement (.jrnUpin d a p) := ⟨.inr rfl, fun h => Bool.noConfusion h⟩
theorem Form.jrnVer (d : SReg) (a : SReg) (p : PReg) : Form.Statement (.jrnVer d a p) := ⟨.inr rfl, fun h => Bool.noConfusion h⟩
theorem Form.jrnRd (d : SReg) (a : SReg) (b : SReg) (p : PReg) : Form.Statement (.jrnRd d a b p) := ⟨.inr rfl, fun h => Bool.noConfusion h⟩
theorem Form.jrnRvt (d : SReg) (a : SReg) (p : PReg) : Form.Statement (.jrnRvt d a p) := ⟨.inr rfl, fun h => Bool.noConfusion h⟩
theorem Form.jrnExp (d : SReg) (a : SReg) (p : PReg) : Form.Statement (.jrnExp d a p) := ⟨.inr rfl, fun h => Bool.noConfusion h⟩
theorem Form.jrnLoad (d : SReg) (a : SReg) (p : PReg) : Form.Statement (.jrnLoad d a p) := ⟨.inr rfl, fun h => Bool.noConfusion h⟩
theorem Form.illegalOp (w : Word) : Form.Statement (.illegalOp w) := ⟨.inl rfl, fun h => Bool.noConfusion h⟩
theorem Form.loadReply : Form.Statement (.loadReply) := ⟨.inl rfl, fun _ => ⟨rfl, rfl⟩⟩
theorem Form.amoReply : Form.Statement (.amoReply) := ⟨.inl rfl, fun _ => ⟨rfl, rfl⟩⟩
theorem Form.barrierArrival : Form.Statement (.barrierArrival) := ⟨.inl rfl, fun _ => ⟨rfl, rfl⟩⟩
theorem Form.barrierWaitRelease : Form.Statement (.barrierWaitRelease) := ⟨.inl rfl, fun _ => ⟨rfl, rfl⟩⟩
theorem Form.cfgWtReturn : Form.Statement (.cfgWtReturn) := ⟨.inl rfl, fun _ => ⟨rfl, rfl⟩⟩
theorem Form.configStreamLoad : Form.Statement (.configStreamLoad) := ⟨.inl rfl, fun _ => ⟨rfl, rfl⟩⟩
theorem Form.sealChecksComplete : Form.Statement (.sealChecksComplete) := ⟨.inl rfl, fun _ => ⟨rfl, rfl⟩⟩
theorem Form.tokTakeReturn : Form.Statement (.tokTakeReturn) := ⟨.inl rfl, fun _ => ⟨rfl, rfl⟩⟩
theorem Form.takePortDrain : Form.Statement (.takePortDrain) := ⟨.inl rfl, fun _ => ⟨rfl, rfl⟩⟩
theorem Form.eret : Form.Statement (.eret) := ⟨.inr rfl, fun h => Bool.noConfusion h⟩
theorem Form.wfe : Form.Statement (.wfe) := ⟨.inr rfl, fun h => Bool.noConfusion h⟩
theorem Form.halt : Form.Statement (.halt) := ⟨.inr rfl, fun h => Bool.noConfusion h⟩
theorem Form.nop : Form.Statement (.nop) := ⟨.inr rfl, fun h => Bool.noConfusion h⟩
theorem Form.eventFlagDelivery : Form.Statement (.eventFlagDelivery) := ⟨.inl rfl, fun _ => ⟨rfl, rfl⟩⟩
theorem Form.wfeReturn : Form.Statement (.wfeReturn) := ⟨.inl rfl, fun _ => ⟨rfl, rfl⟩⟩
theorem Form.asyncTrapTake : Form.Statement (.asyncTrapTake) := ⟨.inl rfl, fun _ => ⟨rfl, rfl⟩⟩
theorem Form.strmWtReturn : Form.Statement (.strmWtReturn) := ⟨.inl rfl, fun _ => ⟨rfl, rfl⟩⟩
theorem Form.streamLinkAllocation : Form.Statement (.streamLinkAllocation) := ⟨.inl rfl, fun _ => ⟨rfl, rfl⟩⟩
theorem Form.streamSourceReply : Form.Statement (.streamSourceReply) := ⟨.inl rfl, fun _ => ⟨rfl, rfl⟩⟩
theorem Form.streamInputToken : Form.Statement (.streamInputToken) := ⟨.inl rfl, fun _ => ⟨rfl, rfl⟩⟩
theorem Form.streamDrainInput : Form.Statement (.streamDrainInput) := ⟨.inl rfl, fun _ => ⟨rfl, rfl⟩⟩
theorem Form.streamWritePerformed : Form.Statement (.streamWritePerformed) := ⟨.inl rfl, fun _ => ⟨rfl, rfl⟩⟩
theorem Form.streamComplete : Form.Statement (.streamComplete) := ⟨.inl rfl, fun _ => ⟨rfl, rfl⟩⟩
theorem Form.streamTranslationStop : Form.Statement (.streamTranslationStop) := ⟨.inl rfl, fun _ => ⟨rfl, rfl⟩⟩
theorem Form.streamDrainSend : Form.Statement (.streamDrainSend) := ⟨.inl rfl, fun _ => ⟨rfl, rfl⟩⟩
theorem Form.translationWalk : Form.Statement (.translationWalk) := ⟨.inl rfl, fun _ => ⟨rfl, rfl⟩⟩
theorem Form.tlbShootdown : Form.Statement (.tlbShootdown) := ⟨.inl rfl, fun _ => ⟨rfl, rfl⟩⟩
theorem Form.poolRemoteReply : Form.Statement (.poolRemoteReply) := ⟨.inl rfl, fun _ => ⟨rfl, rfl⟩⟩
theorem Form.poolAllocGrant : Form.Statement (.poolAllocGrant) := ⟨.inl rfl, fun _ => ⟨rfl, rfl⟩⟩
theorem Form.poolRemoteRequest : Form.Statement (.poolRemoteRequest) := ⟨.inl rfl, fun _ => ⟨rfl, rfl⟩⟩
theorem Form.bankAccess : Form.Statement (.bankAccess) := ⟨.inl rfl, fun _ => ⟨rfl, rfl⟩⟩
theorem Form.drainCollectorAbandon : Form.Statement (.drainCollectorAbandon) := ⟨.inl rfl, fun _ => ⟨rfl, rfl⟩⟩
theorem Form.allocWaitProbeTimer : Form.Statement (.allocWaitProbeTimer) := ⟨.inl rfl, fun _ => ⟨rfl, rfl⟩⟩
theorem Form.parkedReadProbeTimer : Form.Statement (.parkedReadProbeTimer) := ⟨.inl rfl, fun _ => ⟨rfl, rfl⟩⟩
theorem Form.probeArrival : Form.Statement (.probeArrival) := ⟨.inl rfl, fun _ => ⟨rfl, rfl⟩⟩
theorem Form.bankMove : Form.Statement (.bankMove) := ⟨.inl rfl, fun _ => ⟨rfl, rfl⟩⟩
theorem Form.bankZeroiseComplete : Form.Statement (.bankZeroiseComplete) := ⟨.inl rfl, fun _ => ⟨rfl, rfl⟩⟩
theorem Form.bankBusyExpiry : Form.Statement (.bankBusyExpiry) := ⟨.inl rfl, fun _ => ⟨rfl, rfl⟩⟩
theorem Form.tokenArrival : Form.Statement (.tokenArrival) := ⟨.inl rfl, fun _ => ⟨rfl, rfl⟩⟩
theorem Form.freeCountReturn : Form.Statement (.freeCountReturn) := ⟨.inl rfl, fun _ => ⟨rfl, rfl⟩⟩
theorem Form.permitDenyDrop : Form.Statement (.permitDenyDrop) := ⟨.inl rfl, fun _ => ⟨rfl, rfl⟩⟩
theorem Form.routeBroken : Form.Statement (.routeBroken) := ⟨.inl rfl, fun _ => ⟨rfl, rfl⟩⟩
theorem Form.roundClose : Form.Statement (.roundClose) := ⟨.inl rfl, fun _ => ⟨rfl, rfl⟩⟩
theorem Form.elementDrainPass : Form.Statement (.elementDrainPass) := ⟨.inl rfl, fun _ => ⟨rfl, rfl⟩⟩
theorem Form.haltedDiscard : Form.Statement (.haltedDiscard) := ⟨.inl rfl, fun _ => ⟨rfl, rfl⟩⟩
theorem Form.coreDrainReport : Form.Statement (.coreDrainReport) := ⟨.inl rfl, fun _ => ⟨rfl, rfl⟩⟩
theorem Form.drainBeginNotice : Form.Statement (.drainBeginNotice) := ⟨.inl rfl, fun _ => ⟨rfl, rfl⟩⟩
theorem Form.drainResolution : Form.Statement (.drainResolution) := ⟨.inl rfl, fun _ => ⟨rfl, rfl⟩⟩
theorem Form.resolutionApply : Form.Statement (.resolutionApply) := ⟨.inl rfl, fun _ => ⟨rfl, rfl⟩⟩
theorem Form.mkgnMarkInsert : Form.Statement (.mkgnMarkInsert) := ⟨.inl rfl, fun _ => ⟨rfl, rfl⟩⟩
theorem Form.poolReadReply : Form.Statement (.poolReadReply) := ⟨.inl rfl, fun _ => ⟨rfl, rfl⟩⟩
theorem Form.weightLoaderRow : Form.Statement (.weightLoaderRow) := ⟨.inl rfl, fun _ => ⟨rfl, rfl⟩⟩
theorem Form.bankAccumulateWrite : Form.Statement (.bankAccumulateWrite) := ⟨.inl rfl, fun _ => ⟨rfl, rfl⟩⟩
theorem Form.matrixDrain : Form.Statement (.matrixDrain) := ⟨.inl rfl, fun _ => ⟨rfl, rfl⟩⟩
theorem Form.routerAdmission : Form.Statement (.routerAdmission) := ⟨.inl rfl, fun _ => ⟨rfl, rfl⟩⟩
theorem Form.routerDraw : Form.Statement (.routerDraw) := ⟨.inl rfl, fun _ => ⟨rfl, rfl⟩⟩
theorem Form.routerReturn : Form.Statement (.routerReturn) := ⟨.inl rfl, fun _ => ⟨rfl, rfl⟩⟩
theorem Form.routerExit : Form.Statement (.routerExit) := ⟨.inl rfl, fun _ => ⟨rfl, rfl⟩⟩
theorem Form.sideStore : Form.Statement (.sideStore) := ⟨.inl rfl, fun _ => ⟨rfl, rfl⟩⟩
theorem Form.routerDrain : Form.Statement (.routerDrain) := ⟨.inl rfl, fun _ => ⟨rfl, rfl⟩⟩
theorem Form.supdWindowGrant : Form.Statement (.supdWindowGrant) := ⟨.inl rfl, fun _ => ⟨rfl, rfl⟩⟩
theorem Form.supdApply : Form.Statement (.supdApply) := ⟨.inl rfl, fun _ => ⟨rfl, rfl⟩⟩
theorem Form.journalExportComplete : Form.Statement (.journalExportComplete) := ⟨.inl rfl, fun _ => ⟨rfl, rfl⟩⟩
theorem Form.journalLoadStep : Form.Statement (.journalLoadStep) := ⟨.inl rfl, fun _ => ⟨rfl, rfl⟩⟩
theorem Form.progressWindowExpiry : Form.Statement (.progressWindowExpiry) := ⟨.inl rfl, fun _ => ⟨rfl, rfl⟩⟩
theorem Form.trialEnd : Form.Statement (.trialEnd) := ⟨.inl rfl, fun _ => ⟨rfl, rfl⟩⟩
theorem Form.controllerProposal : Form.Statement (.controllerProposal) := ⟨.inl rfl, fun _ => ⟨rfl, rfl⟩⟩
theorem Form.kick : Form.Statement (.kick) := ⟨.inl rfl, fun _ => ⟨rfl, rfl⟩⟩
theorem Form.queueMap : Form.Statement (.queueMap) := ⟨.inl rfl, fun _ => ⟨rfl, rfl⟩⟩
theorem Form.queueUnmap : Form.Statement (.queueUnmap) := ⟨.inl rfl, fun _ => ⟨rfl, rfl⟩⟩
theorem Form.queueRegister : Form.Statement (.queueRegister) := ⟨.inl rfl, fun _ => ⟨rfl, rfl⟩⟩
theorem Form.queueArbitration : Form.Statement (.queueArbitration) := ⟨.inl rfl, fun _ => ⟨rfl, rfl⟩⟩
theorem Form.nopPacket : Form.Statement (.nopPacket) := ⟨.inl rfl, fun _ => ⟨rfl, rfl⟩⟩
theorem Form.launchPacket : Form.Statement (.launchPacket) := ⟨.inl rfl, fun _ => ⟨rfl, rfl⟩⟩
theorem Form.signalPacket : Form.Statement (.signalPacket) := ⟨.inl rfl, fun _ => ⟨rfl, rfl⟩⟩
theorem Form.waitPacket : Form.Statement (.waitPacket) := ⟨.inl rfl, fun _ => ⟨rfl, rfl⟩⟩
theorem Form.waitReread : Form.Statement (.waitReread) := ⟨.inl rfl, fun _ => ⟨rfl, rfl⟩⟩
theorem Form.seedPush : Form.Statement (.seedPush) := ⟨.inl rfl, fun _ => ⟨rfl, rfl⟩⟩
theorem Form.seedPop : Form.Statement (.seedPop) := ⟨.inl rfl, fun _ => ⟨rfl, rfl⟩⟩
theorem Form.seedFork : Form.Statement (.seedFork) := ⟨.inl rfl, fun _ => ⟨rfl, rfl⟩⟩
theorem Form.jrnPacketProp : Form.Statement (.jrnPacketProp) := ⟨.inl rfl, fun _ => ⟨rfl, rfl⟩⟩
theorem Form.jrnPacketRvt : Form.Statement (.jrnPacketRvt) := ⟨.inl rfl, fun _ => ⟨rfl, rfl⟩⟩
theorem Form.jrnPacketExp : Form.Statement (.jrnPacketExp) := ⟨.inl rfl, fun _ => ⟨rfl, rfl⟩⟩
theorem Form.jrnPacketLoad : Form.Statement (.jrnPacketLoad) := ⟨.inl rfl, fun _ => ⟨rfl, rfl⟩⟩
theorem Form.launchPlacement : Form.Statement (.launchPlacement) := ⟨.inl rfl, fun _ => ⟨rfl, rfl⟩⟩
theorem Form.launchCompletion : Form.Statement (.launchCompletion) := ⟨.inl rfl, fun _ => ⟨rfl, rfl⟩⟩
theorem Form.contextTeardown : Form.Statement (.contextTeardown) := ⟨.inl rfl, fun _ => ⟨rfl, rfl⟩⟩
theorem Form.preemptRequest : Form.Statement (.preemptRequest) := ⟨.inl rfl, fun _ => ⟨rfl, rfl⟩⟩
theorem Form.checkpointSave : Form.Statement (.checkpointSave) := ⟨.inl rfl, fun _ => ⟨rfl, rfl⟩⟩
theorem Form.ckptOverdue : Form.Statement (.ckptOverdue) := ⟨.inl rfl, fun _ => ⟨rfl, rfl⟩⟩
theorem Form.contextRestore : Form.Statement (.contextRestore) := ⟨.inl rfl, fun _ => ⟨rfl, rfl⟩⟩
theorem Form.handoverPhase1 : Form.Statement (.handoverPhase1) := ⟨.inl rfl, fun _ => ⟨rfl, rfl⟩⟩
theorem Form.handoverPhase2 : Form.Statement (.handoverPhase2) := ⟨.inl rfl, fun _ => ⟨rfl, rfl⟩⟩
theorem Form.create : Form.Statement (.create) := ⟨.inl rfl, fun _ => ⟨rfl, rfl⟩⟩
theorem Form.registerObject : Form.Statement (.registerObject) := ⟨.inl rfl, fun _ => ⟨rfl, rfl⟩⟩
theorem Form.sealContext : Form.Statement (.sealContext) := ⟨.inl rfl, fun _ => ⟨rfl, rfl⟩⟩
theorem Form.getVersion : Form.Statement (.getVersion) := ⟨.inl rfl, fun _ => ⟨rfl, rfl⟩⟩
theorem Form.getCapabilities : Form.Statement (.getCapabilities) := ⟨.inl rfl, fun _ => ⟨rfl, rfl⟩⟩
theorem Form.negotiateAlgorithms : Form.Statement (.negotiateAlgorithms) := ⟨.inl rfl, fun _ => ⟨rfl, rfl⟩⟩
theorem Form.getDigests : Form.Statement (.getDigests) := ⟨.inl rfl, fun _ => ⟨rfl, rfl⟩⟩
theorem Form.getCertificate : Form.Statement (.getCertificate) := ⟨.inl rfl, fun _ => ⟨rfl, rfl⟩⟩
theorem Form.challenge : Form.Statement (.challenge) := ⟨.inl rfl, fun _ => ⟨rfl, rfl⟩⟩
theorem Form.getMeasurements : Form.Statement (.getMeasurements) := ⟨.inl rfl, fun _ => ⟨rfl, rfl⟩⟩
theorem Form.keyExchange : Form.Statement (.keyExchange) := ⟨.inl rfl, fun _ => ⟨rfl, rfl⟩⟩
theorem Form.finish : Form.Statement (.finish) := ⟨.inl rfl, fun _ => ⟨rfl, rfl⟩⟩
theorem Form.heartbeat : Form.Statement (.heartbeat) := ⟨.inl rfl, fun _ => ⟨rfl, rfl⟩⟩
theorem Form.keyUpdate : Form.Statement (.keyUpdate) := ⟨.inl rfl, fun _ => ⟨rfl, rfl⟩⟩
theorem Form.endSession : Form.Statement (.endSession) := ⟨.inl rfl, fun _ => ⟨rfl, rfl⟩⟩
theorem Form.measurementExtend : Form.Statement (.measurementExtend) := ⟨.inl rfl, fun _ => ⟨rfl, rfl⟩⟩
theorem Form.tagCheckPass : Form.Statement (.tagCheckPass) := ⟨.inl rfl, fun _ => ⟨rfl, rfl⟩⟩
theorem Form.integrity : Form.Statement (.integrity) := ⟨.inl rfl, fun _ => ⟨rfl, rfl⟩⟩
theorem Form.rdmaWrite : Form.Statement (.rdmaWrite) := ⟨.inl rfl, fun _ => ⟨rfl, rfl⟩⟩
theorem Form.rdmaReadRequest : Form.Statement (.rdmaReadRequest) := ⟨.inl rfl, fun _ => ⟨rfl, rfl⟩⟩
theorem Form.readReply : Form.Statement (.readReply) := ⟨.inl rfl, fun _ => ⟨rfl, rfl⟩⟩
theorem Form.acknowledgment : Form.Statement (.acknowledgment) := ⟨.inl rfl, fun _ => ⟨rfl, rfl⟩⟩
theorem Form.managementMessage : Form.Statement (.managementMessage) := ⟨.inl rfl, fun _ => ⟨rfl, rfl⟩⟩
theorem Form.softErrorCorrected : Form.Statement (.softErrorCorrected) := ⟨.inl rfl, fun _ => ⟨rfl, rfl⟩⟩
theorem Form.uncorrectable : Form.Statement (.uncorrectable) := ⟨.inl rfl, fun _ => ⟨rfl, rfl⟩⟩
theorem Form.healthWindowExpiry : Form.Statement (.healthWindowExpiry) := ⟨.inl rfl, fun _ => ⟨rfl, rfl⟩⟩
theorem Form.coreRetire : Form.Statement (.coreRetire) := ⟨.inl rfl, fun _ => ⟨rfl, rfl⟩⟩
theorem Form.thermal : Form.Statement (.thermal) := ⟨.inl rfl, fun _ => ⟨rfl, rfl⟩⟩
theorem Form.supply : Form.Statement (.supply) := ⟨.inl rfl, fun _ => ⟨rfl, rfl⟩⟩
theorem Form.shutdown : Form.Statement (.shutdown) := ⟨.inl rfl, fun _ => ⟨rfl, rfl⟩⟩
theorem Form.debugUnlock : Form.Statement (.debugUnlock) := ⟨.inl rfl, fun _ => ⟨rfl, rfl⟩⟩
theorem Form.duskEntry : Form.Statement (.duskEntry) := ⟨.inl rfl, fun _ => ⟨rfl, rfl⟩⟩
theorem Form.duskExit : Form.Statement (.duskExit) := ⟨.inl rfl, fun _ => ⟨rfl, rfl⟩⟩
theorem Form.midnightEntry : Form.Statement (.midnightEntry) := ⟨.inl rfl, fun _ => ⟨rfl, rfl⟩⟩
theorem Form.wake : Form.Statement (.wake) := ⟨.inl rfl, fun _ => ⟨rfl, rfl⟩⟩
theorem Form.deviceReset : Form.Statement (.deviceReset) := ⟨.inl rfl, fun _ => ⟨rfl, rfl⟩⟩
theorem Form.storeCompletion : Form.Statement (.storeCompletion) := ⟨.inl rfl, fun _ => ⟨rfl, rfl⟩⟩
theorem Form.barrierCommandReply : Form.Statement (.barrierCommandReply) := ⟨.inl rfl, fun _ => ⟨rfl, rfl⟩⟩
theorem Form.journalReply : Form.Statement (.journalReply) := ⟨.inl rfl, fun _ => ⟨rfl, rfl⟩⟩
theorem Form.connectionRequest : Form.Statement (.connectionRequest) := ⟨.inl rfl, fun _ => ⟨rfl, rfl⟩⟩

end Sys2Proof.Laws
end

