-- ==== Sys2Proof/Tests/Slice0.lean ====
section
/-! SUPPORT. Tests of single steps, and a witness for the hypotheses of each statement. Expected values of `test_` theorems are worked
from the spec's tables and examples; `witness_` theorems show states and operands that meet the premises of the statement they name, a
conjunct or more for each clause. -/

open Sys2Proof Sys2Proof.Machine

namespace Sys2Proof.Tests

set_option maxRecDepth 20000
set_option Elab.async false

/-! ### States -/

/-- The state that an outcome answers. -/
def ok : Out → State
  | .next t => t
  | _ => State.reset

/-- Whether an outcome is a next state. -/
def goesOn : Out → Bool
  | .next _ => true
  | _ => false

/-- An outcome that goes on is a next state. -/
theorem goesOn_next {o : Out} (h : goesOn o = true) : ∃ t, o = .next t := by
  cases o with
  | next t => exact ⟨t, rfl⟩
  | _ => simp [goesOn] at h

/-- Core 0 changed, all else as after reset; core 0 has the turn, at F level. -/
def at0 (f : Core → Core) : State := State.reset.onCore 0 f

/-- A turn of core 0 with a unit, numbers and a flag. -/
def turn (u n m : Nat) (flag : Bool) (s : State) : State := { s with cur := { s.cur with unit := u, n := n, m := m, flag := flag } }

/-- Packets between the first cores on links that are open to them, with firmware's key slot filled (R402, R403). -/
def carrying (ps : List Packet) (s : State) : State :=
  { s.onCtx 0 (fun c => { c with slot := some (KeySlot.drawn 0) }) with net := ps, permit := [(0, 0xF0), (1, 0xF0), (2, 0xF0)] }

/-- Page tables of owner tag 0: virtual page 0 holds code at 0x40000 with the given word, virtual page 1 data at 0x50000. -/
def paged (w : Nat) : State :=
  let s := State.reset.withFetchWord 64 w
  { s with mem := writeBytes s.mem 0x30008 (bytesOf 8 0x50007) }

/-- `paged` with core 0 changed. -/
def pagedAt (w : Nat) (f : Core → Core) : State := (paged w).onCore 0 f

/-- Where a translation reaches. -/
def reached (r : State × Except (BitVec 8) Nat) : Option Nat := r.2.toOption

/-- The fault of a translation. -/
def faulted (r : State × Except (BitVec 8) Nat) : Option (BitVec 8) :=
  match r.2 with
  | .error e => some e
  | .ok _ => none

/-- The instruction and length that a fetch reads. -/
def fetched (r : State × Except (BitVec 8 × Word) Reading) : Option (Instr × Nat) :=
  match r.2 with
  | .ok (.instr i n) => some (i, n)
  | _ => none

/-- The word that a fetch finds illegal. -/
def unread (r : State × Except (BitVec 8 × Word) Reading) : Option Word :=
  match r.2 with
  | .ok (.illegal v) => some v
  | _ => none

/-- A translation that reaches an address is a pair of a state and that address, as the statements put it. -/
theorem reached_pair {r : State × Except (BitVec 8) Nat} {p : Nat} (h : reached r = some p) : r = (r.1, .ok p) := by
  obtain ⟨s, e | a⟩ := r <;> simp_all [reached, Except.toOption]

/-- A translation that faults is a pair of a state and the fault. -/
theorem faulted_pair {r : State × Except (BitVec 8) Nat} {e : BitVec 8} (h : faulted r = some e) : r = (r.1, .error e) := by
  obtain ⟨s, x | a⟩ := r <;> simp_all [faulted]

/-- A fetch that reads an instruction. -/
theorem fetched_pair {r : State × Except (BitVec 8 × Word) Reading} {i : Instr} {n : Nat} (h : fetched r = some (i, n)) :
    r = (r.1, .ok (.instr i n)) := by
  obtain ⟨s, x | a⟩ := r
  · simp [fetched] at h
  · cases a <;> simp_all [fetched]

/-- A fetch that finds no instruction. -/
theorem unread_pair {r : State × Except (BitVec 8 × Word) Reading} {v : Word} (h : unread r = some v) : r = (r.1, .ok (.illegal v)) := by
  obtain ⟨s, x | a⟩ := r
  · simp [unread] at h
  · cases a <;> simp_all [unread]

/-! ### Well-formedness: a term that each check refuses -/

theorem test_wf_cmp : (Instr.cmp 1 2 3 6).wf = false ∧ (Instr.cmp 1 2 3 5).wf = true := by decide
theorem test_wf_ldn : (Instr.ldn 1 2 3 0).wf = false ∧ (Instr.ldn 1 2 2 0).wf = true := by decide
theorem test_wf_ldLong : (Instr.ldLong 1 2 1 3 0).wf = false ∧ (Instr.ldLong 1 2 0 3 0).wf = true := by decide

/-! ### Decoding: words written out from the encodings of R88–R98 and R189 -/

theorem test_decode_integer : decodeWord 0b000000_00011_00001_00010_00000000000#32 = some (.add 3 1 2) ∧
    decodeWord 0b000001_00100_00100_1111111111110000#32 = some (.addi 4 4 (-16)) := by decide +kernel
theorem test_decode_compare : decodeWord 0b010000_00010_00011_00100_00000000010#32 = some (.cmp 2 3 4 2) := by decide +kernel
theorem test_decode_load : decodeWord 0b010100_00101_00100_0_10_0000000010000#32 = some (.ld 5 4 2 16) := by decide +kernel
theorem test_decode_amo : decodeWord 0b010111_00111_01000_01001_10111_000_000#32 = some (.amoCas 7 8 9 1) := by decide +kernel
theorem test_decode_branch : decodeWord 0b011000_011_0_1111111111111111111101#32 = some (.b 3 0 (-3)) := by decide +kernel
theorem test_decode_loop : decodeWord 0b011011_00_0_00000001100_000000000101#32 = some (.loopImm 0 12 5) := by decide +kernel
theorem test_decode_barrier : decodeWord 0b100000_00110_00100_00101_00000_000_001#32 = some (.barWt 6 4 5 0) := by decide +kernel
theorem test_decode_config : decodeWord 0b100100_00011_00000_00000_00000_000_001#32 = some (.cfgSwp 3 0) := by decide +kernel
theorem test_decode_token : decodeWord 0b100101_01001_10010_00000_00000_000_001#32 = some (.tokTake 9 18 0) := by decide +kernel
theorem test_decode_stream : decodeWord 0b101000_00111_01000_01001_01010_010_001#32 = some (.strmLd 7 8 9 10 2) ∧
    decodeWord 0b101001_00000_00100_00000_00000_000_010#32 = some (.strmRsm 0 4 0) := by decide +kernel
theorem test_decode_pool : decodeWord 0b110000_01001_00101_00110_00111_000_011#32 = some (.poolRd 9 5 6 7 0) := by decide +kernel
theorem test_decode_router : decodeWord 0b110100_00011_00100_00101_00000_000_000#32 = some (.rtCfg 3 4 5 0) := by decide +kernel
theorem test_decode_journal : decodeWord 0b110101_00011_00100_00101_00000_000_011#32 = some (.jrnPin 3 4 5 0) := by decide +kernel
theorem test_decode_system : decodeWord 0b111001_00100_00000_0000_000000010101#32 = some (.csrr 4 0x15) ∧
    decodeWord 0b111000_0000000000_0000000000000000#32 = some (.trap 0) := by decide +kernel
theorem test_decode_launch : decodeWord 0b111011_00011_01010_00000_00000_000_001#32 = some (.launch 3 10 0) := by decide +kernel
theorem test_decode_long : decodePair 0b111111_00000100100011010001010110#32 0b000001_00110_00000_0111100010011010#32 =
    some (.addiLong 6 0 0x123456789A) := by decide +kernel
theorem test_decode_reserved : decodeWord 0b000000_00011_00001_00010_10000000000#32 = none ∧ decodeWord 0#32 ≠ none ∧
    decodeWord 0b010000_00010_00011_00100_00000000110#32 = none := by decide +kernel
theorem test_decode_eow_float : decodeEow 0b00000000_0001_0000_000_001_111_01_0000_0000_00011_00000000_0000000000000000#64 =
    some (.fadd ⟨1, 0, 0, 1, 7, 1, 0, 0, 3, 0, 0⟩) := by decide +kernel
theorem test_decode_eow_matrix : (decodeEow 0x9110056003000000).isSome = true ∧ (decodeEow 0x93001FA201000000).isSome = true := by
  decide +kernel
theorem test_decode_eow_pool : (decodeEow 0x8000FFA005020000).isSome = true ∧ (decodeEow 0x83001FA004010000).isSome = true := by
  decide +kernel
theorem test_decode_table_word : decodeTableWord 32 0x00611000 = some (.add 3 1 2) := by decide +kernel

/-! ### Witnesses: encodings, steps, the whole machine -/

theorem witness_SequencerEncodingRoundTrip : (Instr.add 3 1 2).wf = true ∧ encode (.add 3 1 2) = [0x00611000] ∧
    (Instr.addiLong 6 0 0x123456789A).wf = true ∧ encode (.addiLong 6 0 0x123456789A) = [0xFC123456, 0x04C0789A] := by decide +kernel

theorem witness_OneWordOneInstruction : isLong 0x00611000 = false ∧ decodeWord 0x00611000 = some (.add 3 1 2) ∧
    isLong 0xFC123456 = true ∧ decodePair 0xFC123456 0x04C0789A = some (.addiLong 6 0 0x123456789A) := by decide +kernel

theorem witness_OperationWordRoundTrip : encodeEow (.fadd ⟨1, 0, 0, 1, 7, 1, 0, 0, 3, 0, 0⟩) = some 0x001007A003000000 ∧
    decodeEow 0x001007A003000000 = some (.fadd ⟨1, 0, 0, 1, 7, 1, 0, 0, 3, 0, 0⟩) := by decide +kernel

/-- The turn of `withFetchWord`. -/
def seqTurn : Turn := Turn.reset

theorem witness_StepRunsTheDecodedInstruction :
    let s := paged 0x00611000
    let b := s.begin seqTurn []
    (s.power = .on ∧ s.nextTurn = (some seqTurn, []) ∧ seqTurn.act = .seq ∧ b.here.run = .running ∧ b.isHeld 0 = false ∧
      b.here.wait = .none ∧ b.here.faults = [] ∧ fetched (b.fetch 0) = some (.add 3 1 2, 4) ∧
      (b.fetch 0).1.here.interlocked (.add 3 1 2) = false) ∧
    (Sparse.find (s.core 0).icache 0 = none ∧ reached (s.translate 0 0 .fetch 0) = some 0x40000 ∧
      (s.translate 0 0 .fetch 0).1.inWindow 0x40000 4 = false ∧ (s.translate 0 0 .fetch 0).1.memoryFate 0 0x40000 = .arrives) ∧
    (s.dusk.contains 0 = false ∧ s.journal.unsettled = false ∧ s.qcbWrites = []) ∧
    (let l := { launchOfPacket [] 4 0 0 with placed := true, pending := true }
     l.saved = false ∧ l.stopped = false ∧ l.point = none ∧ s.overdue l = false) := by decide +kernel

theorem witness_UnassignedWordsTrap :
    let s := paged 0x00611400
    let b := s.begin seqTurn []
    decodeWord 0x00611400 = none ∧ decodePair 0xFC123456 0x00611000 = none ∧
    s.power = .on ∧ s.nextTurn = (some seqTurn, []) ∧ b.here.run = .running ∧ b.isHeld 0 = false ∧ b.here.wait = .none ∧
    b.here.faults = [] ∧ unread (b.fetch 0) = some 0x00611400 ∧ State.reset.here.tin = false := by decide +kernel

theorem witness_StepKeepsMemoryCanonical : MemoryCanonical (paged 0x00611000) ∧ ∃ t, step (paged 0x00611000) = .next t :=
  ⟨by unfold MemoryCanonical; decide +kernel, goesOn_next (by decide +kernel)⟩

theorem witness_ResetMemoryCanonical : MemoryCanonical State.reset := by unfold MemoryCanonical; decide +kernel

theorem witness_ReadsGiveWhatWasWritten : (0 < 8 ∧ (0xF ≤ 0x10 ∨ 0x20 ≤ 0xF)) ∧ (3 : SReg) ≠ 0 ∧ (4 : SReg) ≠ 3 ∧ (1 : PReg) ≠ 0 := by decide

theorem witness_SequencerInstructionsLeaveMemoryAlone :
    let s := pagedAt 0 fun c => c.setReg 4 0x10000
    encode (.st 5 4 3 0) ≠ [] ∧ s.here.tin = false ∧ ∃ t, exec (.st 5 4 3 0) s = .next t := ⟨by decide +kernel, by decide +kernel, _, rfl⟩

theorem witness_SequencerPcStaysAligned : encode (.add 3 1 2) ≠ [] ∧ misaligned (paged 0).here.pc = false ∧
    misaligned (paged 0).here.tvec = false ∧ ∃ t, exec (.add 3 1 2) (paged 0) = .next t :=
  ⟨by decide +kernel, by decide +kernel, by decide +kernel, _, rfl⟩

/-! ### Witnesses: the integer, branch and loop instructions -/

/-- A core at the end of a loop with two iterations left whose start is misaligned. -/
def badBackEdge : State := at0 fun c =>
  { c with loops := { c.loops with active := [0], lc := c.loops.lc.set 0 2, ls := c.loops.ls.set 0 2 } }

theorem witness_IntegerResults : misaligned (((at0 id).here.setReg 3 12).finish 4).pc = false ∧
    misaligned ((badBackEdge.here.setReg 3 12).finish 4).pc = true := by decide +kernel

theorem witness_DivisionCompareAndPredicateResults : ((7 : Word) ≠ 0 ∧ ¬((8 : Word) = 0x8000000000000000 ∧ (7 : Word) = -1)) ∧
    misaligned (((at0 id).here.setPred 2 true).finish 4).pc = false ∧
    misaligned ((badBackEdge.here.setPred 2 true).finish 8).pc = true := by decide +kernel

theorem witness_BranchesAndJumps :
    let s := at0 fun c => (c.setReg 4 0x100).setReg 5 0x102
    s.here.pred 3 ≠ ((1 : BitVec 1) == 1#1) ∧ s.here.pred 0 ≠ ((0 : BitVec 1) == 1#1) ∧ misaligned (s.here.reg 4) = false ∧
    misaligned (s.here.reg 5) = true ∧ s.here.tin = false ∧ s.here.pred 3 = ((0 : BitVec 1) == 1#1) ∧
    misaligned (s.here.finish 4).pc = false := by decide +kernel

theorem witness_HardwareLoops :
    let s := at0 fun c => { c with pc := 0x100, loops := { c.loops with active := [1, 0], lc := c.loops.lc.set 1 2, le := c.loops.le.set 1 0x100 } }
    let t := at0 fun c => { c with pc := 0x100, loops := { c.loops with active := [1, 0], lc := c.loops.lc.set 1 1, le := c.loops.le.set 1 0x100 } }
    misaligned (({ s.here with loops := { s.here.loops with active := [2] } } : Core).finish 4).pc = false ∧
    misaligned (s.here.pc + 4 * (5 : BitVec 12).setWidth 64 + 4) = false ∧ misaligned ((2 : Word) + 4) = true ∧ s.here.tin = false ∧
    ¬(2 : BitVec 2) ∈ s.here.loops.active ∧ misaligned (t.here.finish 4).pc = false ∧
    (s.here.loops.active = [] ++ 1 :: [0] ∧ ¬(1 : BitVec 2) ∈ ([] : List (BitVec 2)) ∧ misaligned (s.here.loops.le[1] + 4) = false) ∧
    (s.here.loops.active = 1 :: [0] ∧ s.here.loops.le[1] = s.here.pc ∧ 1 < s.here.loops.lc[1].toNat) ∧
    (t.here.loops.active = 1 :: [0] ∧ ¬(1 : BitVec 2) ∈ [(0 : BitVec 2)] ∧ t.here.loops.le[1] = t.here.pc ∧ t.here.loops.lc[1].toNat ≤ 1) ∧
    (∀ n ∈ (at0 id).here.loops.active, (at0 id).here.loops.le[n.toNat] ≠ (at0 id).here.pc) := by decide +kernel

/-! ### Witnesses: predicates, memory, barriers -/

theorem witness_FalsePredicateDoesNothing : predicateOf (.barArv 5 4 2) = some 2 ∧ (at0 id).here.pred 2 = false ∧
    misaligned ((at0 id).here.finish 4).pc = false := by decide +kernel

/-- An outstanding access of a core. -/
def access (k : AccessKind) (phys : Nat) : Access := ⟨0, k, 5, phys, 4, 0x1234, 0, none⟩

/-- `paged` with addresses in s4: the data page, the code page (no write), a page that is absent, a misaligned address. -/
def addressed (a : Word) : State := pagedAt 0 fun c => (c.setReg 4 a).setReg 6 0xFFFC

theorem witness_MemoryAccessesIssue :
    16 ≤ (pagedAt 0 fun c => { c with accesses := List.replicate 16 (access .store 0) }).here.accesses.length ∧
    ((addressed 0x10001).here.accesses.length < 16 ∧ ((addressed 0x10001).here.reg 4).toNat % 4 ≠ 0 ∧ (addressed 0x10001).here.tin = false) ∧
    ((addressed 0x20000).here.reg 4).toNat % 8 = 0 ∧ faulted ((addressed 0x20000).translate 0 0 .read 0x20000) = some 0x10 ∧
    faulted ((addressed 0).translate 0 0 .write 0) = some 0x11 ∧
    ((addressed 0x10010).here.reg 4).toNat % 8 = 0 ∧ reached ((addressed 0x10010).translate 0 0 .read 0x10010) = some 0x50010 ∧
    reached ((addressed 0x1FFFC).translate 0 0 .write 0x1FFFC) = some 0x5FFFC ∧
    misaligned (((((addressed 0x10010).translate 0 0 .write 0x10010).1).here.finish 4).pc) = false ∧
    (addressed 0x10010).variant = .y7 ∧ ({ addressed 0x10010 with variant := .y7l } : State).variant = .y7l ∧
    reached (({ addressed 0x10010 with variant := .y7l } : State).translate 0 0 .write 0x10010) = some 0x50010 ∧
    (0x10 : BitVec 8) ≠ noAnswer ∧
    faulted (((addressed 0x10010).onCtx 0 fun c => { c with root := 0x1000000000 }).translate 0 0 .read 0x10010) = some noAnswer := by decide +kernel

theorem witness_ScratchAccesses :
    (addressed 0x10001).here.tin = false ∧ (0x10001 : Word).toNat % 2 ^ (2 : BitVec 2).toNat ≠ 0 ∧
    ((0x10000 : Word).toNat % 2 ^ (2 : BitVec 2).toNat = 0 ∧ 0x10000 < (0x10000 : Word).toNat + 2 ^ (2 : BitVec 2).toNat) ∧
    ((0xFFFC : Word).toNat % 2 ^ (2 : BitVec 2).toNat = 0 ∧ (0xFFFC : Word).toNat + 2 ^ (2 : BitVec 2).toNat ≤ 0x10000) ∧
    misaligned (((addressed 0).here.setReg 5 1).finish 4).pc = false := by decide +kernel

/-- A request at the head of unit 0. -/
def update (op : AmoOp) (amo : Bool) : Update :=
  { phys := 0x50000, size := 4, op := op, value := 1, cmp := 0, tag := 0, amo := amo, folded := [],
    part := { core := 0, unit := 0, id := 0, ord := false, seq := none } }

/-- Unit 0 with a queue and a window. -/
def unit0 (window waiting : List Update) : State := State.reset.setUnit 0 { window := window, waiting := waiting, coming := [] }

theorem witness_AccessesArePerformed :
    (let s := pagedAt 0 fun c => { c with accesses := [access (.load true) 0x50000] }
     s.here.accesses[s.cur.n]? = some (access (.load true) 0x50000) ∧ blockedByEarlier s.here.accesses 0 (access (.load true) 0x50000) = false ∧
       s.inWindow 0x50000 4 = false ∧ s.memoryFate 0 0x50000 = .arrives) ∧
    (let s := pagedAt 0 fun c => { c with accesses := [access (.load true) 0x1000000000] }
     s.here.accesses[s.cur.n]? = some (access (.load true) 0x1000000000) ∧
       blockedByEarlier s.here.accesses 0 (access (.load true) 0x1000000000) = false ∧ s.inWindow 0x1000000000 4 = false ∧
       s.memoryFate 0 0x1000000000 = .denied 0 1) ∧
    (let s := pagedAt 0 fun c => { c with accesses := [access .store 0x50000] }
     s.here.accesses[s.cur.n]? = some (access .store 0x50000) ∧ blockedByEarlier s.here.accesses 0 (access .store 0x50000) = false ∧
       s.inWindow 0x50000 4 = false ∧ s.memoryFate 0 0x50000 = .arrives ∧
       (chainStepOf s.chains (stackOf 0x50000) (s.seqPlain s.cur.core)).isSome = true) ∧
    (let s := unit0 [] [update .add true]
     s.cur.flag = false ∧ (s.unitOf s.cur.unit).granted s.chains s.cur.unit = some 0 ∧
       (s.unitOf s.cur.unit).waiting[0]? = some (update .add true) ∧ (s.unitOf s.cur.unit).window.length < 240) ∧
    (let w : SupdUnit := { window := List.replicate 256 (update .add true), waiting := [], coming := [] }
     256 ≤ w.window.length) ∧
    (let s := turn 0 0 0 true (State.reset.setUnit 0 { window := [], waiting := [], coming := [update .add true] })
     s.cur.flag = true ∧ (s.unitOf s.cur.unit).coming[s.cur.n]? = some (update .add true) ∧
       s.mayReach (s.unitOf s.cur.unit) s.cur.n (update .add true) = true ∧ s.memoryFate 0 0x50000 = .arrives) ∧
    (let s := unit0 [update .add true] []
     s.cur.flag = false ∧ (s.unitOf s.cur.unit).window[s.cur.n]? = some (update .add true) ∧ s.owned 0 0x50000 = true ∧
       Update.waitsIn s.chains s.cur.unit (s.unitOf s.cur.unit).window s.cur.n (update .add true) = false ∧ s.cur.unit < 8) ∧
    (let s := turn 0 0 1 true (unit0 [update .add false, update .add false] [])
     s.cur.flag = true ∧ ((s.unitOf s.cur.unit).merge s.chains s.cur.unit s.cur.n s.cur.m).isSome = true) ∧
    (let a : Access := { access (.amo .add) 0x50000 with reply := some 7 }
     let s := at0 fun c => { c with accesses := [a] }
     s.here.accesses[s.cur.n]? = some a ∧ a.kind = .amo .add ∧ a.reply = some 7) ∧ (3 < 2 ^ 8 ∧ 255 < 2 ^ 8) ∧ ((3 : Nat) < 65536 ∧ (65535 : Nat) < 65536) := by decide +kernel

/-- Handle 5 names barrier 3 of core 0, handle 6 barrier 3 of core 1; both barriers expect `n` arrivals and have `a`. -/
def barred (n a p : BitVec 16) (f : Core → Core) : State :=
  ((((State.reset.onCtx 0 fun c => { c with handles := [(5, ⟨true, 0, 0, 3, n⟩), (6, ⟨true, 0, 1, 3, n⟩)] }).onCore 0 fun c =>
    { c with bars := [(3, ⟨n, a, p⟩)] }).onCore 1 fun c => { c with bars := [(3, ⟨n, a, p⟩)] }).onCore 0 fun c =>
      f ((c.setReg 4 5).setReg 7 6))

theorem witness_BarrierArrivals :
    (let s := barred 2 0 9 fun c => { c with accesses := [access .store 0x50000] }
     s.here.pred 0 = true ∧ s.here.tin = false ∧ s.handleOf 1024 = none ∧ s.handleOf 7 = none ∧ s.handleOf (s.here.reg 4) = some (0, 3) ∧
       s.arrivesNow 0 3 = false) ∧
    (let s := barred 2 1 9 id
     s.handleOf (s.here.reg 4) = some (s.cur.core, 3) ∧ s.arrivesNow s.cur.core 3 = true ∧ s.handleOf (s.here.reg 7) = some (1, 3) ∧
       s.arrivesNow 1 3 = false ∧ misaligned (s.here.finish 4).pc = false) ∧
    (let s := carrying [⟨0, 1, .arrive 3 [] 5 false 0, 0⟩] (barred 2 1 9 id)
     s.arriving s.cur.n = some ⟨0, 1, .arrive 3 [] 5 false 0, 0⟩ ∧ s.orderedBehind s.cur.n 0 1 3 = false ∧ ¬(0 : Nat) = 1) ∧
    (let s := carrying [⟨0, 0, .arrive 3 [] 5 false 0, 0⟩] (barred 2 1 9 id)
     s.arriving s.cur.n = some ⟨0, 0, .arrive 3 [] 5 false 0, 0⟩ ∧ s.orderedBehind s.cur.n 0 0 3 = false) ∧
    (let s := carrying [⟨0, 1, .arrive 3 [] 5 true 7, 0⟩] (barred 2 1 9 fun c => { c with wait := .barrierCommand 7 })
     s.arriving s.cur.n = some ⟨0, 1, .arrive 3 [] 5 true 7, 0⟩ ∧ s.orderedBehind s.cur.n 0 1 3 = false ∧
       (s.core 0).wait = .barrierCommand 7) ∧
    (let s := carrying [⟨1, 0, .barrierReply 5 10 0, 0⟩] (barred 2 1 9 id)
     s.arriving s.cur.n = some ⟨1, 0, .barrierReply 5 10 0, 0⟩) ∧
    (0 < 1 ∧ (0 : BitVec 16).toNat + 1 < (2 : BitVec 16).toNat) := by decide +kernel

theorem witness_BarrierWaits :
    (let s (t : Word) := barred 2 0 9 fun c => c.setReg 5 t
     let lag (t : Word) : Nat := (t.extractLsb' 0 16 - ((s t).here.bar 3).p).toNat
     (s 9).here.pred 0 = true ∧ (s 9).handleOf ((s 9).here.reg 4) = some ((s 9).cur.core, 3) ∧ (s 9).arrivalPending 0 3 = false ∧
       lag 9 = 0 ∧ lag 10 = 1 ∧ lag 11 = 2 ∧ lag 264 = 255 ∧ lag 265 = 256 ∧ lag 8 = 65535 ∧ (s 11).here.tin = false ∧
       (s 9).handleOf ((s 9).here.reg 7) = some (1, 3) ∧ (1 : Nat) ≠ (s 9).cur.core ∧ (s 9).arrivalPending 1 3 = false ∧
       (s 9).arrivesNow 1 3 = false ∧ misaligned (s 9).here.pc = false ∧ misaligned ((s 9).here.finish 4).pc = false ∧
       (s 9).arrivesNow 0 3 = true ∧ ((s 9).here.bar 3).a + 1 ≠ ((s 9).here.bar 3).n) ∧
    (let s := barred 2 1 9 id
     s.arrivesNow 0 3 = true ∧ (s.here.bar 3).a + 1 = (s.here.bar 3).n) ∧
    (let s := barred 2 0 10 fun c => { c with wait := .barrier 0 3 10 5 false }
     s.here.wait = .barrier 0 3 10 5 false ∧ ((s.core 0).bar 3).p = 10) ∧
    (let s := barred 2 0 9 fun c => { c with wait := .barrier 0 3 8 5 false }
     s.here.wait = .barrier 0 3 8 5 false ∧ 256 ≤ (8 - ((s.core 0).bar 3).p).toNat) ∧
    (let s := barred 2 0 9 fun c => { c with accesses := [access .store 0x50000] }
     let t := { s with net := [⟨0, 0, .arrive 3 [] 5 false 0, 0⟩] }
     t.here.pred 0 = true ∧ t.handleOf (t.here.reg 4) = some (0, 3) ∧ t.arrivalPending 0 3 = true) ∧
    (let s (tk : BitVec 16) := carrying [⟨0, 1, .barrierQuery 3 (some tk) 5 7, 0⟩] (barred 2 0 9 fun c => { c with wait := .barrierCommand 7 })
     let lag (tk : BitVec 16) : Nat := (tk - (((s tk).core 1).bar 3).p).toNat
     (s 9).arriving (s 9).cur.n = some ⟨0, 1, .barrierQuery 3 (some 9) 5 7, 0⟩ ∧ (s 9).orderedBehind (s 9).cur.n (s 9).cur.core 1 3 = false ∧
       (s 9).here.wait = .barrierCommand 7 ∧ lag 9 = 0 ∧ lag 10 = 1 ∧ lag 11 = 2 ∧ lag 264 = 255 ∧ lag 265 = 256 ∧
       (s 11).here.tin = false ∧ misaligned ((s 9).here.finish 4).pc = false) ∧
    (let s := carrying [⟨0, 1, .barrierQuery 3 none 5 0, 0⟩] (barred 2 0 9 id)
     s.arriving s.cur.n = some ⟨0, 1, .barrierQuery 3 none 5 0, 0⟩) ∧
    (let s := at0 fun c => { c with lvl := false }
     s.here.pred 0 = true ∧ s.here.lvl = false ∧ s.here.tin = false) ∧
    ((at0 id).here.lvl = true ∧ 1024 ≤ (1024 : Word).toNat ∧ (1023 : Word).toNat < 1024 ∧ (0x0000000400000000 : Word).extractLsb' 34 29 ≠ 0 ∧
      (0x0000000300000000 : Word).extractLsb' 32 2 = 3 ∧ (0x8000000000030000 : Word).getLsbD 63 = true ∧
      (0x8000000000030000 : Word).extractLsb' 0 16 = 0 ∧ (at0 id).inPartition 0 511 = false ∧ (at0 id).inPartition 0 383 = true ∧
      (0x0000000000030000 : Word).getLsbD 63 = false ∧ (0x8000000000030002 : Word).extractLsb' 34 29 = 0 ∧
      (0x8000000000030002 : Word).extractLsb' 32 2 ≠ 3 ∧ (0x8000000000030002 : Word).extractLsb' 0 16 ≠ 0) := by decide +kernel

/-! ### Witnesses: system, configuration and token instructions -/

/-- Core 0 at K level. -/
def kernel (f : Core → Core) : State := at0 fun c => f { c with lvl := false }

theorem witness_ControlRegisterAccess :
    ¬((5 : BitVec 12).toNat ≤ 4) ∧ ¬((0x17 : BitVec 12).toNat = 0x18) ∧ (kernel id).here.lvl = false ∧ (kernel id).here.tin = false ∧
    (1 ≤ (4 : BitVec 12).toNat ∧ (4 : BitVec 12).toNat ≤ 4) ∧ (0x10 ≤ (0x16 : BitVec 12).toNat ∧ (0x16 : BitVec 12).toNat ≤ 0x16) ∧
    ((at0 id).here.lvl = true ∧ misaligned ((at0 id).here.finish 4).pc = false) ∧ (0x50 ≤ (0x5F : BitVec 12).toNat) := by decide +kernel

theorem witness_ControlRegisterReadsAndWrites : (at0 id).here.faults.length ≤ 16 ∧ (at0 id).here.lvl = true ∧
    (kernel fun c => { c with loops := { c.loops with active := [2] } }).here.lvl = false ∧
    misaligned (({ (at0 id).here with tvec := 0x100 } : Core).finish 4).pc = false := by decide +kernel

/-- A queued fault. -/
def aFault : AsyncFault := ⟨0x10, 2, 3, 0x77⟩

/-- A request of another core's sequencer in the queue of pool 0 of core 0. -/
def queuedFor (core : Nat) (s : State) : State :=
  s.onCore 0 fun c => { c with pools := c.pools.set 0 { c.pools[0] with queue := [⟨0, .seq core⟩] } }

theorem witness_TrapEntryAndReturn :
    (at0 id).here.tin = false ∧
    (let s := at0 fun c => { c with faults := [aFault], run := .running, wait := .event }
     s.here.faults = aFault :: [] ∧ s.here.run = .running ∧ s.here.tin = false ∧ s.here.wait.interruptible = true ∧ s.here.wait = .event) ∧
    (at0 id).here.lvl = true ∧ (at0 fun c => { c with tin := true }).here.tin = true ∧
    (let s := at0 fun c => { c with faults := [aFault], run := .running, wait := .pool 5 0 }
     s.here.wait = .pool 5 0 ∧ s.grantComing 0 0 = false ∧
       (carrying [⟨1, 0, .poolReply (.value 3) 5 0, 0⟩] s).grantComing 0 0 = true) ∧
    ((turn 0 0 0 true (at0 id)).cur.flag = true ∧ (turn 0 0 0 false (at0 id)).cur.flag = false) ∧
    (let s := queuedFor 1 (at0 fun c => { c with faults := [aFault], run := .running, wait := .pool 5 0 })
     s.grantComing 0 0 = false ∧ ∃ q ∈ ((s.core 0).pool 0).queue, q.who ≠ .seq s.cur.core) ∧
    ((at0 fun c => { c with faults := List.replicate 15 aFault }).here.faults.length < 16 ∧
      16 ≤ (at0 fun c => { c with faults := List.replicate 16 aFault }).here.faults.length) := by decide +kernel

theorem witness_PrivilegedInstructionsTrapAtKLevel : (kernel id).here.lvl = false ∧ (kernel id).here.tin = false ∧
    (kernel id).here.pred 0 = true ∧ encode .eret ≠ [] ∧ ∃ t, exec .eret (kernel id) = .next t :=
  ⟨by decide +kernel, by decide +kernel, by decide +kernel, by decide +kernel, _, rfl⟩

theorem witness_SystemMinors :
    (let s := at0 fun c => c.setReg 4 383
     (s.here.reg 4).toNat < s.variant.coreCount ∧ s.inPartition s.cur.core (s.here.reg 4).toNat = true) ∧
    ((at0 id).here.reg 4 = BitVec.ofNat 64 (at0 id).cur.core ∧ (at0 id).inPartition 0 0 = true ∧
      ((at0 fun c => c.setReg 4 383).here.reg 4).toNat ≠ 0) ∧
    (at0 fun c => c.setReg 4 384).variant.coreCount ≤ ((at0 fun c => c.setReg 4 384).here.reg 4).toNat ∧
    (let s := carrying [⟨1, 0, .event, 0⟩] (at0 id)
     s.arriving s.cur.n = some ⟨1, 0, .event, 0⟩) ∧
    (at0 fun c => { c with event := true }).here.event = true ∧ (at0 id).here.event = false ∧
    (let s := at0 fun c => { c with event := true, wait := .event }
     s.here.wait = .event ∧ s.here.event = true) ∧ (at0 id).here.lvl = true ∧
    (∀ a ∈ (at0 fun c => { c with accesses := [access .store 0] }).here.accesses, a.kind = .store) ∧
    (∃ a ∈ (at0 fun c => { c with accesses := [access (.load true) 0] }).here.accesses, a.kind ≠ .store) ∧
    (at0 fun c => { c with accesses := [access (.load true) 0] }).here.unperformedStores = [] ∧
    (at0 fun c => { c with accesses := [access .store 0] }).here.unperformedStores ≠ [] := by decide +kernel

/-- Core 0 with a configuration engine, s4 an address and s5 a count. -/
def configured (a n : Word) (g : ConfigEngine) : State := at0 fun c => ({ c with cfg := g }.setReg 4 a).setReg 5 n

theorem witness_ConfigurationCommands :
    let g := ConfigEngine.reset
    (configured 2 1 g).here.pred 0 = true ∧ ((configured 2 1 g).here.reg 4).toNat % 4 ≠ 0 ∧ ((configured 4 0 g).here.reg 5).toNat = 0 ∧
    1048576 < ((configured 4 1048577 g).here.reg 5).toNat ∧ ((configured 4 1048576 g).here.reg 5).toNat ≤ 1048576 ∧
    (configured 4 1 { g with armed := true }).here.cfg.armed = true ∧ (configured 4 1 { g with sealing := true }).here.cfg.sealing = true ∧
    8 ≤ (configured 4 1 { g with loads := List.replicate 8 ⟨0, 1, 0⟩ }).here.cfg.loads.length ∧
    (configured 4 1 { g with loads := List.replicate 7 ⟨0, 1, 0⟩ }).here.cfg.loads.length < 8 ∧
    (let r := (configured 4 1 { g with loaded := true, shadowIdx := 3 }).here.cfg
     r.loaded = true ∧ r.incomplete = false ∧ r.armed = false ∧ r.loads = [] ∧ r.shadowIdx = 3 ∧ ¬g.loaded = true) ∧
    g.armed = false ∧ g.sealing = false ∧ ({ g with draining := true } : ConfigEngine).draining = true ∧
    ({ g with drained := true } : ConfigEngine).draining = false ∧ g.drained = false ∧ (at0 id).here.injectionPorts 0 = [] ∧
    ({ g with result := some 1 } : ConfigEngine).result = some 1 ∧ g.result = none ∧
    (at0 fun c => { c with wait := .cfg 5, cfg := { g with result := some 0 } }).here.wait = .cfg 5 ∧
    (0x300 : Word).extractLsb' 8 4 = 3 ∧ 3 < ((0x400 : Word).extractLsb' 8 4).toNat ∧
    misaligned ((at0 id).here.finish 4).pc = false := by decide +kernel

theorem witness_ConfigurationIsLoadedAndSealed :
    (let s := configured 0 0 { ConfigEngine.reset with loads := [⟨0x10000, 1, 7⟩] }
     s.here.cfg.loads = ⟨0x10000, 1, 7⟩ :: []) ∧
    (let j : ConfigLoad := ⟨0x10000, 1, 7⟩
     let s (w : Nat) : State := (paged 0).onCore 0 fun c => { c with prefetch := [(0x10000, BitVec.ofNat 32 w)], cfg := { c.cfg with loads := [j] } }
     let lost : State := (at0 fun c => { c with cfg := { c.cfg with loads := [j] } }).onCtx 0 fun c => { c with root := 0x1000000000 }
     (s 0).here.cfg.loads = j :: [] ∧ (s 0).unanswered 0 j = none ∧ (lost.unanswered 0 j).isSome = true ∧ (s 0).cur.flag = false ∧
       ((List.replicate 1 (0 : BitVec 32)).length = j.count ∧ Sparse.find (s 0).here.prefetch (j.addr + BitVec.ofNat 64 (4 * 0)).toNat = some 0)) ∧
    (let s := paged 0
     Sparse.find (s.core 0).prefetch 0x10010 = none ∧ reached (s.translate 0 0 .read 0x10010) = some 0x50010 ∧
       (s.translate 0 0 .read 0x10010).1.inWindow 0x50010 4 = false ∧ (s.translate 0 0 .read 0x10010).1.memoryFate 0 0x50010 = .arrives) ∧
    (fieldMask 3 0).isSome = true ∧ fieldMask 0xFE 0xFE = none ∧ (3 : BitVec 8) ≠ 0xFF ∧
    (let g := { ConfigEngine.reset with sealing := true }
     let u (g : ConfigEngine) : State := (configured 0 0 g).on fun c => { c with cfg := { c.cfg with sealing := false } }
     g.sealing = true ∧ g.loads = [] ∧ g.incomplete = false ∧ ({ g with incomplete := true } : ConfigEngine).incomplete = true ∧
       (u g).sealFault 0 = none ∧ ((u { g with bad := [(0, 0, 0xFE)] }).sealFault 0).isSome = true) := by decide +kernel

/-- Core 0 alone in its region, with a configuration engine. -/
def drainingCore (g : ConfigEngine) : State := at0 fun c => { c with cfg := g, regionExt := 0x0101 }

theorem witness_DrainsAreCollectedAndResolved :
    (let s (n : Nat) := carrying [⟨1, 0, .drainBegin n, 0⟩] (drainingCore { ConfigEngine.reset with drains := 3 })
     (s 2).arriving (s 2).cur.n = some ⟨1, 0, .drainBegin 2, 0⟩ ∧ (s 3).arriving (s 3).cur.n = some ⟨1, 0, .drainBegin 3, 0⟩ ∧
       2 < ((s 2).core 0).cfg.drains ∧ ((s 3).core 0).cfg.drains = 3 ∧ 0 = (s 3).lead 0 ∧ ((s 3).core 0).cfg.noticed = false ∧
       (drainingCore { ConfigEngine.reset with noticed := true }).here.cfg.noticed = true) ∧
    (let s := drainingCore { ConfigEngine.reset with draining := true, abandoned := true }
     s.here.cfg.draining = true ∧ s.here.allPassed = true ∧ s.here.cfg.reported = false ∧ s.here.cfg.abandoned = true ∧ s.flights = [] ∧
       s.credits = [] ∧ (∀ e ∈ s.here.elems, e.2.pending = []) ∧ s.enginesQuiet s.cur.core = true ∧ s.here.routerDrained = true) ∧
    (let s := carrying [⟨0, 0, .drainReport true, 0⟩] (drainingCore ConfigEngine.reset)
     s.cur.core = s.lead s.cur.core ∧ s.region s.cur.core = [0] ∧ s.reportOf s.cur.core 0 = some true) ∧
    (let j : ConfigLoad := ⟨0, 1, 2⟩
     let s := carrying [⟨0, 0, .drainReport false, 0⟩] (drainingCore { ConfigEngine.reset with latched := some j })
     s.reportOf 0 0 = some false ∧ (s.core 0).cfg.latched = some j ∧ (s.core 0).cfg.loads = [] ∧ s.unanswered 0 j = none ∧
       (State.reset.core 0).cfg.latched = none) ∧
    (let s := carrying [⟨0, 0, .drainReport false, 0⟩] (drainingCore ConfigEngine.reset)
     s.cur.core = s.lead s.cur.core ∧ s.region s.cur.core = [0] ∧ (s.reportOf s.cur.core 0).isSome = true) ∧
    (let s := carrying [⟨0, 0, .resolution true, 0⟩] (drainingCore ConfigEngine.reset)
     s.arriving s.cur.n = some ⟨0, 0, .resolution true, 0⟩) ∧
    (let s := carrying [⟨0, 0, .resolution true, 0⟩] ((drainingCore ConfigEngine.reset).onCore 0 fun c =>
       c.onElem 3 fun e => { e with stray := some 2 })
     (s.core 0).newStrays = [(3, 2)] ∧ (s.core 0).faults.length + (s.core 0).newStrays.length ≤ 16) ∧
    (let s := carrying [⟨0, 0, .resolution false, 0⟩] (drainingCore { ConfigEngine.reset with armed := true, overlaid := true })
     s.arriving s.cur.n = some ⟨0, 0, .resolution false, 0⟩ ∧ (s.core 0).cfg.armed = true ∧ (s.core 0).cfg.overlaid = true) ∧
    (let s (a : Bool) := carrying [⟨0, 0, .resolution false, 0⟩] (drainingCore { ConfigEngine.reset with armed := a, overlaid := false })
     (s true).arriving (s true).cur.n = some ⟨0, 0, .resolution false, 0⟩ ∧ ((s true).core 0).cfg.armed = true ∧
       ((s true).core 0).cfg.overlaid = false ∧ ((s false).core 0).cfg.armed = false ∧ ((s true).core 0).cfg.failed = false) ∧
    (let s := drainingCore { ConfigEngine.reset with noticed := true }
     s.here.cfg.noticed = true ∧ s.here.allPassed = true) ∧
    (ConfigEngine.reset.armed = false ∧ ConfigEngine.reset.latched = none) ∧
    (let t : Token := ⟨0, 0, false, 0, 0, 0, 3⟩
     let f : Flight := ⟨.elem 0 1 0, .take 0, 0, none, t⟩
     let s := { at0 id with flights := [f] }
     s.flights[s.cur.n]? = some f ∧ f.dst = .take 0 ∧ f.tok.kind = 3 ∧ s.flightBehind s.cur.n f = false) := by decide +kernel

/-- A plane with element 3 enabled and its input I0, a checkpoint entry, bound to the sequencer with `n` link slots (R185). -/
def seqPlane (n : BitVec 16) : Sparse (BitVec 16) := [(256 * 3 + 8, 0x20 + n), (256 * 3 + 0x3E, 1), (256 * 3 + 0x3F, 1)]

/-- Core 0 with an active plane, s4 naming element 3. -/
def planed (p : Sparse (BitVec 16)) : State := at0 fun c => ({ c with cfg := { c.cfg with active := p } }).setReg 4 3

theorem witness_TokenCommands :
    (let s := at0 fun c => (c.setReg 5 4).setReg 6 0xFFE0
     s.here.pred 0 = true ∧ (s.here.reg 5).toNat % 32 ≠ 0 ∧ s.here.tin = false ∧ (s.here.reg 6).toNat % 32 = 0 ∧
       (s.here.reg 6).toNat + 32 ≤ 0x10000 ∧ 0x10000 < (0x10000 : Word).toNat + 32 ∧ s.here.takePort.toks = [] ∧
       s.here.checkpointEntries 0 = [] ∧ ¬enabled s.here.cfg.active 0 = true) ∧
    (let s := planed (seqPlane 1)
     ((s.here.reg 4).extractLsb' 0 6).toNat = 3 ∧ enabled s.here.cfg.active 3 = true ∧ bindKind s.here.cfg.active 3 0 = 2 ∧
       s.freeAt (.port 0 3 0) ≠ 0 ∧ (planed (seqPlane 0)).freeAt (.port 0 3 0) = 0 ∧
       s.here.checkpointEntries 0 ≠ [] ∧ (∀ q ∈ s.here.checkpointEntries 0, s.freeAt q ≠ 0) ∧
       (∃ q ∈ (planed (seqPlane 0)).here.checkpointEntries 0, (planed (seqPlane 0)).freeAt q = 0) ∧
       s.here.injectionPorts 0 = [.port 0 3 0] ∧ (∃ q ∈ (planed (seqPlane 0)).here.injectionPorts 0, (planed (seqPlane 0)).freeAt q = 0) ∧
       (s.portAt (.port 0 3 0)).closed = false) ∧
    (let t : Token := ⟨0, 0, false, 0, 0, 0, 0⟩
     let s := at0 fun c => { c with takePort := { c.takePort with toks := [⟨t, 0⟩] }, wait := .take 5 0x40 }
     s.here.takePort.toks = ⟨t, 0⟩ :: [] ∧ s.here.wait = .take 5 0x40) := by decide +kernel

/-! ### Witnesses: streams -/

/-- A shape of two beats in one dimension. -/
def shape2 : Shape := 2

/-- A destination block of one entry. -/
def oneDest (e : BitVec 128) : Vector (BitVec 128) 4 := #v[e, 0, 0, 0]

/-- A MEM entry at an address, a FABRIC entry to input I0 of element 3, a POOL entry of core 0 with one read. -/
def memEntry (a : BitVec 128) : BitVec 128 := (3 <<< 61) ||| a
def fabricEntry : BitVec 128 := (1 <<< 61) ||| (3 <<< 64)
def poolEntry : BitVec 128 := (2 <<< 61) ||| (3 <<< 64) ||| (1 <<< 104)

/-- A copy of two beats from the data page to one destination. -/
def copyJob (e : BitVec 128) : StreamJob :=
  { op := .cp, base := 0x10000, ctl := 0, shape := shape2, dests := oneDest e, org := Vector.replicate 4 0, after := [], next := 0, beats := [],
    grants := Vector.replicate 4 none, reqs := Vector.replicate 4 none, opened := [], late := false, linked := false, handles := [],
    offsets := [], taken := none, ending := none, unpub := [], owns := Vector.replicate 10 0 }

/-- `paged` with engine 0 in a state, with a job. -/
def streaming (st : BitVec 2) (j : Option StreamJob) : State :=
  pagedAt 0 fun c => c.onEngine 0 fun e => { e with state := st, job := j, result := 2, fcode := 0x10 }

/-- Beat 0 of a copy. -/
def beat0 (data : Option (Payload × Bool)) (mem : List Nat) : Beat :=
  { n := 0, src := .mem 0x50000, data := data, mem := mem, remote := [], tiles := [], updates := [], drop := false, failed := false, delivered := false,
    waits := 0, holds := [] }

/-- A token of a kind in a link slot. -/
def stored (kind : BitVec 2) : Stored := ⟨⟨0, 0, false, 0, 0, 0, kind⟩, 0⟩

/-- A state with tokens at input 0 of engine 0. -/
def fedInput (s : State) (ts : List Stored) : State := s.onPort (.data 0 0 0) fun p => { p with toks := ts }

theorem witness_StreamIssueStatuses :
    (let s := at0 fun c => (((c.setReg 5 32).setReg 6 0xFFC0).setReg 7 0x10001)
     s.here.pred 0 = true ∧ (s.here.reg 5).toNat % 64 ≠ 0 ∧ s.here.tin = false ∧ (s.here.reg 6).toNat % 64 = 0 ∧
       (s.here.reg 6).toNat + 64 ≤ 0x10000 ∧ 0x10000 < (0x10000 : Word).toNat + 64) ∧
    (Shape.faults 0 = (0, 0x41) :: [] ∧ shape2.faults = []) ∧
    (let s := at0 fun c => { c with shapes := [(0, shape2)] }
     s.variant = .y7 ∧ Sparse.find s.here.shapes (ctlShape 1) = none ∧ Sparse.find s.here.shapes (ctlShape 0) = some shape2 ∧
       s.issueStatus .cp 0x10000 0 shape2 (oneDest (memEntry 0x20000)) = 0 ∧
       s.issueStatus .cp 0x10001 0 shape2 (oneDest (memEntry 0x20000)) = 2 ∧ s.issueStatus .ld 0x10000 0 shape2 (oneDest 0) = 5 ∧
       ctlEngine 0xE0 < 8) ∧ (streaming 1 none).here.engine 0 ≠ Engine.reset ∧ ((streaming 1 none).here.engine 0).state ≠ 0 ∧
    (let s (st : BitVec 2) : State := (streaming st none).on fun c => { c with shapes := [(0, shape2)] }
     let k (e : BitVec 128) (base : Word) := kindFault .cp base 0 shape2 (oneDest e)
     kindFault .ld 0x10000 0 shape2 (oneDest 0) = true ∧ k (memEntry 0x20000) 0x10000 = false ∧ ((s 1).here.engine (ctlEngine 0)).state ≠ 0 ∧
       ¬((s 0).here.engine (ctlEngine 0)).state ≠ 0 ∧
       (k (4 <<< 61) 0x10000 = false ∧ (s 0).streamDenied 0 [4 <<< 61] = true) ∧
       ((s 0).streamDenied 0 [memEntry 0x20000] = false ∧ alignFault .cp 0x10001 0 [memEntry 0x20000] = true) ∧
       (k poolEntry 0x10000 = false ∧ (s 0).streamDenied 0 [poolEntry] = false ∧ alignFault .cp 0x10000 0 [poolEntry] = false ∧
         (s 0).sizeFault 0 shape2 [poolEntry] = true) ∧
       (k fabricEntry 0x10000 = false ∧ (s 0).streamDenied 0 [fabricEntry] = false ∧ alignFault .cp 0x10000 0 [fabricEntry] = false ∧
         (s 0).sizeFault 0 shape2 [fabricEntry] = false ∧ (s 0).noRoute 0 [fabricEntry] = true) ∧
       (s 0).sizeFault 0 shape2 [memEntry 0x20000] = false ∧ (s 0).noRoute 0 [memEntry 0x20000] = false) := by
  decide +kernel

theorem witness_StreamControl :
    (let s (st : BitVec 2) := streaming st (some (copyJob (memEntry 0x20000)))
     (s 0).here.pred 0 = true ∧ ((s 0).here.engine 0).state = 0 ∧ ((s 1).here.engine 0).state = 1 ∧ ((s 2).here.engine 0).state = 2 ∧
       ((s 3).here.engine 0).state = 3 ∧ (s 3).here.tin = false ∧
       ((s 1).here.engine 0).job = some (copyJob (memEntry 0x20000)) ∧ ((streaming 1 none).here.engine 0).job = none ∧
       ((0x300 : Word).extractLsb' 8 2).toNat = 3) ∧
    (let s := (streaming 3 none).on fun c => { c with wait := .stream 5 0 }
     0 < 8 ∧ s.here.wait = .stream 5 0 ∧ (s.here.engine 0).state = 3) := by decide +kernel

theorem witness_StreamBeats :
    (let j := copyJob poolEntry
     let s := streaming 1 (some j)
     (s.here.engine s.cur.unit).job = some j ∧ (s.here.engine s.cur.unit).state = 1 ∧ j.walks = true ∧ s.isPaused j = false ∧ j.after = [] ∧
       j.late = false ∧ j.toRequest ≠ []) ∧
    (let j := { copyJob (memEntry 0x20000) with late := true, linked := true }
     let s := (streaming 1 (some j)).on fun c => c.onEngine 0 fun e => { e with drainSent := true }
     j.walks = true ∧ s.isPaused j = false ∧ j.after = [] ∧ (s.here.engine s.cur.unit).drainSent = true ∧
       j.toRequest = [] ∧ (∀ r ∈ j.reqs.toList, r = none) ∧ j.linked = true) ∧
    (let j := copyJob fabricEntry
     let s := (streaming 1 (some j)).on fun c => { c with cfg := { c.cfg with dests := [(128, [(8, .port 0 3 0)])] } }
     s.isPaused j = false ∧ j.toRequest = [] ∧ (∀ r ∈ j.reqs.toList, r = none) ∧ j.linked = false ∧
       s.roomFor ((j.beatLinks s.cur.core j.next).map fun d => (d, 1)) = false) ∧
    (let j := copyJob (memEntry 0x20000)
     let s := streaming 1 (some j)
     j.toRequest = [] ∧ s.roomFor ((j.beatLinks s.cur.core j.next).map fun d => (d, 1)) = true) ∧
    (let b := beat0 none []
     let j := { copyJob (memEntry 0x20000) with next := 1, beats := [b] }
     let s := streaming 1 (some j)
     (s.here.engine s.cur.unit).job = some j ∧ j.beats.find? (fun b => b.n == s.cur.n) = some b ∧ b.data = none ∧ b.src = .mem 0x50000 ∧
       s.cur.flag = false ∧ (∀ x ∈ j.beats, x.n < b.n → x.data ≠ none ∧ ∀ q ∈ x.mem, q + 32 ≤ 0x50000 ∨ 0x50000 + 32 ≤ q) ∧
       s.inWindow 0x50000 32 = false ∧ s.memoryFate 0 0x50000 = .arrives) ∧
    (let b := beat0 (some (7, false)) [0x50020]
     let j := { copyJob (memEntry 0x20000) with next := 1, beats := [b] }
     let s := streaming 1 (some j)
     j.beats.find? (fun b => b.n == s.cur.n) = some b ∧ b.data = some (7, false) ∧ b.delivered = false ∧
       (∀ x ∈ j.beats, x.n < b.n → x.delivered = true) ∧ j.tileUnwritten b = false ∧ b.updates = [] ∧ b.mem[s.cur.m]? = some 0x50020 ∧ b.holds = [] ∧
       (∀ x ∈ j.beats, x.n < b.n → x.data ≠ none) ∧ s.inWindow 0x50020 32 = false ∧ s.isDet s.cur.core = false ∧
       s.memoryFate 0 0x50020 = .arrives) ∧
    (let s := fedInput (streaming 0 none) [stored 2]
     s.cur.n < 2 ∧ s.cur.unit < 8 ∧ (s.here.engine s.cur.unit).state ≠ 1 ∧
       (s.portAt (.data s.cur.core s.cur.unit s.cur.n)).toks = stored 2 :: [] ∧ (stored 2).tok.kind = 2) ∧
    (let j := { copyJob (memEntry 0x20000) with op := .sv, ctl := 0x100, linked := true }
     let s := fedInput (streaming 1 (some j)) [stored 0]
     (s.here.engine s.cur.unit).state = 1 ∧ (s.here.engine s.cur.unit).job = some j ∧
       (s.portAt (.data s.cur.core s.cur.unit s.cur.n)).toks = stored 0 :: [] ∧ (stored 0).tok.kind.toNat < 2 ∧ j.badOffset = false ∧
       j.handles = [] ∧ j.needsMore s.cur.n = true ∧ j.empty s.cur.n = true ∧ j.linked = true) ∧
    (let s := fedInput (streaming 0 none) [stored 3]
     (s.here.engine s.cur.unit).job = none ∧ (s.portAt (.data s.cur.core s.cur.unit s.cur.n)).toks = stored 3 :: [] ∧
       (stored 3).tok.kind = 3) := by
  refine ⟨?_, ?_, ?_, ?_, ?_⟩ <;> decide +kernel

/-- What an attempt to issue a beat faults with. -/
def attemptFault : Attempt → Option (BitVec 8 × Word)
  | .fault _ c a => some (c, a)
  | _ => none

theorem witness_StreamEnds :
    (let j (r : Option (BitVec 3)) := { copyJob (memEntry 0x20000) with next := 2, ending := r }
     let s := streaming 1 (some (j none))
     s.cur.unit < 8 ∧ (s.here.engine s.cur.unit).job = some (j none) ∧ (j none).walks = false ∧ (∀ b ∈ (j none).beats, b.finished = true) ∧ s.flights = [] ∧
       (j (some 1)).walks = false ∧ (j (some 3)).walks = false ∧ (j (some 2)).walks = false) ∧
    (let j := { copyJob (memEntry 0x20000) with next := 2, ctl := 0x800 }
     ctlEvt j.ctl = true ∧ j.ending = none ∧ j.walks = false) ∧
    (let j := { copyJob (memEntry 0x20000) with base := 0x30000, linked := true }
     let s := streaming 1 (some j)
     (s.here.engine s.cur.unit).job = some j ∧ (s.here.engine s.cur.unit).state = 1 ∧ j.walks = true ∧ j.beats = [] ∧
       attemptFault (s.attempt s.cur.core s.cur.unit j) = some (0x10, 0x30000) ∧ (0x10 : BitVec 8) ≠ noAnswer) ∧
    (let j := { copyJob (memEntry 0x20000) with linked := true }
     let s := (streaming 1 (some j)).onCtx 0 fun c => { c with root := 0x1000000000 }
     (s.here.engine s.cur.unit).job = some j ∧ j.walks = true ∧ (attemptFault (s.attempt s.cur.core s.cur.unit j)).map (·.1) = some noAnswer) ∧
    (let s := (streaming 0 none).on fun c => c.onEngine 0 fun e => { e with drainAsked := true }
     (s.here.engine s.cur.unit).drainAsked = true ∧ (s.here.engine s.cur.unit).drainSent = false ∧ (s.here.engine s.cur.unit).job = none ∧
       (∀ i ∈ s.here.boundInputsOf s.cur.unit, (s.portAt (.data s.cur.core s.cur.unit i)).closed = true) ∧
       s.roomFor (needsOf (s.here.streamReceivers s.cur.unit) 1) = true) := by decide +kernel

/-! ### Witnesses: pools, banks, probes -/

/-- The descriptor of pool 3: `n` slots of 512 bytes in bank 0 (R263). -/
def poolPlane (n : BitVec 16) : Sparse (BitVec 16) := [(256 * 0x43, n), (256 * 0x43 + 1, 9), (256 * 0x43 + 2, 1)]

/-- A slot of the first generation. -/
def aSlot (st : BitVec 2) (n : BitVec 8) (pres : List Nat) : Slot :=
  { state := st, n := n, count := 1, sfmt := 0, pres := pres, owner := 0, byElem := false }

/-- The handle of slot 0 of pool 3 of a core, first generation. -/
def slot0 (core : Nat) : BitVec 32 := handleFrom core 3 0 1

/-- Pool 3 of core 0, of two slots, with a runtime state; s4 is the handle of its slot 0, s5 a number. -/
def pooled (p : Pool) (x : Word) : State := at0 fun c =>
  ({ c with cfg := { c.cfg with active := poolPlane 2 } }.onPool 3 fun _ => p).setReg 4 ((slot0 0).setWidth 64) |>.setReg 5 x

/-- A pool with one slot in use. -/
def poolWith (t : Slot) : Pool := { Pool.reset with slots := [(0, t)] }

/-- Whether an event on a slot goes through, and its fault. -/
def slotOk (r : Except (BitVec 8) Core) : Bool := r.toOption.isSome
def slotErr (r : Except (BitVec 8) Core) : Option (BitVec 8) :=
  match r with
  | .error e => some e
  | .ok _ => none

theorem witness_SlotLifeCycle :
    let c (t : Slot) : Core := (pooled (poolWith t) 0).here
    3 < 16 ∧ ((pooled Pool.reset 0).here.allocate 3 0 false).isSome = true ∧ (511 < 512 ∧ 15 < 16 ∧ 2047 < 2048) ∧
    (c (aSlot 1 0 [])).slotOf (slot0 0) = some (aSlot 1 0 []) ∧ (pooled Pool.reset 0).here.slotOf (slot0 0) = none ∧
    (c (aSlot 2 3 [])).slotOf (slot0 0) = some (aSlot 2 3 []) ∧ (aSlot 1 0 []).state ≠ 2 ∧ (aSlot 2 3 []).n.toNat < (4 : BitVec 8).toNat ∧
    (aSlot 2 3 []).n = 3 ∧ (2 : BitVec 8).toNat < (aSlot 2 3 []).n.toNat ∧ 1 < (aSlot 2 2 []).n.toNat ∧ (aSlot 2 1 []).n.toNat ≤ 1 ∧
    ((3 : Nat) ≠ handlePool (slot0 0) ∨ 1 ≠ handleSlot (slot0 0)) := by decide +kernel

/-- The core after an instruction has begun. -/
def begun (s : State) : Core := { s.here with nextId := s.here.nextId + 1 }

theorem witness_PoolCommandsAtHome :
    (let s := pooled (poolWith (aSlot 1 0 [0])) 0
     s.here.pred 0 = true ∧ (s.here.reg 4).extractLsb' 0 32 = slot0 0 ∧ handleCore (slot0 0) = s.cur.core ∧
       s.cur.core < s.variant.coreCount ∧ s.inPartition s.cur.core s.cur.core = true ∧ (begun s).poolSize 3 ≠ 0 ∧ (begun s).poolSize 4 = 0 ∧
       (begun s).fenced 3 = false ∧ (begun s).grantNow 3 s.cur.core = true ∧ ((begun s).allocate 3 s.cur.core false).isSome = true ∧
       misaligned (s.here.finish 4).pc = false ∧ s.here.tin = false) ∧
    (begun (pooled { Pool.reset with pfnc := true } 0)).fenced 3 = true ∧
    (begun (pooled { Pool.reset with queue := [⟨0, .seq 0⟩] } 0)).grantNow 3 0 = false ∧
    slotOk ((begun (pooled (poolWith (aSlot 1 0 [])) 0)).publish (slot0 0) 1) = true ∧
    slotErr ((begun (pooled Pool.reset 0)).publish (slot0 0) 1) = some 0x30 ∧
    slotOk ((begun (pooled (poolWith (aSlot 1 0 [])) 0)).abandon (slot0 0) 1) = true ∧
    slotErr ((begun (pooled Pool.reset 0)).abandon (slot0 0) 1) = some 0x30 ∧ (1 : BitVec 8) ≠ 0 ∧
    ((0x1001 : Word).toNat % 32 ≠ 0 ∧ (0x10000 : Word).toNat % 32 = 0 ∧ 0x10000 < (0x10000 : Word).toNat + 32 ∧ (0xFFE0 : Word).toNat + 32 ≤ 0x10000) ∧
    (let c := begun (pooled (poolWith (aSlot 2 1 [15])) 0)
     c.slotOf (slot0 0) = some (aSlot 2 1 [15]) ∧ (aSlot 2 1 [15]).state ≠ 1 ∧ c.poolSectors 3 ≤ 16 ∧ 15 < c.poolSectors 3 ∧
       ¬0 ∈ (aSlot 2 1 [15]).pres ∧ 15 ∈ (aSlot 2 1 [15]).pres) ∧
    ((3 : Word).extractLsb' 0 2 = 3 ∧ (1 : Word).extractLsb' 0 12 ≠ 0 ∧ (4 : Word).extractLsb' 0 2 = 0 ∧ (4 : Word).extractLsb' 0 12 ≠ 0) ∧
    (let c := begun (pooled Pool.reset 0)
     (c.pool 3).pfnc = false ∧ c.bankFenced 3 = false ∧ c.freeCount 3 < (c.pool 3).reserved + 3 ∧ (c.pool 3).reserved + 2 ≤ c.freeCount 3 ∧
       ¬(∃ r ∈ (c.pool 3).rsv, r.1 = 0) ∧ (c.pool 3).rsv.length < 8) ∧
    (let c := begun (pooled { Pool.reset with rsv := (List.range 8).map fun k => (k + 1, 0) } 0)
     (c.pool 3).reserved + 1 ≤ c.freeCount 3 ∧ ¬(∃ r ∈ (c.pool 3).rsv, r.1 = 0) ∧ 8 ≤ (c.pool 3).rsv.length) ∧
    (let c := begun (pooled { Pool.reset with rsv := [(0, 1)] } 0)
     (c.pool 3).reserved + 1 ≤ c.freeCount 3 ∧ ∃ r ∈ (c.pool 3).rsv, r.1 = 0) := by decide +kernel

theorem witness_PoolCommandsOfOtherCores :
    (let s := { at0 id with corePart := [(2, 1)] }
     s.here.pred 0 = true ∧ s.variant.coreCount ≤ handleCore (slot0 384) ∧ handleCore (slot0 2) < s.variant.coreCount ∧
       s.inPartition s.cur.core (handleCore (slot0 2)) = false ∧ handleCore (slot0 1) < s.variant.coreCount ∧
       s.inPartition s.cur.core (handleCore (slot0 1)) = true ∧ handleCore (slot0 1) ≠ s.cur.core) ∧
    (let q : PoolCommand := ⟨5, (slot0 0).setWidth 64, 0, 0⟩
     let s := carrying [⟨1, 0, .poolRequest q 5 7, 0⟩] (pooled (poolWith (aSlot 1 0 [])) 0)
     s.arriving s.cur.n = some ⟨1, 0, .poolRequest q 5 7, 0⟩ ∧ ((s.takePacket s.cur.n).poolApply 1 0 q 5 7).2.isSome = true) ∧
    (let q : PoolCommand := ⟨3, (slot0 0).setWidth 64, 5, 0⟩
     let s := carrying [⟨1, 0, .poolRequest q 5 7, 0⟩] (pooled (poolWith (aSlot 2 1 [5])) 0)
     s.arriving s.cur.n = some ⟨1, 0, .poolRequest q 5 7, 0⟩ ∧ ((s.takePacket s.cur.n).poolApply 1 0 q 5 7).2 = none) ∧
    (let r : AllocReq := ⟨4, .elem 1 3⟩
     let s := carrying [⟨1, 0, .allocRequest 3 r, 0⟩] (at0 id)
     s.arriving s.cur.n = some ⟨1, 0, .allocRequest 3 r, 0⟩) ∧
    (let r : BankReq := bankReq (.elem 1 3) 0 (slot0 0) 0 (.read true)
     let s := carrying [⟨1, 0, .bankRequest r, 0⟩] (at0 id)
     s.arriving s.cur.n = some ⟨1, 0, .bankRequest r, 0⟩) ∧
    (let s := carrying [⟨1, 0, .poolReply (.value 3) 5 7, 0⟩] (at0 (fun c => { c with wait := .poolReply 7 }))
     s.arriving s.cur.n = some ⟨1, s.cur.core, .poolReply (.value 3) 5 7, 0⟩ ∧ s.here.wait = .poolReply 7 ∧ (at0 id).here.wait = .none) ∧
    (let s := carrying [⟨1, 0, .poolReply (.sector 0x200 64 9) 5 7, 0⟩] (at0 (fun c => { c with wait := .poolReply 7 }))
     s.arriving s.cur.n = some ⟨1, s.cur.core, .poolReply (.sector 0x200 64 9) 5 7, 0⟩ ∧ s.here.wait = .poolReply 7) ∧
    (let q : AllocReq := ⟨0, .seq 0⟩
     let s := turn 3 0 0 false ((pooled { Pool.reset with queue := [q] } 0).on fun c => { c with wait := .pool 5 0 })
     s.cur.n = 0 ∧ s.cur.unit < 16 ∧ (s.here.pool s.cur.unit).queue = q :: [] ∧ q.who = .seq s.cur.core ∧ s.here.wait = .pool 5 q.id ∧
       s.here.mayGrant s.cur.unit s.cur.core = true ∧ (s.here.allocate s.cur.unit s.cur.core false).isSome = true) := by decide +kernel

/-- A plane with element 3 enabled on an operation word (R185, R189). -/
def eowPlane (w : BitVec 64) : Sparse (BitVec 16) :=
  [(768, w.extractLsb' 0 16), (769, w.extractLsb' 16 16), (770, w.extractLsb' 32 16), (771, w.extractLsb' 48 16), (831, 1)]

/-- Core 0, whose element 3 has the turn, with an operation word and an element state. -/
def elemAt (w : BitVec 64) (e : Elem) : State := turn 3 0 0 false (at0 fun c =>
  { c with cfg := { c.cfg with active := eowPlane w }, elems := [(3, e)] })

/-- A transaction that gives bank 0 of core 0 to partition 1. -/
def bankTx (st : TxState) : TxRecord :=
  { TxRecord.blank 1 with bimg := 0, aimg := 0, state := st, trial := 4, age := 4, entries := [⟨0x40000000, 0, 0, 1⟩], kind := 1, odev := 0 }

/-- Core 0's sequencer waits in POOL.AL on pool 3 of core 1, or a read is parked at its bank 0, for a number of cycles. -/
def blocked (parked : Bool) (cycles : Word) : State :=
  let s := (pooled (poolWith { aSlot 1 0 [] with owner := 1 }) 0).onCore 1 fun c => c.onPool 3 fun p => { p with queue := [⟨0, .seq 0⟩] }
  s.on fun c =>
    { (if parked then c.onBank 0 fun b => { b with parked := [bankReq (.elem 0 3) 0 (slot0 0) 5 (.read true)] } else c) with
        cycle := cycles, wait := if parked then .none else .pool 5 0,
        waits := if parked then [⟨3, 3, 0, 0, 0, 0⟩] else [⟨0, 0, 0, 0, 0, 0⟩] }

theorem witness_BanksAndProbes :
    (let r := bankReq (.elem 0 3) 0 (slot0 0) 5 (.write 7 1 false)
     let s := (pooled (poolWith (aSlot 1 0 [])) 0).on fun c => c.onBank 0 fun b => { b with queue := [r] }
     (s.here.bank s.cur.unit).queue = [r] ∧ s.cur.unit < 16 ∧ s.cur.m = 0 ∧ r.op = .write 7 1 false ∧ r.who = .elem s.cur.core 3 ∧ 3 < 64 ∧
       s.here.slotOf r.handle = some (aSlot 1 0 []) ∧ ¬r.sector ∈ (aSlot 1 0 []).pres ∧ (aSlot 1 0 []).pres = []) ∧
    (let r : BankReq := { port := 0x80, who := .seq 0, beat := 3, handle := slot0 0, sector := 5, op := .command true 6 64 }
     let s := (pooled (poolWith (aSlot 2 1 [5])) 0).on fun c => { (c.onBank 0 fun b => { b with queue := [r] }) with wait := .poolReply 3 }
     (s.here.bank s.cur.unit).queue = [r] ∧ s.cur.unit < 16 ∧ s.cur.m = 0 ∧ s.here.wait = .poolReply r.beat ∧
       s.here.slotOf r.handle = some (aSlot 2 1 [5]) ∧ r.sector ∈ (aSlot 2 1 [5]).pres ∧ (6 : SReg) ≠ 0 ∧
       misaligned (s.here.finish 4).pc = false) ∧
    (let r := bankReq (.stream 0 0 4) 0 (slot0 0) 5 (.read false)
     let b := { beat0 none [] with src := .tile (slot0 0) 5 }
     let j := { copyJob (memEntry 0) with beats := [b] }
     let s := (pooled (poolWith (aSlot 2 1 [5])) 0).on fun c => (c.onBank 0 fun b => { b with queue := [r] }).onEngine 0 fun e => { e with job := some j }
     (s.here.bank s.cur.unit).queue = [r] ∧ r.op = .read false ∧ r.who = .stream s.cur.core 0 4 ∧
       s.here.slotOf r.handle = some (aSlot 2 1 [5]) ∧ (aSlot 2 1 [5]).state = 2 ∧ r.sector ∈ (aSlot 2 1 [5]).pres ∧
       (s.here.engine 0).job = some j ∧ b ∈ j.beats ∧ b.n = r.beat) ∧
    (let p : PrqRead := ⟨slot0 0, 5, some (stored 0).tok⟩
     let s := elemAt 0x83001FA004010000 { Elem.reset with prq := [p] }
     s.elem.prq = p :: [] ∧ p.reply = some (stored 0).tok ∧ opcodeOf s.here.cfg.active s.cur.unit = 0x83 ∧
       (eowField s.here.cfg.active s.cur.unit).extractLsb' 37 2 = 1) ∧
    (let m : PartMove := ⟨1, 0, 0, 1, false⟩
     let s := { at0 (fun c => c.onBank 0 fun b => { b with zeroising := true }) with moves := [m] }
     s.moves[s.cur.n]? = some m ∧ m.done = false ∧ s.bankBusy m.core m.bank = false ∧ s.journal.records = [] ∧
       ((s.core m.core).bank m.bank).zeroising = true ∧ m.bank < 16) ∧
    (let s := turn 0 1 0 false { at0 id with journal := { Journal.reset with records := [bankTx .applying], nextNum := 2 } }
     s.tx s.cur.n = some (bankTx .applying) ∧ (bankTx .applying).state = .applying ∧ (bankTx .applying).trial ≠ 0 ∧
       (bankTx .applying).trial ≤ (bankTx .applying).age ∧
       ∃ e ∈ (bankTx .applying).entries, keyType e.key = 1 ∧ keyIsCore e.key = false) ∧
    ((TxRecord.blank 1).trial = 0 ∧ kindRevert = kindRevert ∧ keyType 0x40010000 = 1 ∧ keyIsCore 0x40010000 = true) ∧
    (let s := blocked false 65535
     s.here.waits[s.cur.n]? = some ⟨0, 0, 0, 0, 0, 0⟩ ∧ (s.here.cycle - 0).toNat < 65536 * (0 + 1)) ∧
    (let s := blocked false 65536
     let w : WaitView := ⟨0, 0, 0, [1]⟩
     65536 * (0 + 1) ≤ (s.here.cycle - 0).toNat ∧ (s.blockedWaits s.cur.core).find? (fun w => BlockedWait.isOf ⟨0, 0, 0, 0, 0, 0⟩ w) = some w ∧
       ¬s.cur.core ∈ w.targets) ∧
    (let s := blocked true 65536
     let b : BlockedWait := ⟨3, 3, 0, 0, 0, 0⟩
     let w : WaitView := ⟨3, 3, 0, [1]⟩
     s.here.waits[s.cur.n]? = some b ∧ b.srck = 3 ∧ (s.blockedWaits s.cur.core).find? (fun w => b.isOf w) = some w ∧ ¬s.cur.core ∈ w.targets) ∧
    (let s := (blocked true 65536).on fun c => c.onPool 3 fun p => { p with slots := [(0, aSlot 1 0 [])] }
     let w : WaitView := ⟨3, 3, 0, [0]⟩
     (s.blockedWaits s.cur.core).find? (fun w => BlockedWait.isOf ⟨3, 3, 0, 0, 0, 0⟩ w) = some w ∧ s.cur.core ∈ w.targets) ∧
    (384 ≤ 383 + 1 ∧ 382 + 1 < 384) ∧
    (let s (o : ProbeStop) := carrying [⟨1, 0, .probe 3 (o :: []), 0⟩] (blocked false 65536)
     let o : ProbeStop := ⟨0, 0, 0, 0⟩
     (s ⟨1, 0, 0, 0⟩).arriving (s ⟨1, 0, 0, 0⟩).cur.n = some ⟨1, 0, .probe 3 (⟨1, 0, 0, 0⟩ :: []), 0⟩ ∧ (1 : Nat) ≠ 0 ∧
       (s o).arriving (s o).cur.n = some ⟨1, 0, .probe 3 (o :: []), 0⟩ ∧ o.core = 0 ∧
       (∃ w ∈ ((((s o).takePacket (s o).cur.n).syncWaitsAt 0).core 0).waits, w.stop 0 = o) ∧
       (∀ w ∈ ((((s ⟨0, 0, 0, 9⟩).takePacket (s ⟨0, 0, 0, 9⟩).cur.n).syncWaitsAt 0).core 0).waits, w.stop 0 ≠ ⟨0, 0, 0, 9⟩)) ∧
    (let p : ProbeStop := ⟨0, 1, 3, 4⟩
     let q : ProbeStop := ⟨0, 2, 1, 5⟩
     lowestStop ([q, ⟨1, 0, 0, 0⟩, p].filter fun p => p.core == 0) = some p ∧ ¬p.num ∈ (State.reset.core 0).told ∧
       p.num ∈ ((at0 fun c => { c with told := [4] }).core 0).told ∧ ¬p ∈ [q, ⟨1, 0, 0, 0⟩]) := by
  refine ⟨?_, ?_, ?_, ?_, ?_, ?_, ?_, ?_, ?_, ?_, ?_, ?_, ?_, ?_⟩ <;> decide +kernel

/-! ### Witnesses: element operations -/

/-- The premises of `MayTake`, `MayFire`, `MayConsume` and `MayPass` as tests that evaluate; each lemma says that the test is enough. -/
def takes (s : State) (is : List Nat) (n : Nat) : Bool := (s.elem.skewed is n false true).isEmpty && s.elem.ready is n
def consumes (s : State) (is : List Nat) (n : Nat) (ok : Nat → Bool) : Bool :=
  takes s is n && is.all fun i => (s.elem.group i n).all fun t => t.kind == kindData && (formatAt s.here.cfg.active s.cur.unit t).any ok
def fires (s : State) (w : Eow) (n outN : Nat) (ok : Nat → Bool) : Bool :=
  consumes s (namedInputs w) n ok && s.roomFor (needsOf (s.outs w 0) outN ++ needsOf (s.outs w 1) outN)
def passes (s : State) (is : List (Nat × Admits)) (must : Bool) (ns : Needs) : Bool :=
  (s.elem.skewed (is.map (·.1)) 1 must true).isEmpty && s.elem.ready (is.map (·.1)) 1 &&
    is.all (fun i => (s.elem.head i.1).all fun t => (i.2.refuses t).isNone) && s.roomFor ns

theorem takes_enough {s is n} (h : takes s is n = true) : MayTake s is n := by
  simpa [takes, MayTake] using h

theorem consumes_enough {s is n ok} (h : consumes s is n ok = true) : MayConsume s is n ok := by
  simp only [consumes, Bool.and_eq_true, List.all_eq_true, Option.any_eq_true_iff_get, beq_iff_eq] at h
  refine ⟨takes_enough h.1, fun i hi t ht => ⟨(h.2 i hi t ht).1, ?_⟩⟩
  obtain ⟨hs, hv⟩ := (h.2 i hi t ht).2
  exact ⟨_, (Option.some_get hs).symm, hv⟩

theorem fires_enough {s w n outN ok} (h : fires s w n outN ok = true) : MayFire s w n outN ok := by
  simp only [fires, Bool.and_eq_true] at h
  exact ⟨(consumes_enough h.1).1, (consumes_enough h.1).2, h.2⟩

theorem passes_enough {s is must ns} (h : passes s is must ns = true) : MayPass s is must ns := by
  simp only [passes, Bool.and_eq_true, List.all_eq_true, List.isEmpty_iff, Option.all_eq_true, Option.isNone_iff_eq_none] at h
  exact ⟨h.1.1.1, h.1.1.2, fun i hi t ht => h.1.2 i hi t ht, h.2⟩

/-- A token of a kind with a payload; its format is that of VC 0. -/
def tok (kind : BitVec 2) (p : Payload) : Token := { payload := p, tag := 0, taint := false, round := 0, e := 0, vc := 0, kind := kind }

/-- A token that names its format itself. -/
def tokOf (fmt : BitVec 4) (p : Payload) : Token := { tok 0 p with tag := ((fmt ++ (0x80 : BitVec 8)) : BitVec 12) }

/-- Core 0, whose element 3 has the turn: its operation word, the format of VC 0, the tokens at I0–I3, further plane fields, its state. -/
def elemWith (w : BitVec 64) (fmt : BitVec 4) (ts : List (List Token)) (fields : Sparse (BitVec 16)) (f : Elem → Elem) : State :=
  let s := elemAt w (f { Elem.reset with ports := Vector.ofFn fun i => { Port.reset with toks := ((ts[i.val]?).getD []).map fun t => ⟨t, 0⟩ } })
  s.on fun c => { c with cfg := { c.cfg with active := c.cfg.active ++ (256 * 3 + 0x10, 0x80 + fmt.setWidth 16) :: fields } }

/-- Output O0 of element 3 goes to input I0 of element 4, which has no link slots. -/
def fullBelow (s : State) : State := s.on fun c => { c with cfg := { c.cfg with dests := [(6, [(8, .port 0 4 0)])] } }

/-- FADD.bf16, IADD.i32, CVT from FP32 to BF16 and of K0, RSUM.bf16, DEQ, QNT. -/
def wFadd : Eow := ⟨1, 0, 0, 1, 7, 1, 0, 0, 3, 0, 0⟩
def wIadd : Eow := ⟨3, 0, 0, 1, 7, 1, 0, 0, 3, 0, 0⟩
def wCvt : Eow := ⟨1, 0, 0, 7, 7, 1, 1, 0, 3, 0x10, 0⟩
def wCvtK : Eow := { wCvt with sa := 4 }
def wOne : Eow := ⟨1, 0, 0, 7, 7, 1, 0, 0, 3, 0, 0⟩
def wDeq : Eow := ⟨1, 0, 0, 1, 7, 1, 0, 2, 3, 0xB, 0⟩
def wQnt : Eow := ⟨1, 0, 0, 7, 7, 3, 2, 0, 3, 0xB1, 0⟩

theorem witness_ElementOperationsWaitOrTrap :
    groupForm (.fadd wFadd) = some (wFadd, 1, 1, 1) ∧ namedInputs wFadd = [0, 1] ∧
    (elemWith 0x001007A003000000 1 [[tok 2 0], [tok 0 0]] [] id).elem.skewed [0, 1] 1 false true ≠ [] ∧
    (let s := elemWith 0x001007A003000000 1 [[tok 0 0], []] [] id
     s.elem.skewed [0, 1] 1 false true = [] ∧ s.elem.ready [0, 1] 1 = false) ∧
    (let s := elemWith 0x001007A003000000 1 [[tok 0 0], [tok 1 0]] [] id
     takes s [0, 1] 1 = true ∧ [0, 1] = [0] ++ 1 :: [] ∧
       (∀ q ∈ [0], ∀ x ∈ s.elem.group q 1, refusal s.here.cfg.active s.cur.unit (· == 1) x = none) ∧
       s.elem.group 1 1 = [] ++ tok 1 0 :: [] ∧ refusal s.here.cfg.active s.cur.unit (· == 1) (tok 1 0) = some (2, 0xE)) ∧
    (let s := fullBelow (elemWith 0x001007A003000000 1 [[tok 0 0], [tok 0 0]] [] id)
     takes s [0, 1] 1 = true ∧ (∀ k ∈ [0, 1], ∀ t ∈ s.elem.group k 1, refusal s.here.cfg.active s.cur.unit (· == 1) t = none) ∧
       s.roomFor (needsOf (s.outs wFadd 0) 1 ++ needsOf (s.outs wFadd 1) 1) = false) := by decide +kernel

theorem witness_IntegerElementOperations :
    fires (elemWith 0 3 [[tok 0 5], [tok 0 7]] [] id) wIadd 1 1 (· == tyOf wIadd) = true ∧
    fires (elemWith 0 3 [[tok 0 5], [tok 0 7]] [] id) { wIadd with md := 8 } 1 1 (· == tyOf wIadd) = true := by decide +kernel

theorem witness_FloatElementOperations : tyOf wFadd < 3 ∧ (floatFmt (tyOf wFadd)).isSome = true ∧
    fires (elemWith 0x001007A003000000 1 [[tok 0 0x3F80], [tok 0 0x7FC0]] [] id) wFadd 1 1 (· == tyOf wFadd) = true := by decide +kernel

theorem witness_RepresentableValuesRoundToThemselves : ∃ f d, floatFmt 1 = some f ∧ 0x3F81 < 2 ^ f.width ∧ decodeFloat f 0x3F81 = .fin d :=
  ⟨_, _, rfl, by decide +kernel, rfl⟩

theorem witness_LaneMovesAndConversions :
    (tyOf wFadd < 9 ∧ (floatFmt (tyOf wFadd)).isSome = true ∧ tyOf wIadd < 9 ∧ floatFmt (tyOf wIadd) = none ∧ wFadd.sa.toNat < 6 ∧
      wFadd.sb.toNat < 6) ∧
    fires (elemWith 0 1 [[tok 0 0x3F80], [tok 0 0x4000]] [] id) wFadd 1 1 (· == tyOf wFadd) = true ∧
    fires (elemWith 0 3 [[tok 0 5], [tok 0 7]] [] id) wIadd 1 1 (· == tyOf wIadd) = true ∧
    (wCvt.sa.toNat < 4 ∧ wCvt.sb.toNat = 7 ∧ wCvt.sc.toNat = 7 ∧ 2 ^ wCvt.rin.toNat * laneCount 0 = 2 ^ wCvt.rout.toNat * laneCount 1 ∧
      fires (elemWith 0x40101FA203100000 0 [[tok 0 0, tok 0 0]] [] id) wCvt 2 1 (· == 0) = true ∧
      4 ≤ wCvtK.sa.toNat ∧ wCvtK.sa.toNat < 6 ∧ fires (elemWith 0 0 [] [] id) wCvtK 2 1 (· == 0) = true) ∧
    (let s := elemWith 0 1 [[tokOf 0xB 0], [tokOf 0xD 0]] [] id
     wDeq.sa.toNat < 4 ∧ wDeq.sb.toNat < 4 ∧ wDeq.sa ≠ wDeq.sb ∧ takes s (inputsOf [wDeq.sa, wDeq.sb]) 1 = true ∧
       s.elem.head wDeq.sa.toNat = some (tokOf 0xB 0) ∧ s.elem.opst.held = none ∧ s.elem.head wDeq.sb.toNat = some (tokOf 0xD 0) ∧
       (tokOf 0xD 0).kind = kindData ∧ formatAt s.here.cfg.active s.cur.unit (tokOf 0xD 0) = some 0xD ∧
       formatAt s.here.cfg.active s.cur.unit (tokOf 0xB 0) = some (wDeq.aux.toNat % 16) ∧
       s.roomFor (needsOf (s.outs wDeq 0) 4 ++ needsOf (s.outs wDeq 1) 4) = true) ∧
    (let s (c : Nat) := elemWith 0 1 [List.replicate 4 (tokOf 1 0)] [] fun e => { e with opst := { e.opst with cnt := c } }
     wQnt.sa.toNat < 4 ∧ consumes (s 15) [0] 4 (· == 1) = true ∧ (s 15).elem.opst.cnt + 1 = 16 ∧ ¬(s 14).elem.opst.cnt + 1 = 16 ∧
       (carryOf ((s 14).elem.group 0 4) ((s 14).elem.group 0 4)).e.getLsbD 0 = false ∧
       (s 15).roomFor (needsOf ((s 15).outs wQnt 0) 1 ++ needsOf ((s 15).outs wQnt 1) 1) = true ∧
       (s 14).roomFor (needsOf ((s 14).outs wQnt 0) 1) = true) := by decide +kernel

theorem witness_Reductions :
    (wOne.sa.toNat < 6 ∧ fires (elemWith 0x50101FA003000000 1 [[tok 0 0x3F80]] [] id) wOne 1 1 (· == tyOf wOne) = true) ∧
    (tyOf wIadd < 9 ∧ floatFmt (tyOf wIadd) = none ∧
      fires (elemWith 0 3 [[tok 0 5], [tok 0 7]] [] id) wIadd 1 1 (· == tyOf wIadd) = true) ∧
    (wOne.sa.toNat < 4 ∧ consumes (elemWith 0 1 [[tok 0 0x3F80]] [] id) [wOne.sa.toNat] 1 (· == tyOf wOne) = true) := by decide +kernel

/-- A state at each of whose inputs one token of a kind stands, with an operation state. -/
def tokens (kind : BitVec 2) (p : Payload) (fields : Sparse (BitVec 16)) (o : Opst → Opst) : State :=
  elemWith 0 1 [[tok kind p], [tok kind p], [tok kind p], []] fields fun e => { e with opst := o e.opst }

/-- A word with sources I0, I1 and I2, and one whose first source alone is an input. -/
def wThree : Eow := ⟨0, 0, 0, 1, 2, 1, 0, 0, 1, 0, 3⟩
def wFirst : Eow := ⟨0, 0, 0, 7, 7, 1, 0, 0, 1, 0, 0⟩

theorem witness_TokenOperations :
    (let s := tokens 0 1 [] id
     (s.headAt 1).isTrue = true ∧ (tokens 0 0 [] id).headAt 1 = tok 0 0 ∧ (tokens 0 0 [] id |>.headAt 1).isTrue = false ∧
       passes s [(0, .both), (1, .data)] false (needsOf (s.outs wThree 0) 1) = true ∧ outputOn wThree 0 = true ∧ outputOn wThree 1 = false ∧
       s.elem.hasWork 2 = true ∧ passes s [(2, .data), (0, .both)] false (s.bothOuts wThree) = true ∧
       s.elem.opst.loop = false ∧ passes s [(0, .both)] false (s.bothOuts wThree) = true ∧
       passes s [(0, .both), (1, .both)] false (s.bothOuts wThree) = true) ∧
    (let s := tokens 0 1 [] fun o => { o with loop := true, held := some (tok 0 9) }
     s.elem.opst.loop = true ∧ s.elem.opst.held = some (tok 0 9) ∧ (s.headAt 2).isTrue = true ∧
       passes s [(2, .data), (1, .both)] true (s.bothOuts wThree) = true ∧ passes s [(2, .data)] true (s.bothOuts wThree) = true) ∧
    (let s := tokens 0 0 [] fun o => { o with loop := true }
     (s.headAt 2).isTrue = false ∧ s.elem.hasWork 2 = true ∧ passes s [(2, .data)] true [] = true) ∧
    (let s := tokens 0 1 [(256 * 0x58, 1)] id
     passes s [(0, .both)] false (s.bothOuts wThree) = true ∧ passes s [(0, .both)] false [] = true ∧ s.here.permitsOut 0 < s.here.permitSize 0 ∧ s.here.permitsOut 0 = 0 ∧
       (tokens 0 1 [] id).here.permitSize 0 ≤ (tokens 0 1 [] id).here.permitsOut 0 ∧
       (s.on fun c => c.onPermit 0 (· + 1)).here.permitsOut 0 ≠ 0) ∧
    (let s := tokens 0 1 [] fun o => { o with any := true, cnt := 1 }
     s.elem.opst.any = true ∧ s.roomFor (s.bothOuts wThree) = true ∧ 0 < s.elem.opst.cnt) ∧
    (let s := tokens 0 1 [] id
     s.elem.opst.any = false ∧ passes s [(0, .data)] false (s.bothOuts wThree) = true ∧ s.elem.opst.cnt = 0 ∧ wThree.imm.toNat ≠ 0 ∧
       wFirst.imm.toNat = 0 ∧ passes s [(0, .data)] false [] = true) ∧
    (let s := tokens 0 1 [(256 * 3 + 0x3B, 1)] id
     s.elem.opst.cnt < ((fieldOf s.here.cfg.active s.cur.unit 0x3B).extractLsb' 0 5).toNat ∧
       passes s [(1, .both)] false (s.bothOuts wThree) = true ∧ passes s [] false (s.bothOuts wFirst) = true ∧
       ((fieldOf (tokens 0 1 [] id).here.cfg.active 3 0x3B).extractLsb' 0 5).toNat ≤ (tokens 0 1 [] id).elem.opst.cnt) := by
  decide +kernel

theorem witness_RecordAndPoolElementOperations :
    (let s := tokens 0 0 [] id
     passes s [(0, .data)] false (s.bothOuts wThree) = true ∧ s.elem.opst.hand = none ∧ s.elem.opst.req = none ∧ s.elem.opst.any = false ∧
       passes s [(0, .data)] false [] = true ∧ (s.elem.opst.held.bind fun t => nextHandle t.payload s.elem.opst.idx.toNat) = none ∧
       nextHandle (s.headAt 0).payload s.elem.opst.cnt = none ∧ nextHandle (s.headAt 0).payload 0 = none ∧
       passes s [(0, .data), (1, .both)] false [] = true ∧ passes s [(0, .data), (1, .data)] false (s.bothOuts wThree) = true ∧
       ((s.headAt 1).payload.extractLsb' 0 32 : BitVec 32) = 0) ∧
    (let s := tokens 1 0 [] id
     passes s [(0, .record)] false (s.bothOuts wThree) = true) ∧
    (let s := elemWith 0 1 [[tok 1 0], [tok 0 0]] [] id
     passes s [(0, .record), (1, .data)] false (s.bothOuts wThree) = true) ∧
    (let s := tokens 0 0 [] fun o => { o with req := some 4 }
     s.elem.opst.hand = none ∧ s.elem.opst.req.isSome = true) ∧
    (let s := tokens 0 0 (poolPlane 2) fun o => { o with hand := some (slot0 0), any := true, sector := 3, fmt := some 1 }
     s.elem.opst.hand = some (slot0 0) ∧ passes s [(0, .data)] false (s.bothOuts wThree) = true ∧ s.elem.opst.fill = false ∧
       passes s [(1, .both)] false (s.bothOuts wThree) = true ∧ (s.headAt 1).kind = kindData ∧
       formatAt s.here.cfg.active s.cur.unit (s.headAt 1) = some 1 ∧ s.elem.opst.fmt = some (BitVec.ofNat 4 1) ∧
       s.inPartition s.cur.core (handleCore (slot0 0)) = true ∧ s.roomFor (s.bothOuts wThree) = true ∧
       nextHandle (s.headAt 0).payload s.elem.opst.cnt = none ∧ s.elem.opst.any = true ∧ passes s [(0, .data)] false [] = true) ∧
    (let s (c k : Nat) := tokens 0 0 (poolPlane 2) fun o => { o with hand := some (slot0 0), fill := true, sector := k, cnt := c }
     (s 0 15).elem.opst.fill = true ∧ (s 0 15).elem.opst.sector < ((s 0 15).core 0).poolSectors 3 ∧
       ((s 1 16).core 0).poolSectors 3 ≤ (s 1 16).elem.opst.sector ∧ 0 < (s 1 16).elem.opst.cnt ∧ (s 0 16).elem.opst.cnt = 0) ∧
    (let s (held : Option Token) := tokens 0 ((slot0 2).setWidth 256) [] fun o => { o with held := held }
     let d := { s none with corePart := [(2, 1)] }
     let t := tok 0 ((slot0 2).setWidth 256)
     nextHandle ((s none).headAt 0).payload 0 = some (slot0 2, 1) ∧ ((s none).headAt 1).kind = kindData ∧
       formatAt (s none).here.cfg.active (s none).cur.unit ((s none).headAt 1) = some 1 ∧
       passes (s none) [(0, .data), (1, .both)] false ((s none).bothOuts wThree) = true ∧
       passes (s none) [(0, .data), (1, .both)] false [] = true ∧
       nextHandle ((s none).headAt 0).payload (s none).elem.opst.cnt = some (slot0 2, 1) ∧ handleCore (slot0 2) = 2 ∧
       (s none).inPartition (s none).cur.core 2 = true ∧ d.inPartition d.cur.core 2 = false ∧
       passes d [(0, .data), (1, .both)] false (d.bothOuts wThree) = true ∧ (s (some t)).elem.opst.held = some t ∧
       nextHandle t.payload (s (some t)).elem.opst.idx.toNat = some (slot0 2, 1) ∧
       passes (s (some t)) [(1, .both)] false ((s (some t)).bothOuts wThree) = true ∧ passes (s none) [(0, .data)] false [] = true ∧
       passes (s none) [(0, .data)] false ((s none).bothOuts wThree) = true ∧
       passes (s none) [(0, .data), (1, .data)] false ((s none).bothOuts wThree) = true ∧
       (((s none).headAt 1).payload.extractLsb' 0 32 : BitVec 32) = slot0 2 ∧ slot0 2 ≠ 0) ∧
    (let s := tokens 0 0 (poolPlane 2) fun o => { o with hand := some (slot0 0) }
     s.elem.opst.any = false ∧ s.elem.opst.hand = some (slot0 0) ∧ slot0 0 ≠ 0 ∧ s.inPartition s.cur.core (handleCore (slot0 0)) = true ∧
       passes s [(0, .data)] false (s.bothOuts wThree) = true) ∧
    (let r (t : Option Token) : PrqRead := ⟨slot0 0, 0, t⟩
     let s (t : Option Token) := (tokens 0 0 (poolPlane 2) fun o => { o with hand := some (slot0 0), any := true, held := some (tok 0 7) }).onElem
       fun e => { e with prq := [r t] }
     (s none).elem.opst.any = true ∧ (s none).elem.opst.hand = some (slot0 0) ∧ (s none).elem.opst.held = some (tok 0 7) ∧
       (∃ x ∈ (s none).elem.prq, x.reply = none) ∧ (∀ x ∈ (s (some (tok 0 0))).elem.prq, x.reply.isSome = true)) := by
  refine ⟨?_, ?_, ?_, ?_, ?_, ?_, ?_, ?_, ?_⟩ <;> decide +kernel
/-! ### Witnesses: matrix mode and the fabric -/

/-- MROW with a role in MCTL: 0 head, 1 middle, 2 tail, partial sums toward the east neighbour; a weight register is FULL where asked. -/
def chained (role : BitVec 16) (full : Bool) (ps : List PSum) (f : Elem → Elem) : State :=
  elemWith 0x9110056003000000 1 [[tok 0 5], [tok 0 6], [tok 0 7]] [(256 * 3 + 0x38, 4 ||| role)] fun e =>
    f { e with ws0 := if full then .stat else .empty, psums := ps }

/-- The word of that MROW, and one whose first source is an accumulator bank. -/
def wMrow : Eow := eowOf 0x9110056003000000
def wBank : Eow := ⟨1, 0, 6, 0, 7, 1, 0, 0, 3, 0, 0⟩

/-- Banks A0 in a state. -/
def bankState (b : BState) (e : Elem) : Elem := { e with bs0 := b }

theorem witness_MatrixOperations :
    (Elem.reset.wrow < 16 ∧ Elem.reset.wrow < 15 ∧ ({ Elem.reset with wrow := 15 } : Elem).wrow = 15) ∧
    (let s := elemWith 0x9010C7A002080000 1 [[tok 0 5]] [] id
     wOne.sa.toNat < 4 ∧ consumes s [wOne.sa.toNat] 1 (· == 1) = true ∧ s.elem.wfwd = 0 ∧ s.elem.wstate s.elem.ldp = .empty ∧
       s.roomFor (needsOf (s.outs wOne 0) 1) = true ∧ 0 < ({ Elem.reset with wfwd := 16 } : Elem).wfwd ∧
       ({ Elem.reset with ws0 := .stat } : Elem).wstate false ≠ .empty) ∧
    (let s := chained 0 true [] id
     wMrow = eowOf (eowField s.here.cfg.active s.cur.unit) ∧ opcodeOf s.here.cfg.active s.cur.unit = 0x91 ∧
       enabled s.here.cfg.active s.cur.unit = true ∧ s.elem.halted = false ∧ s.elem.passed = false ∧ wMrow.sc.toNat < 4 ∧
       consumes s [wMrow.sc.toNat] 1 (· == 1) = true) ∧
    (let s := elemWith 0x9010C7A002080000 1 [[tok 0 5]] [] id
     4 ≤ wBank.sa.toNat ∧ takes s [wBank.sb.toNat] 1 = true ∧ s.elem.wstate s.elem.ldp = .empty ∧ s.elem.bstate (wBank.aux.getLsbD 4) ≠ .draining ∧
       s.roomFor (s.bothOuts wBank) = true ∧ (bankState .draining Elem.reset).bstate (wBank.aux.getLsbD 4) = .draining) := by decide +kernel

theorem witness_MatrixOperations_rows :
    (let s := chained 1 true [] id
     consumes s [wMrow.sa.toNat] 1 (· == 1) = true ∧ isHead (mctlRole s.mctl) = false ∧ s.elem.psums = []) ∧
    (let s := chained 0 true [] id
     isHead (mctlRole s.mctl) = true ∧ isTail (mctlRole s.mctl) = false ∧ s.elem.wstate s.elem.usp ≠ .empty ∧
       s.roomFor (needsOf (s.outs wMrow 0) 1) = true ∧ neighbourIn s.cur.unit (mctlPdir s.mctl) = some 4 ∧
       (s.here.elem 4).psums.length < 2 ∧ (chained 0 false [] id).elem.wstate false = .empty ∧
       2 ≤ ((s.on fun c => c.onElem 4 fun e => { e with psums := List.replicate 2 ⟨0, 0, false⟩ }).here.elem 4).psums.length) ∧
    (let s (row : BitVec 7) := chained 2 true [⟨0, row, false⟩] id
     isHead (mctlRole (s 0).mctl) = false ∧ isTail (mctlRole (s 0).mctl) = true ∧ (s 0).elem.psums.head? = some ⟨0, 0, false⟩ ∧
       ((s 0).headAt wMrow.sa).row = 0 ∧ (1 : BitVec 7) ≠ ((s 1).headAt wMrow.sa).row ∧ (s 0).elem.bstate (s 0).elem.bp ≠ .draining ∧
       (chained 2 true [⟨0, 0, false⟩] (bankState .draining)).elem.bstate false = .draining) := by decide +kernel

theorem witness_MatrixOperations_drains :
    (let p : AccWrite := ⟨false, 3, 0, false⟩
     (elemWith 0 1 [] [] fun e => { e with pending := [p] }).elem.pending = p :: []) ∧
    (let s := elemWith 0x92001FA001000000 1 [[tok 0 5]] [] id
     passes s [((eowOf 0x92001FA001000000).sa.toNat, .data)] false [] = true ∧ s.elem.bstate s.elem.bp ≠ .draining) ∧
    (let s := elemWith 0x93001FA201000000 0 [[tok 0 5, tok 0 6]] [] id
     let t := elemWith 0x93001FA201000000 0 [[tok 0 5, { tok 0 6 with tag := 1 }]] [] id
     consumes s [0] 2 (· == 0) = true ∧ s.elem.group 0 2 = [tok 0 5, tok 0 6] ∧ (tok 0 5).row = (tok 0 6).row ∧
       consumes t [0] 2 (· == 0) = true ∧ (tok 0 5).row ≠ ({ tok 0 6 with tag := 1 } : Token).row ∧ s.elem.bstate s.elem.bp ≠ .draining) ∧
    (let j (b : Bool) : DrainJob := ⟨false, 0, false, b, 0, 0, 0⟩
     let s (b : Bool) := chained 2 true [] fun e => { e with drains := [j b], bs0 := .draining }
     (s false).elem.halted = false ∧ (s false).elem.drains = j false :: [] ∧ (j false).started = false ∧ (∀ q ∈ (s false).elem.pending, q.bank ≠ false) ∧
       (∃ q ∈ [(⟨false, 3, 0, false⟩ : AccWrite)], q.bank = (j false).bank) ∧ wMrow.oe ≠ 0 ∧
       (eowOf 0x9110050003000000).oe = 0 ∧ (j true).started = true ∧ (s true).fuse.getLsbD 0 = false ∧
       (s true).roomFor ((drainOuts 0x91).flatMap fun o => needsOf ((s true).outs wMrow o) 1) = true) := by decide +kernel

/-- A token on its way from output O0 of element 3 of core 0 to input I0 of element 4; `e` is its route entry, 8 for no box. -/
def flight (e : Nat) (t : Token) : Flight := ⟨.elem 0 3 0, .port 0 4 0, e, none, t⟩

/-- The same from element 7 into core 1, by a route that crosses the link east. -/
def crossing : Flight := ⟨.elem 0 7 0, .port 1 0 0, 0, none, tok 0 0⟩

/-- A token of stream engine 0 toward the same input of element 4, which no output feeds. -/
def streamed : Flight := ⟨.stream 0 0, .port 0 4 0, 8, none, tok 0 0⟩

/-- MDRN at element 4 with a residual input at I0. -/
def residualPlane : Sparse (BitVec 16) := [(256 * 4, 0), (256 * 4 + 1, 0x0200), (256 * 4 + 2, 0x00A0), (256 * 4 + 3, 0x9200), (256 * 4 + 0x3F, 1),
  (256 * 4 + 0x3A, 1)]

/-- PASS-like element 3 with I0 bound to the sequencer and tokens there. -/
def boundElem (op : BitVec 64) (ts : List Token) (f : Elem → Elem) : State := elemWith op 1 [ts] [(256 * 3 + 8, 0x24)] f

theorem witness_FabricEvents_tokens :
    (let s := turn 0 1 0 false { at0 id with flights := [flight 8 (tok 0 0), flight 8 (tok 0 1)] }
     s.flights[s.cur.n]? = some (flight 8 (tok 0 1)) ∧ s.cur.flag = false ∧ s.flightBehind s.cur.n (flight 8 (tok 0 1)) = true) ∧
    (let s := { turn 0 0 1 true (at0 (fun c => { c with cfg := { c.cfg with active := [(256 * 3 + 0x40, 0xC200)] } })) with flights := [flight 0 (tok 0 0)] }
     s.flights[s.cur.n]? = some (flight 0 (tok 0 0)) ∧ s.cur.flag = true ∧ s.flightBehind s.cur.n (flight 0 (tok 0 0)) = false ∧
       (flight 0 (tok 0 0)).isTakeDrain = false ∧ s.pathFor s.cur.m (flight 0 (tok 0 0)) = .underWay 0 4 0 3) ∧
    (let s := { at0 id with flights := [flight 8 (tok 0 0)] }
     s.flights[s.cur.n]? = some (flight 8 (tok 0 0)) ∧ s.flightBehind s.cur.n (flight 8 (tok 0 0)) = false ∧ (flight 8 (tok 0 0)).isTakeDrain = false ∧
       s.pathOf (flight 8 (tok 0 0)) = .clear ∧ (s.portAt (flight 8 (tok 0 0)).dst).closed = false ∧ s.here.residualPort 4 0 = false) ∧
    (let c := (at0 fun c => { c with cfg := { c.cfg with active := residualPlane } }).here
     c.residualPort 4 0 = true ∧ (c.elem 4).halted = false ∧ residualRefusal c.cfg.active 4 (tokOf 0 0) = none ∧
       residualRefusal c.cfg.active 4 (tokOf 3 0) = some (0, 3)) ∧
    (let s := { at0 id with flights := [flight 0 (tok 0 0)] }
     s.pathOf (flight 0 (tok 0 0)) = .broken 0 3 ∧ (flight 0 (tok 0 0)).tok.isWork = true ∧ (flight 0 (tok 2 0)).tok.isWork = false ∧
       s.flightBehind s.cur.n (flight 0 (tok 0 0)) = false ∧ (flight 0 (tok 0 0)).src = .elem 0 3 0 ∧ (flight 0 (tok 0 0)).isTakeDrain = false) ∧
    (let s := { at0 (fun c => { c with cfg := { c.cfg with active := [(256 * 7 + 0x40, 0xC200)] } }) with flights := [crossing] }
     s.flights[s.cur.n]? = some crossing ∧ s.flightBehind s.cur.n crossing = false ∧ s.pathOf crossing = .denied 1 ∧ crossing.src = .elem 0 7 0) ∧
    (let s := { at0 id with flights := [streamed] }
     s.pathOf streamed = .broken 0 4 ∧ streamed.tok.isWork = true ∧ streamed.src = .stream 0 0 ∧ streamed.isTakeDrain = false ∧
       s.flightBehind s.cur.n streamed = false) ∧
    (let k : Credit := ⟨.port 0 4 0, false, 0⟩
     let s := { at0 id with credits := [k] }
     s.credits[s.cur.n]? = some k ∧ k.final = false) := by
  refine ⟨?_, ?_, ?_, ?_, ?_, ?_, ?_, ?_⟩ <;> decide +kernel

theorem witness_FabricEvents :
    (let p (tag : BitVec 6) : Packet := ⟨1, 0, .event, tag⟩
     let s (tag : BitVec 6) : State := turn 0 0 0 true (carrying [p tag] (at0 id))
     (s 0).net[(s 0).cur.n]? = some (p 0) ∧ (s 0).cur.flag = true ∧ (s 0).fate 1 0 = .arrives ∧ (s 0).accepts (p 0) = true ∧
       (s 5).net[(s 5).cur.n]? = some (p 5) ∧ (s 5).accepts (p 5) = false ∧ ({ s 0 with permit := [] } : State).fate 1 0 = .denied 1 3) ∧
    (let s := boundElem 0x67001FA001000000 [tok 2 0] id
     enabled s.here.cfg.active s.cur.unit = true ∧ s.elem.passed = false ∧ s.elem.halted = false ∧ s.elem.sentDrain = false ∧
       s.elem.filling s.opcode = false ∧
       (s.findHead s.loops fun _ t => t.kind == kindMark) = none ∧ s.marksReady = true ∧ s.elem.idle s.opcode = true ∧
       roundInputs s.opcode (eowOf s.eow) = [0] ∧ s.elem.wrongRound 0 = false ∧ s.releaseStep.isNone = true ∧
       s.roomFor (s.bothOuts (eowOf s.eow)) = true ∧
       (boundElem 0x67001FA001000000 [{ tok 2 0 with round := 1 }] id).elem.wrongRound 0 = true) ∧
    (let s := boundElem 0x67001FA001000000 [tok 3 0] id
     (s.findHead (s.here.boundInputs s.cur.unit) fun _ t => t.kind == kindDrain) = some (0, tok 3 0) ∧ 0 < 4 ∧
       enabled s.here.cfg.active s.cur.unit = true ∧ s.elem.passed = false ∧ s.elem.filling s.opcode = false ∧
       (tok 3 0).payload.extractLsb' 0 16 = s.here.cfg.idx ∧ (tok 3 7).payload.extractLsb' 0 16 ≠ s.here.cfg.idx ∧
       ((boundElem 0x67001FA001000000 [tok 3 7] id).findHead (s.here.boundInputs s.cur.unit) fun _ t => t.kind == kindDrain) = some (0, tok 3 7)) ∧
    (let s := boundElem 0x67001FA001000000 [] fun e => e.onPort 0 fun p => { p with closed := true }
     enabled s.here.cfg.active s.cur.unit = true ∧ (s.findHead (s.here.boundInputs s.cur.unit) fun _ t => t.kind == kindDrain) = none ∧
       s.elem.passed = false ∧ s.elem.filling s.opcode = false ∧
       s.elem.sentDrain = false ∧ s.inputsClosed = true ∧ s.elem.idle s.opcode = true ∧ s.flushStep.isNone = true ∧
       s.roomFor (s.bothOuts (eowOf s.eow)) = true) ∧
    (let s (k : BitVec 2) := boundElem 0x67001FA001000000 [tok k 0] fun e => { e with halted := true }
     enabled (s 0).here.cfg.active 3 = true ∧
       (s 0).elem.halted = true ∧ ((s 0).findHead ((s 0).here.boundInputs 3) fun _ t => t.kind != kindDrain) = some (0, tok 0 0) ∧
       (tok 0 0).isWork = true ∧ ((s 2).findHead ((s 2).here.boundInputs 3) fun _ t => t.kind != kindDrain) = some (0, tok 2 0) ∧
       (tok 2 0).isWork = false ∧ ((s 3).findHead ((s 3).here.boundInputs 3) fun _ t => t.kind != kindDrain) = none) ∧
    (let s := elemWith 0x69001FA001000000 1 [] [] fun e => { e with opst := { e.opst with any := true } }
     let w := eowOf (eowField s.here.cfg.active s.cur.unit)
     opcodeOf s.here.cfg.active s.cur.unit = 0x69 ∧ s.elem.opst.any = true ∧ enabled s.here.cfg.active s.cur.unit = true ∧ s.elem.halted = false ∧
       s.elem.passed = false ∧ s.elem.sentDrain = false ∧ s.roomFor (s.bothOuts w) = true ∧
       (fullBelow s).roomFor ((fullBelow s).bothOuts w) = false) := by
  refine ⟨?_, ?_, ?_, ?_, ?_, ?_⟩ <;> decide +kernel
/-! ### Witnesses: the stage router -/

/-- Set 0 with one stage, capacity `cap`, windows of one value, ordered where asked; its ports are input I0 of element 0, with four slots. -/
def routed (cap : BitVec 16) (ord : Bool) (f : Core → Core) : State := turn 3 0 0 false (at0 fun c => f
  { c with cfg := { c.cfg with active := [(8, 0x24), (0x3F, 1), (256 * 3 + 0x3F, 1), (256 * 0x50, if ord then 0x401 else 1), (256 * 0x50 + 1, cap)] } })

/-- A record of set 0 with SEQ 0 in an entry; what an entry holds of it. -/
def entryOf (t : Token) : RecordEntry :=
  { set := 0, tok := t, out := none, since := 0, sides := [], complete := false, releasing := none, slotted := false, logAt := none, expect := none }

/-- A record whose DONE bit 0 is set, for the one stage. -/
def doneRecord : Payload := (1 : Payload) <<< 248

/-- A router with entries. -/
def withEntries (es : List RecordEntry) (c : Core) : Core := { c with router := { c.router with entries := es } }

/-- A queue of returns of set 0. -/
def withReturns (ts : List Token) (c : Core) : Core := c.onSet 0 fun q => { q with rtq := ts }

theorem witness_RouterRecords_sent :
    (let c := (routed 1 false id).here
     let d (seq : BitVec 20) : Nat := (c.windowOf 0 seq + c.windows 0 - (c.stageSet 0).o) % c.windows 0
     c.router.held = false ∧ 2 ^ 20 / (2 * c.window 0) ≤ d 0x80000 ∧ ¬2 ^ 20 / (2 * c.window 0) ≤ d 0x7FFFF ∧ 1 < d 2 ∧ d 1 ≤ 1 ∧
       (c.records 0).length < c.capacity 0 ∧ c.ordered 0 = false ∧ (routed 1 true id).here.ordered 0 = true ∧
       c.capacity 0 ≤ ((1 : BitVec 20) - (c.stageSet 0).next).toNat ∧
       (∃ e ∈ (routed 1 false (withEntries [entryOf (tok 1 0)])).here.router.entries, e.set.toNat = 0 ∧ recordSeq e.tok.payload = 0) ∧
       c.capacity 0 ≤ ((routed 1 false (withEntries [entryOf (tok 1 0)])).here.records 0).length) ∧
    (let w := eowOf 0x7300000001000000
     let s (f : Core → Core) := (elemWith 0x7300000001000000 1 [[tok 1 0]] [(256 * 0x50, 1), (256 * 0x50 + 1, 1)] id).on f
     let full := withEntries [entryOf (tok 1 ((1 : Payload) <<< 224))]
     w.sa.toNat = 0 ∧ passes (s id) [(0, .record)] false [] = true ∧ (s id).here.admission (w.aux.toNat % 8) 0 = .granted ∧
       (s full).here.admission 0 0 = .waits ∧ (s (withEntries [entryOf (tok 1 0)])).here.admission 0 0 = .refused ∧
       enabled (s id).here.cfg.active 3 = true ∧ opcodeOf (s id).here.cfg.active 3 = 0x73 ∧ (s id).elem.halted = false ∧
       (s id).elem.passed = false ∧ (s id).elem.sentDrain = false) := by decide +kernel

theorem witness_RouterRecords_sret :
    let s (p : Payload) (f : Core → Core) := (elemWith 0 1 [[tok 1 p], [tok 0 1]] [(256 * 0x50, 1), (256 * 0x50 + 1, 1)] id).on f
    passes (s 0 id) [(0, .record)] false [] = true ∧ passes (s 0 id) [(0, .record), (1, .data)] false [] = true ∧
    ((s 0 id).here.stageOf 3).1 = 0 ∧ (recordSet (0 : Payload)).toNat = 0 ∧ (recordDone (0 : Payload)).getLsbD 0 = false ∧
    (recordDone doneRecord).getLsbD 0 = true ∧ ((s 0 id).here.stageSet 0).rtq.length < 4 ∧
    4 ≤ ((s 0 (withReturns (List.replicate 4 (tok 1 0)))).here.stageSet 0).rtq.length := by decide +kernel

theorem witness_RouterRecords_draws :
    (let e := entryOf (tok 1 0)
     let s := routed 1 false (withEntries [e])
     s.here.router.held = false ∧ s.here.router.log < 2 ∧ s.here.router.log ≠ 1 ∧ s.here.router.drawn = none ∧ s.here.oldestReady = some e ∧
       s.roomFor [(s.here.setPort s.cur.core 0 (8 + s.drawStage s.cur.core e), 1)] = true ∧
       (s.on fun c => c.onElem 0 fun x => x.onPort 0 fun p => { p with pend := 4 }).roomFor [(s.here.setPort s.cur.core 0 8, 1)] = false ∧
       (s.core 0).remaining e = [0] ∧ (s.core 0).nst 0 ≤ 8 ∧ ((s.core 0).stageSet 0).lmode = 0 ∧
       (((s.core 0).onSet 0 fun q => { q with lmode := 1 }).stageSet 0).lmode ≠ 0) ∧
    (let e := entryOf (tok 1 0)
     let s := routed 1 false fun c => { withEntries [e] c with router := { (withEntries [e] c).router with drawn := some (0, 0, 0) } }
     s.here.router.drawn = some (e.set, recordSeq e.tok.payload, 0) ∧
       (s.here.records 0).find? (fun x => recordSeq x.tok.payload == recordSeq e.tok.payload) = some e) ∧
    (let e := { entryOf (tok 1 0) with out := some 0 }
     let s := routed 1 false fun c => withReturns [tok 1 doneRecord] (withEntries [e] c)
     s.here.nextReturn = some 0 ∧ (s.here.stageSet 0).rtq = tok 1 doneRecord :: [] ∧ s.here.router.held = false ∧
       (s.here.records 0).find? (fun e => recordSeq e.tok.payload == recordSeq doneRecord && e.out.isSome) = some e ∧ e.expect = none ∧
       e.logAt = none ∧ recordPass (0 : Payload) = false ∧ recordPass ((1 : Payload) <<< 244) = true) := by decide +kernel

theorem witness_RouterRecords_exits :
    (let e := { entryOf (tok 1 doneRecord) with complete := true }
     let s := routed 1 true (withEntries [e])
     s.here.router.held = false ∧ s.here.router.entries[s.cur.n]? = some e ∧ e.complete = true ∧ s.here.ordered 0 = true ∧
       recordSeq e.tok.payload = (s.here.stageSet 0).next ∧ (1 : BitVec 20) ≠ (s.here.stageSet 0).next ∧ e.releasing = none ∧
       s.roomFor [(s.here.setPort s.cur.core 0 2, 1)] = true ∧ s.here.router.stores = [] ∧
       (let r (b : Bool) : RecordEntry := { e with releasing := some [], slotted := b }
        let x (n : Option (BitVec 20)) : SideStore := ⟨0, 0, [], n, false, []⟩
        (r false).releasing = some [] ∧ (r false).slotted = false ∧ (r true).slotted = true ∧
          (∃ y ∈ [x (some 3)], y.seq ≠ none) ∧ (∃ y ∈ [x (some 0)], y.set = e.set ∧ y.seq = some 0) ∧ (∀ y ∈ [x none], y.seq = none) ∧
          (∀ y ∈ [x (some 1)], y.seq ≠ some 0)) ∧
       (List.range 8).flatMap (fun k => (({ e with sides := [(0, 7)] } : RecordEntry).sides.filter fun x => x.1.toNat == k).map (·.2)) = [7] ∧
       (routed 1 true fun c => { withEntries [e] c with router := { (withEntries [e] c).router with stopped := true } }).here.router.stopped = true) ∧
    (let x (a : Word) : SideStore := ⟨0, a, [1, 2], some 0, false, []⟩
     let s (a : Word) := pagedAt 0 fun c => { c with router := { c.router with stores := [x a] } }
     (s 0x10000).here.router.stopped = false ∧ (s 0x10000).here.router.stores = x 0x10000 :: [] ∧ (∃ y ∈ [x 0], y.set = 0 ∧ y.seq = some 0) ∧
       reached ((s 0x10000).translate 0 0 .write 0x10000) = some 0x50000 ∧ (x 0).holds = [] ∧ faulted ((s 0).translate 0 0 .write 0) = some 0x11 ∧
       (0x11 : BitVec 8) ≠ noAnswer ∧ (s 0x10000).supd.toList.all (fun u => u.window.isEmpty) = true ∧
       ((s 0x10000).translate 0 0 .write 0x10000).1.memoryFate 0 0x50000 = .arrives ∧
       (let t := ((s 0x10000).translate 0 0 .write 0x10000).1
        chainStepOf t.chains (stackOf 0x50000) (t.seqNums 0 9 ((s 0x10000).here.router.owns[stackOf 0x50000]?.getD 0) false) = some []) ∧
       (let t : State := { s 0x10000 with launches := [{ launchOfPacket [] 4 0 0 with cols := 1, rows := 1, placed := true, det := true }] }
        (chainStepOf t.chains 0 (t.seqNums 0 9 0 false)).isSome = true ∧ chainStepOf t.chains 0 (t.seqNums 0 9 1 false) = none)) ∧
    (let s := turn 0 0 0 false (routed 1 false fun c => { c with cfg := { c.cfg with draining := true } })
     s.here.router.held = false ∧ s.here.nst s.cur.unit ≠ 0 ∧ (s.here.stageSet 0).drainSent = false ∧ s.here.sendersDone (some 0) = true ∧
       s.here.records 0 = [] ∧ (s.here.stageSet 0).rtq = [] ∧ s.here.router.stores = [] ∧
       s.roomFor [(s.here.setPort 0 0 8, 1), (s.here.setPort 0 0 2, 1)] = true) := by decide +kernel

theorem witness_RouterCommands :
    (let c := (routed 1 false id).here
     c.pred 0 = true ∧ (0x400 : Word).extractLsb' 8 4 = 4 ∧ (0x1F : Word).toNat % 32 ≠ 0 ∧ 2 ^ 55 ≤ (0x80000000000000 : Word).toNat ∧
       2 ^ 20 ≤ (0x100000 : Word).toNat ∧ ¬2 ^ 20 ≤ (0xFFFFF : Word).toNat ∧ c.records 0 = [] ∧ c.nst 0 ≠ 0 ∧ c.nst 1 = 0 ∧
       (routed 1 false (withEntries [entryOf (tok 1 0)])).here.records 0 ≠ [] ∧ (c.records 0).length < 256 ∧
       (∀ q ∈ (c.stageSet 0).p1.toList, q < 512) ∧ (c.stageSet 0).p1[7]? = some 128) ∧
    ((3 : Word).extractLsb' 0 2 = 3 ∧ (0x10 : Word).getLsbD 4 = true ∧ (2 : Word).getLsbD 4 = false ∧
      (at0 id).variant.full = true ∧ ({ at0 id with variant := .y7l } : State).variant.full = false ∧
      ((6 : Word).toNat % 4 ≠ 0 ∧ (4 : Word).toNat % 4 = 0 ∧ 1 < 2 ∧ 2 ^ 24 < 2 ^ 24 + 1 ∧ ¬2 ^ 24 < (0x1000000 : Word).toNat)) ∧
    misaligned ((at0 id).here.finish 4).pc = false := by decide +kernel

/-! ### Witnesses: the journal -/

/-- Core 0 with the bytes of `proposal` in scratch at 0x40 and the address in s4. -/
def block : State := at0 fun c => ({ c with scratch := [(0x46, 2), (0x58, 8), (0x5C, 0x30), (0x64, 5)] } : Core).setReg 4 0x40

/-- The refusal that something answers. -/
def refusedWith {α : Type} (r : Except Nat α) : Option Nat :=
  match r with
  | .error e => some e
  | .ok _ => none

/-- A journal changed. -/
def journaled (f : Journal → Journal) (s : State) : State := { s with journal := f s.journal }

/-- A record of partition 0 with a change of field 0x30 of element 0 of core 0. -/
def record (n : Nat) (st : TxState) : TxRecord :=
  { TxRecord.blank n with bimg := 0, aimg := 0, state := st, kind := 2, odev := 0, entries := [⟨8, 0x30, 0, 5⟩] }

/-- A journal that holds records from number 1 on. -/
def held (rs : List TxRecord) : State → State := journaled fun j => { j with records := rs, nextNum := rs.length + 1 }

/-- A pin of partition 0 by another context. -/
def foreignPin : Pin := ⟨0, 0, 1⟩

/-- A proposal of one change of a scale register. -/
def proposal : List Word := [0x2000000000000, 0, 0, 0x3000000008, 0x500000000, 0, 0, 0]

theorem witness_JournalCommands_blocks :
    (let s := at0 fun c => (c.setReg 4 0x1001).setReg 5 0x10000
     s.here.pred 0 = true ∧ (s.here.reg 4).toNat % 32 ≠ 0 ∧ (s.here.reg 5).toNat % 64 = 0 ∧ 0x10000 < (s.here.reg 5).toNat + 64) ∧
    (let s := block
     s.here.pred 0 = true ∧ (s.here.reg 4).toNat % 64 = 0 ∧ (s.here.reg 4).toNat + 64 ≤ 0x10000 ∧
       (List.range (64 / 8)).map (fun i => (BitVec.ofNat 64 (readScratch s.here ((s.here.reg 4).toNat + 8 * i) 8) : Word)) = proposal) := by
  decide +kernel

theorem witness_JournalCommands_proposals :
    let s := block
    let w := s.programHere
    (s.propose w proposal).2.toOption = some 1 ∧
    (s.propose w [0x2000000000000, 0, 0, 0x8000000000030000, 0x100000000000000, 0, 0, 0]).2.toOption = none ∧
    3 < (([0x4000000000000] : List Word)[0]?.getD 0).extractLsb' 48 4 ∧
    ((proposal[0]?).getD 0 = ((((proposal[0]?).getD 0).extractLsb' 48 4).setWidth 64 : Word) <<< (48 : Nat) ∧ ((proposal[0]?).getD 0).extractLsb' 48 4 = 2#4 ∧
      (proposal[2]?).getD 0 = 0 ∧ ((proposal[3]?).getD 0).extractLsb' 48 16 = 0 ∧ ((proposal[4]?).getD 0).extractLsb' 0 32 = 0 ∧
      ((proposal[5]?).getD 0).extractLsb' 0 48 = 0 ∧ (proposal[6]?).getD 0 = 0 ∧ (proposal[7]?).getD 0 = 0) ∧
    s.scopeRefusal 0 0 = none ∧ s.scopeRefusal 0 1 = some 3 ∧ s.scopeRefusal 0 0x20 = some 2 ∧
    s.keyRefusal true 0 2 0 ⟨8, 0x30, 0, 5⟩ = none ∧ s.keyRefusal true 0 3 0 ⟨0x80000001, 0, 0, 5⟩ = some 3 ∧
    s.keepsPartitions [⟨8, 0x30, 0, 5⟩] = true ∧
    ({ s with corePart := [(0, 1), (10, 2)] } : State).keepsPartitions [⟨0x40010000, 0, 0, 2⟩] = false ∧
    (held ((List.range 64).map fun n => record (n + 1) .pending) s).roomForTx = none ∧ s.roomForTx.isSome = true ∧
    (∀ q ∈ ([[0x2000000000001, 0, 0, 0x3000000008], [0x2000000000000, 0, 1, 0x3000000008], [0x2000000000000, 0, 0, 0x1003000000008],
        [0x2000000000000, 0, 0, 0x3000000008, 1], [0x2000000000000, 0, 0, 0x3000000008, 0, 1], [0x2000000000000, 0, 0, 0x8000000000030000]] : List (List Word)),
      (s.propose w q).2.toOption = some (refusalWord 2)) := by decide +kernel

/-- A proposal of an image of one entry at an address. -/
def imageProposal (va : Word) : List Word := [0x2000000000000, 0, 0, 0x8000000000000000 ||| va, 0x100000000000000, 0, 0, 0]

/-- The bytes that a read of virtual memory gives. -/
def bytesRead (r : State × Except (BitVec 8 × Word) (List Byte)) : Option (List Byte) := r.2.toOption

/-- The code that a command faults with. -/
def codeOf {α : Type} (r : State × Except (BitVec 8 × Word) α) : Option (BitVec 8) :=
  match r.2 with
  | .error e => some e.1
  | .ok _ => none

theorem witness_JournalCommands_images :
    let bs := bytesOf 8 0x3000000008 ++ bytesOf 8 5
    let s := { pagedAt 0 id with mem := writeBytes (pagedAt 0 id).mem 0x50000 bs }
    let q := imageProposal 0x10000
    let at_ (i : Nat) : Word := (q[i]?).getD 0
    (((at_ 0).extractLsb' 48 4).toNat ≤ 3 ∧ at_ 0 = (((at_ 0).extractLsb' 48 4).setWidth 64 : Word) <<< (48 : Nat) ∧ at_ 2 = 0 ∧
      (at_ 3).extractLsb' 55 9 = 0x100 ∧ (at_ 4).extractLsb' 0 56 = 0 ∧ (at_ 4).extractLsb' 56 8 ≠ 0 ∧ (at_ 5).extractLsb' 0 48 = 0 ∧
      at_ 6 = 0 ∧ at_ 7 = 0 ∧ s.scopeRefusal s.programHere.part (at_ 1) = none) ∧
    bytesRead (s.fetchBytes (some 0) 0 0x10000 16) = some bs ∧ bytesRead (s.fetchBytes (some 0) 0 0x30000 16) = none ∧
    (let lost := s.onCtx 0 fun c => { c with root := 0x1000000000 }
     codeOf (lost.propose lost.programHere q) = some noAnswer) ∧ (0x10 : BitVec 8) ≠ noAnswer ∧
    s.roomForTx.isSome = true ∧ imageEntries (qwordsOf bs) = ([⟨8, 0x30, 0, 5⟩], true) ∧
    (imageEntries (qwordsOf (List.replicate 16 0xFF))).2 = false ∧
    s.keyRefusal true 0 2 0 ⟨8, 0x30, 0, 5⟩ = none ∧ s.keepsPartitions [⟨8, 0x30, 0, 5⟩] = true := by decide +kernel

theorem witness_JournalCommands_jobs :
    let s := held [record 1 .confirmed] (at0 id)
    let w := s.programHere
    refusedWith (s.exportJob w (List.replicate 8 0)) = some 4 ∧ (s.exportJob w [0, 1, 0, 0, 0, 0, 0, 0]).toOption.isSome = true ∧
    refusedWith (s.loadJob w [1, 0, 0, 0, 0, 0, 0, 0]) = some 2 ∧ (s.loadJob w (List.replicate 8 0)).toOption.isSome = true := by
  decide +kernel

/-- A subscription of core 0 to every state of partition 0. -/
def aSub : Subscription := ⟨0, 0x10000, 0x10100, 0, 0x1F, 0, 0⟩

theorem witness_JournalCommands_subscriptions :
    (let s := pagedAt 0 id
     refusedWith (s.subscription [1, 0, 0, 0]) = some 2 ∧
       (s.subscription [0x10000, 0x10100, 0, 0x7C0]).toOption = some aSub ∧ lowestFree (s.ctx s.here.ctxTag).subs 16 = 0 ∧
       reached ((s.onCtx 0 fun c => { c with subs := Sparse.put c.subs 0 aSub }).translate aSub.core 0 .write aSub.c) = some 0x50100 ∧ s.portFate 0x50100 = .arrives ∧
       faulted ((s.onCtx 0 fun c => { c with subs := Sparse.put c.subs 0 aSub }).translate 0 0 .write 0) = some 0x11 ∧
       ((([0x10000, 0x10100, 0, 0x7C0] : List Word)[3]?).getD 0).getLsbD 16 = false) ∧
    (let s := at0 fun c => c.setReg 4 3
     let t := s.onCtx 0 fun c => { c with subs := [(3, aSub)] }
     Sparse.find (s.ctx s.here.ctxTag).subs ((s.here.reg 4).toNat % 16) = none ∧
       (Sparse.find (t.ctx t.here.ctxTag).subs ((t.here.reg 4).toNat % 16)).isSome = true) := by decide +kernel

theorem witness_JournalCommands_pins :
    (let s := at0 fun c => c.setReg 5 7
     s.scopeRefusal s.here.ctxPart 1 = some 3 ∧ s.scopeRefusal s.here.ctxPart (s.here.reg 4) = none ∧
       ((s.here.reg 5).extractLsb' 0 48).toNat ≠ s.versionOf 0 ∧ ((s.here.reg 4).extractLsb' 0 48).toNat = s.versionOf 0 ∧ s.journal.pins.length < 64 ∧
       64 ≤ (journaled (fun j => { j with pins := (List.range 64).map fun n => (n, foreignPin) }) s).journal.pins.length) ∧
    (let s := journaled (fun j => { j with pins := [(0, foreignPin), (1, ⟨0, 0, 0⟩)] }) (at0 fun c => (c.setReg 4 1).setReg 5 2)
     Sparse.find s.journal.pins ((s.here.reg 5).toNat % 64) = none ∧ Sparse.find s.journal.pins 0 = some foreignPin ∧
       foreignPin.tag ≠ s.here.ctxTag ∧ Sparse.find s.journal.pins ((s.here.reg 4).toNat % 64) = some ⟨0, 0, 0⟩ ∧ (0 : BitVec 6) = s.here.ctxTag) := by
  decide +kernel

theorem witness_JournalCommands_records :
    let t := record 1 .confirmed
    let u := record 2 .refused
    let v : TxRecord := { record 3 .confirmed with scope := 4 }
    let s := held [t, u, v] (at0 id)
    (s.findTx 0 1).toOption = some t ∧ refusedWith (s.findTx 0 9) = some 6 ∧
    (0 < s.journal.oldest ∧ s.journal.oldest ≤ 4 ∧ s.journal.nextNum ≤ 4 ∧ s.journal.oldest ≤ 1 ∧ 1 < s.journal.nextNum ∧ s.tx 3 = some v ∧
      scopePart v.scope ≠ 0 ∧ scopePart t.scope = 0) ∧
    u.state.stands = false ∧ t.state.stands = true ∧ (s.revertTx t 0 3 false).toOption.isSome = true ∧
    refusedWith ((journaled (fun j => { j with pins := [(0, foreignPin)] }) s).revertTx t 0 3 false) = some 9 ∧
    (let c : JournalCall := ⟨0, 5, 3, 7⟩
     let r := journaled (fun j => { j with calls := [c] }) (at0 fun c => { c with wait := .journal 5 })
     r.here.wait = .journal 5 ∧ r.journal.calls.find? (fun c => c.core == r.cur.core && c.id == 5) = some c) := by decide +kernel

/-- A job of the journal: a load or a write-out, its bytes, its room and the address it is written to. -/
def job (load : Bool) (bytes : List Byte) (size : Nat) (va : Word) : JournalJob :=
  { load := load, tag := 0, core := some 0, scope := 0x100000005, fromNum := 1, toNum := 1, sign := false, va := va, size := size, status := 0x10000,
    key := 0, txn := none, applied := 0, started := true, bytes := bytes, begun := [] }

/-- A machine with one job. -/
def jobbed (j : JournalJob) (s : State) : State := journaled (fun g => { g with jobs := [j] }) s

theorem witness_JournalEvents_jobs :
    (let j (size : Nat) (va : Word) := job false [1, 2] size va
     let s (size : Nat) (va : Word) := jobbed (j size va) (pagedAt 0 id)
     (s 1 0).journal.jobs[(s 1 0).cur.n]? = some (j 1 0) ∧ (j 1 0).load = false ∧ (j 1 0).size < (j 1 0).bytes.length ∧
       (j 2 0).bytes.length ≤ (j 2 0).size ∧
       (let r := (s 2 0x10000).putBytes (j 2 0x10000).core 0 0x10000 [1, 2]
        r.2 = none ∧ r.1.cur = (s 2 0x10000).cur) ∧
       (let r := (s 2 0x30000).putBytes (j 2 0x30000).core 0 0x30000 [1, 2]
        r.2.isSome = true ∧ r.1.cur = (s 2 0x30000).cur)) ∧
    (let j (bs : List Byte) : JournalJob := { job true bs 0 0 with scope := 0x101000005 }
     let named (n : Nat) : JournalJob := { j [] with txn := some n }
     let s := held [record 1 .applying, record 2 .refused, record 3 .trial] (jobbed (j []) (at0 id))
     (j []).load = true ∧ (j []).started = true ∧ ((named 1).txn.bind s.tx).map (·.state.inFlight) = some true ∧
       ((named 2).txn.bind s.tx).map (·.state) = some .refused ∧ ((named 3).txn.bind s.tx).map (·.state) = some .trial ∧
       (j []).txn.bind s.tx = none ∧ segmentField (j []).bytes 0x0C 4 ≤ 0 ∧ (s.shapeDigest (j []).scope).toNat = segmentField (j []).bytes 0x2C 4 ∧
       (s.shapeDigest (j []).scope).toNat ≠ segmentField (List.replicate 0x2C 0 ++ [1]) 0x2C 4 ∧ (j []).core = some 0 ∧
       0 < segmentField (List.replicate 12 0 ++ [1]) 0x0C 4 ∧ s.roomForTx.isSome = true ∧
       (held ((List.range 64).map fun n => record (n + 1) .pending) s).roomForTx = none) := by decide +kernel

theorem witness_JournalEvents_windows :
    (let s (n : Word) := at0 fun c => { c with cycle := n }
     (s 65535).here.cycle.toNat / 65536 ≤ ((s 65535).leadWindows 0).index ∧ ((s 65536).leadWindows 0).index < (s 65536).here.cycle.toNat / 65536 ∧
       (s 0).scopeLead (record 1 .trial).scope = (s 0).cur.core ∧ (record 1 .trial).window ≤ 0 ∧ 0 < ({ record 1 .trial with window := 1 } : TxRecord).window ∧
       (record 1 .trial).trial ≤ (record 1 .trial).windows ∧ ({ record 1 .trial with trial := 1 } : TxRecord).windows < 1 ∧
       (record 1 .applying).state = .applying) ∧
    (let t (pbef : Nat) : TxRecord := { record 1 .trial with trial := 1, windows := 1, units := 3, pbef := pbef, before := 1 }
     let s (p : Nat) := turn 0 1 0 false (held [t p] (at0 id))
     (s 3).tx (s 3).cur.n = some (t 3) ∧ (t 3).state = .trial ∧ (t 3).det = false ∧ (t 3).trial ≤ (t 3).windows ∧ (s 3).beingReverted 1 = false ∧
       (record 1 .confirmed).state ≠ .trial ∧ ({ t 3 with windows := 0 } : TxRecord).windows < (t 3).trial ∧
       ({ t 3 with isOver := true } : TxRecord).isOver = true ∧ (t 3).isOver = false) := by decide +kernel

/-- A trial of one window with 3 units, after a mean of `p`. -/
def trialRecord (p : Nat) : TxRecord := { record 1 .trial with trial := 1, windows := 1, units := 3, pbef := p, before := 1 }

theorem witness_JournalEvents_trials :
    let s (p : Nat) := turn 0 1 0 false (held [trialRecord p] (at0 id))
    (¬3 * 256 < 3 * (256 - (s 3).tolerance (scopePart (trialRecord 3).scope))) ∧
    3 * 256 < 9 * (256 - (s 9).tolerance (scopePart (trialRecord 9).scope)) ∧
    ((s 9).revertTx (trialRecord 9) 0 0 true).toOption.isSome = true ∧
    refusedWith ((journaled (fun j => { j with pins := [(0, foreignPin)] }) (s 9)).revertTx (trialRecord 9) 0 0 true) = some 9 ∧
    (s 9).beingReverted 1 = false ∧
    (held [trialRecord 9, { record 2 .pending with kind := kindRevert, members := [1] }] (at0 id)).beingReverted 1 = true ∧
    refusedWith ((held (trialRecord 9 :: (List.range 64).map fun n => record (n + 2) .pending) (at0 id)).revertTx (trialRecord 9) 0 0 true) = some 1 := by decide +kernel

theorem witness_JournalEvents_controllers :
    (let s := { journaled (fun j => { j with service := [(2, { below := 4, above := 0 }), (1, { below := 0, above := 4 })] }) (turn 0 0 0 false (at0 id)) with
       corePart := [(0, 1), (1, 1), (2, 2)], cur := { (at0 id).cur with core := 1, m := 2, flag := false } }
     s.partOf s.cur.core = some 1 ∧ s.partDet 1 = false ∧ s.cur.flag = false ∧ BitVec.ofNat 5 s.cur.m ≠ 1#5 ∧ s.partDet 2 = false ∧
       4 ≤ (Sparse.get ({ below := 0, above := 0 } : Service) s.journal.service 2).below ∧
       4 ≤ (Sparse.get ({ below := 0, above := 0 } : Service) s.journal.service 1).above ∧ (s.launchOf s.cur.core).isNone = true ∧
       (s.spread [s.cur.core] 1 (s.scopeCores (partScope 0))).contains s.cur.core = true ∧
       s.connected ((s.scopeCores (partScope 1)).filter (· != s.cur.core)) = true) ∧
    (turn 3 0 0 true (at0 id)).cur.flag = true ∧ (turn 3 0 0 true (at0 id)).cur.unit < 64 ∧
    (let s := turn 64 0x20 9 true (at0 id)
     s.cur.flag = true ∧ 64 ≤ s.cur.unit ∧ s.keyRefusal false 0 3 (partScope 0)
       ⟨BitVec.ofNat 32 (2 ^ 31 + (0 : BitVec 5).toNat * 65536 + s.cur.n % 65536), 0, 0, BitVec.ofNat 32 s.cur.m⟩ = none) ∧
    (let s := { journaled (fun j => { j with service := [(2, { below := 4, above := 0 }), (0, { below := 0, above := 4 })] }) (at0 id) with
       corePart := [(2, 2)], cur := { (at0 id).cur with n := 16, m := 2, flag := false } }
     s.cur.flag = false ∧ 0 < s.cur.n ∧ s.cur.n ≤ 16 ∧ s.partOf s.cur.core = some 0 ∧ s.partDet 2 = false ∧ s.bankPartOf s.cur.core 15 = 0 ∧
       4 ≤ (Sparse.get ({ below := 0, above := 0 } : Service) s.journal.service 2).below ∧
       4 ≤ (Sparse.get ({ below := 0, above := 0 } : Service) s.journal.service 0).above) ∧ (Sparse.get ({ below := 0, above := 0 } : Service) (at0 id).journal.service 0).below < 4 ∧
    (held ((List.range 64).map fun n => record (n + 1) .pending) (at0 id)).roomForTx = none ∧ (at0 id).roomForTx.isSome = true := by decide +kernel

/-! ### Witnesses: translations, queues and packets -/

/-- The context of owner tag 0, OPEN, over the pages of `paged`, with bytes at virtual address 0x10000. -/
def opened (bs : List Byte) : State :=
  let s := (paged 0).onCtx 0 fun c => { c with state := .opened }
  { s with mem := writeBytes s.mem 0x50000 bs, ready := true }

/-- The first qwords of a control block: a ring of two packets at virtual address 0x10400, and WIDX. -/
def qcbBytes (w : Nat) : List Byte := bytesOf 8 0x10400 ++ bytesOf 8 1 ++ bytesOf 8 w

/-- The same of one packet with a first word of its own, and a block whose SZ is 0, in a state. -/
def qcbWith (q1 : Nat) : List Byte := bytesOf 8 0x10400 ++ bytesOf 8 q1 ++ bytesOf 8 1

/-- A slot of queue 7 with a control block that counts `w` packets and a head. -/
def slotWith (w : Nat) (granted : Bool) (h : Option (List Word)) : QueueSlot :=
  { qid := 7, tag := 0, q := qcbOf [0x10400, 1, BitVec.ofNat 64 w], granted := granted, head := h, satisfied := false, unmapping := false }

/-- Queue 7 registered, with slots. -/
def queued (bs : List Byte) (sl : Sparse QueueSlot) : State := { opened bs with queues := [(7, ⟨0, 0x10000, false⟩)], slots := sl }

/-- A message of an operation for a handle, with a payload. -/
def message (op ctxh : Nat) (p : List Byte) : Message :=
  { qword0 := BitVec.ofNat 64 (op + ctxh * 2 ^ 16 + p.length * 2 ^ 32), qword1 := 0, payload := p, gcm := 0, conn := 0, core := 0, engine := 0, beat := 0,
    session := none, device := none }

/-- A machine that has received one message, over a connection that delivers in order. -/
def received (m : Message) (s : State) : State := { s with inbox := [m], connections := [true] }

theorem witness_TranslationAndQueues_walks :
    (let s := turn 0 0x10000 0 false (opened [])
     s.cur.n < 2 ^ 55 ∧ s.cur.flag = false ∧ (s.walk s.here.ctxTag s.cur.n).isSome = true ∧
       s.walkFate s.cur.core s.here.ctxTag s.cur.n = .arrives ∧
       (s.onCtx 0 fun c => { c with root := 0x1000000000 }).walkFate 0 0 s.cur.n ≠ .arrives) ∧
    (let s := turn 0 0x30000 0 false (opened [])
     s.walk s.here.ctxTag s.cur.n = none ∧ s.walkFate s.cur.core s.here.ctxTag s.cur.n = .arrives) ∧ 2 ^ 55 ≤ (turn 0 (2 ^ 55) 0 false (opened [])).cur.n ∧
    (let s := turn 0 0x20000 0x10000 false ((opened []).on fun c => { c with accesses := [access .store 0] })
     ∃ e ∈ s.cores, s.partOf e.1 = some (s.ctx (BitVec.ofNat 6 s.cur.unit)).part ∧ e.2.accesses ≠ []) ∧
    ((copyJob (memEntry 0)).translated = false ∧ ({ copyJob (memEntry 0) with beats := [beat0 none []] } : StreamJob).translated = true) ∧
    (let s := { turn 0 0x20000 0x10000 false (opened []) with corePart := [(1, 1)] }
     s.cur.n % 65536 = 0 ∧ (∀ e ∈ s.cores, s.partOf e.1 = some (s.ctx (BitVec.ofNat 6 s.cur.unit)).part → e.2.accesses = [] ∧ ∀ g ∈ e.2.engines.toList, g.job = none) ∧
       s.partOf 0 = some (s.ctx (BitVec.ofNat 6 s.cur.unit)).part ∧ (s.core 0).ctxTag = BitVec.ofNat 6 s.cur.unit ∧
       s.partOf 1 ≠ some (s.ctx (BitVec.ofNat 6 s.cur.unit)).part) := by decide +kernel

theorem witness_TranslationAndQueues_messages :
    (let m := message 5 0 (bytesOf 8 7 ++ bytesOf 8 0x10000)
     let s := received m (opened [])
     s.message = some m ∧ m.op = 5 ∧ m.clean = true ∧ m.len = 16 ∧ s.ready = true ∧ m.ctxh < 64 ∧ (s.ctx (BitVec.ofNat 6 m.ctxh)).live = true ∧
       ((qwordsOf m.payload)[0]?.getD 0).toNat < s.variant.userQueues ∧ ((qwordsOf m.payload)[1]?.getD 0).toNat < 2 ^ 55 ∧
       ((qwordsOf m.payload)[1]?.getD 0).toNat % 128 = 0 ∧ (s.ctx 0).prot = false ∧ m.isSealed = false ∧
       (s.takeMessage.accepted m 0).isSome = true ∧
       (let p := s.onCtx 0 fun c => { c with prot := true }
        (p.ctx 0).prot = true ∧ p.takeMessage.accepted m 0 = none)) ∧
    (let m := message 4 7 []
     let s := received m (queued (qcbBytes 1) [(2, slotWith 0 false none)])
     s.message = some m ∧ m.op = 4 ∧ s.updatesOpen 0 = false ∧ s.readsFate 0 [0x10000] = .arrives ∧ ({ tag := 0, qcb := 0, gone := true } : UserQueue).gone = true ∧ m.clean = true ∧ m.isSealed = false ∧ m.len = 0 ∧ m.status = 0 ∧ m.qword1 = 0 ∧ s.ready = true ∧
       (received m (at0 id)).ready = false ∧ Sparse.find s.queues (message 4 6 []).ctxh = none ∧ Sparse.find s.queues m.ctxh = some ⟨0, 0x10000, false⟩ ∧
       (received m (queued (qcbBytes 1) [])).slotOfQueue m.ctxh = none ∧ s.slotOfQueue m.ctxh = some 2 ∧
       Sparse.find s.slots 2 = some (slotWith 0 false none) ∧ (slotWith 0 false none).unmapping = false ∧ (slotWith 0 false none).q.state = 0 ∧
       (slotWith 0 false none).head = none ∧ ({ slotWith 0 false none with unmapping := true } : QueueSlot).unmapping = true ∧
       ((s.takeMessage.readQcb ⟨0, 0x10000, false⟩).map fun b => ({ (slotWith 0 false none).q with widx := (qcbOf b).widx } : Qcb).overrun) = some false ∧
       ((received m (queued (qcbBytes 3) [(2, slotWith 0 false none)])).takeMessage.readQcb ⟨0, 0x10000, false⟩).map
         (fun b => ({ (slotWith 0 false none).q with widx := (qcbOf b).widx } : Qcb).overrun) = some true) ∧
    (let m := message 4 7 []
     let q : QueueSlot := { slotWith 0 false none with q := { (slotWith 0 false none).q with state := 1 } }
     let s (q1 : Nat) := received m (queued (qcbWith q1) [(2, q)])
     let seen (q1 : Nat) := ((s q1).takeMessage.readQcb ⟨0, 0x10000, false⟩).map fun b => (qcbOk b, (qcbOf b).state)
     q.q.state = 1 ∧ q.unmapping = false ∧ q.head = none ∧ seen 1 = some (true, 0) ∧ seen 0 = some (false, 0) ∧ seen 0x100000 = some (false, 1) ∧
       ((s 1).takeMessage.readQcb ⟨0, 0x10000, false⟩).map (fun b => ({ q.q with widx := (qcbOf b).widx, sz := (qcbOf b).sz } : Qcb).overrun) =
         some false) := by
  decide +kernel

theorem witness_TranslationAndQueues_slots :
    (let s (w : Nat) := turn 3 7 0 false (queued (qcbBytes w) [])
     Sparse.find (s 1).queues (s 1).cur.n = some ⟨0, 0x10000, false⟩ ∧ (s 1).cur.unit < (s 1).variant.queueSlots ∧
       Sparse.find (s 1).slots (s 1).cur.unit = none ∧ (s 1).slotOfQueue (s 1).cur.n = none ∧ (s 1).qcbWrites = [] ∧
       (s 1).updatesOpen 0 = false ∧ (s 1).readsFate 0 [0x10000] = .arrives ∧
       (((s 1).readQcb ⟨0, 0x10000, false⟩).map fun b => (qcbOk b, (qcbOf b).state, (qcbOf b).overrun)) = some (true, 0, false) ∧
       (((s 3).readQcb ⟨0, 0x10000, false⟩).map fun b => (qcbOk b, (qcbOf b).state, (qcbOf b).overrun)) = some (true, 0, true) ∧
       (((turn 3 7 0 false (queued (qcbWith 0x100000) [])).readQcb ⟨0, 0x10000, false⟩).map fun b => (qcbOk b, (qcbOf b).state)) = some (false, 1)) ∧
    (let q (h : List Word) := slotWith 1 true (some h)
     Sparse.find (turn 2 0 0 false (queued [] [(2, q [2])])).slots 2 = some (q [2]) ∧ (q [2]).granted = true ∧ packetType [2] ≠ pkWait ∧
       packetType [2] ≠ pkNop ∧ packetType [0] = pkNop ∧ Sparse.find (queued [] []).queues 7 = some ⟨0, 0x10000, false⟩ ∧
       Sparse.find (opened []).queues 7 = none) ∧
    (let u : UserQueue := ⟨0, 0x10000, false⟩
     let s := queued [] []
     let w := u.stateWrite 1 0x85 none
     let busy : State := { s with supd := s.supd.set 0 { window := [{ update .add true with phys := 0x50000 }], waiting := [], coming := [] } }
     s.qcbWrites = [] ∧ s.qcbHeld w = false ∧ (s.reachWord 0 .write (0x10000 + BitVec.ofNat 64 w.off)).isSome = true ∧ w.report = none ∧
       s.portFate 0x50000 = .arrives ∧ busy.qcbHeld w = true) ∧
    (let none_ := queued [] [(2, slotWith 0 false none)]
     let s := queued [] [(2, slotWith 1 false (some [0]))]
     (∀ e ∈ s.slots, e.2.granted = false) ∧
       ((none_.slots.map (·.1)).foldl State.readHead none_).slots.filter
         (fun e => ((none_.slots.map (·.1)).foldl State.readHead none_).candidate e.2) = [] ∧
       ((s.slots.map (·.1)).foldl State.readHead s).slots.filter (fun e => ((s.slots.map (·.1)).foldl State.readHead s).candidate e.2) ≠ []) ∧
    (let q := slotWith 1 false (some [3, 0x10000, 5])
     Sparse.find (turn 2 0 0 false (queued [] [(2, q)])).slots 2 = some q ∧ packetType [3, 0x10000, 5] = pkWait ∧ q.satisfied = false) := by
  decide +kernel

/-- A machine whose slot 2 has a granted packet; the seed stack of the context, and bytes at 0x10000. -/
def granted (seeds : List Word) (bs : List Byte) (p : List Word) : State :=
  (queued bs [(2, slotWith 1 true (some p))]).onCtx 0 fun c => { c with seeds := seeds }

/-- What such a machine has granted. -/
def grantOf (p : List Word) : Option (Nat × QueueSlot × List Word) := some (2, slotWith 1 true (some p), p)

theorem witness_PacketsAreProcessed_words :
    (granted [] [] [0]).grantedPacket pkNop = grantOf [0] ∧ Sparse.find (granted [] [] [0]).slots 2 = some (slotWith 1 true (some [0])) ∧
    (let s (a : Word) := granted [] [] [3, a]
     (s 0x10000).grantedPacket pkWait = grantOf [3, 0x10000] ∧ ((s 0x10000).reachWord 0 .read (packetVa [3, 0x10000] 1)).isSome = true ∧
       (s 0x30000).reachWord 0 .read (packetVa [3, 0x30000] 1) = none) ∧
    (let s (a : Word) := granted [] [] [2, a, 9]
     (s 0x10000).grantedPacket pkSignal = grantOf [2, 0x10000, 9] ∧ (s 0).reachWord 0 .write (packetVa [2, 0, 9] 1) = none ∧
       (s 0x10000).reachWord 0 .write (packetVa [2, 0x10000, 9] 1) = some 0x50000 ∧ (s 0x10000).inWindow 0x50000 8 = false ∧
       (s 0x10000).portFate 0x50000 = .arrives ∧ (s 0x10000).portFate 0x1000000000 ≠ .arrives ∧
       ({ s 0x10000 with supd := (s 0x10000).supd.set 0 { window := [update .add false], waiting := [], coming := [] } } : State).inWindow 0x50000 8 = true) ∧
    (let p : List Word := [0x20007, 0x10000, 0x10040]
     let s (p : List Word) := granted [] [] p
     (s p).grantedPacket pkJrn = grantOf p ∧ ((packetAt p 0).extractLsb' 16 2).toNat = 2 ∧ ((packetAt [0x30007] 0).extractLsb' 16 2).toNat = 3 ∧
       ((packetAt [0x10007] 0).extractLsb' 16 2).toNat = 1 ∧ ((packetAt [7] 0).extractLsb' 16 2).toNat = 0 ∧
       ((s p).contextBytes 0 (packetVa p 1) 64).isSome = true ∧ (s p).reachWord 0 .write (packetVa p 2) = some 0x50040 ∧
       (s p).updatesOpen 0 = false ∧ (s p).readsFate 0 [packetVa p 1, packetVa p 2] = .arrives ∧
       ((s p).propose ⟨none, 0, ((s p).ctx 0).part, 4⟩ [0x2000000000000, 0, 0, 0x8000000000030000, 0x100000000000000, 0, 0, 0]).2.toOption = none ∧
       ((s p).propose ⟨none, 0, ((s p).ctx 0).part, 4⟩ proposal).2.toOption = some 1) := by
  refine ⟨?_, ?_, ?_, ?_, ?_⟩ <;> decide +kernel

theorem witness_PacketsAreProcessed_seeds :
    (granted [3] [] [4, 9]).grantedPacket pkPush = grantOf [4, 9] ∧ (granted [3] [] [5]).grantedPacket pkPop = grantOf [5] ∧
    (granted [3] [] [6, 9]).grantedPacket pkFork = grantOf [6, 9] ∧ 16 ≤ ((granted (List.replicate 16 1) [] [4, 9]).ctx 0).seeds.length ∧
    ¬16 ≤ ((granted [3] [] [4, 9]).ctx 0).seeds.length ∧ ((granted [3] [] [5]).ctx 0).seeds.length ≤ 1 ∧
    ¬((granted [3, 4] [] [5]).ctx 0).seeds.length ≤ 1 := by decide +kernel

/-! ### Witnesses: launches and pre-emption -/

/-- A kernel of one core, LAST, with one code word and one configuration word, both zero; without a live-range table, and with one at
0x70. Its digest is the SHA-512/256 of its first 64 bytes and its code and configuration, computed outside the model. -/
def kernelBytes (live : Bool) : List Byte := bytesOf 96 (if live then
    0x5d0a0f88e7ff6dcf8fda46f7a5aec970a54816389f4aeda89f7d1721568b9ea00000000000000000000000000000000000000000000000000000000a0000007000000000010100010000000100000064000000040000006000020001314b4c59
  else
    0xa2d2576c84943327a4f791cb7742a2872ea5d690280e3df91c488875569920c40000000000000000000000000000000000000000000000000000000a0000000000000000010100010000000100000064000000040000006000020001314b4c59)

/-- The same with a pool table at an offset of 0x20000, where the context has no page. -/
def poolKernelBytes : List Byte := bytesOf 96
  0x9f011585d48c3706c868254dcd2fa735c427938aa69a5c7feed651c34eeea4f00000000000000000000000000000000000000000000000000000000a0000000000020000010100010000000100000064000000040000006000020001314b4c59

/-- The fields of a LAUNCH of the kernel at 0x10000, with the shape of the header or another. -/
def launchPacketOf (cols : Nat) : List Word := [BitVec.ofNat 64 (1 + cols * 2 ^ 32 + cols * 2 ^ 40), 0x10000]

/-- Context 0 OPEN with a kernel at 0x10000, a qword at its 0x70, and a LAUNCH packet at 0x10100. -/
def kernelAt (live : Bool) (q cols : Nat) : State :=
  let s := opened (kernelBytes live)
  let s := { s with mem := writeBytes s.mem 0x50070 (bytesOf 8 q) }
  { s with mem := writeBytes s.mem 0x50100 ((launchPacketOf cols).flatMap fun w => bytesOf 8 w.toNat) }

/-- A launch of that kernel. -/
def aLaunch : Launch := launchOfPacket (launchPacketOf 1) 4 0 0

/-- The launch placed on core 0. -/
def placed : Launch := { aLaunch with cols := 1, rows := 1, header := 0x10000, bound := 10, placed := true }

/-- What a header check finds. -/
def headerOf (s : State) : Option (Nat × Nat × Nat) := (s.kernelHeader 0 0x10000 0).map fun h => (h.cols, h.rows, h.live)

theorem witness_LaunchesAndPreemption_headers :
    headerOf (kernelAt false 0 1) = some (1, 1, 0) ∧ headerOf (opened []) = none ∧ headerOf (kernelAt true 0 1) = some (1, 1, 0x70) := by
  decide +kernel

theorem witness_LaunchesAndPreemption_launch :
    (let s (a : Word) (f : Core → Core) := (kernelAt false 0 1).on fun c => f (c.setReg 4 a)
     (s 0x10101 id).here.pred 0 = true ∧ ((s 0x10101 id).here.reg 4).toNat % 64 ≠ 0 ∧ ((s 0x10100 id).here.reg 4).toNat % 64 = 0 ∧
       (s 0x10100 fun c => { c with accesses := [access .store 0] }).here.outstanding ≠ [] ∧ (s 0x10100 id).here.outstanding = [] ∧
       ((s 0x30000 id).fetchBytes (some 0) 0 0x30000 64).2.toOption = none ∧
       ((s 0x10100 id).fetchBytes (some 0) 0 0x10100 64).2.toOption.map qwordsOf = some (launchPacketOf 1 ++ [0, 0, 0, 0, 0, 0])) ∧
    (let s := (kernelAt false 0 1).onCtx 0 fun c => { c with root := 0x1000000000 }
     codeOf (s.fetchBytes (some 0) 0 0x10100 64) = some noAnswer ∧ codeOf ((kernelAt false 0 1).fetchBytes (some 0) 0 0x30000 64) = some 0x10) ∧
    (let s := kernelAt false 0 1
     s.updatesOpen 0 = false ∧ s.readsFate 0 [0x10000] = .arrives ∧
       ({ s with supd := s.supd.set 0 { window := [update .add true], waiting := [], coming := [] } } : State).updatesOpen 0 = true) ∧
    (let q := launchPacketOf 1 ++ [0, 0, 0, 0, 0, 0]
     packetType q = pkLaunch ∧ packetOk q = true ∧ packetBar q = false ∧ packetType [2] ≠ pkLaunch ∧ packetBar [0x101] = true ∧
       packetOk [1, 1] = false ∧ (kernelAt false 0 1).input.length < 16 ∧
       16 ≤ ({ kernelAt false 0 1 with input := List.replicate 16 aLaunch } : State).input.length) := by decide +kernel

theorem witness_LaunchesAndPreemption_shapes :
    (kernelAt false 0 1).shapeRefused aLaunch = false ∧
    ((opened []).kernelHeader 0 0x10000 0 = none ∧ (opened []).shapeFits 0 33 1 = false ∧ (opened []).updatesOpen 0 = false ∧
      (opened []).readsFate 0 [0x10000] = .arrives) ∧
    (kernelAt false 0 2).shapeRefused { launchOfPacket (launchPacketOf 2) 0 0 0 with core := 0 } = true ∧
    (let p := launchPacketOf 1
     let s := { kernelAt false 0 1 with slots := [(2, slotWith 1 true (some p))] }
     s.grantedPacket pkLaunch = grantOf p) := by decide +kernel

theorem witness_LaunchesAndPreemption_placement :
    (let s := { kernelAt false 0 1 with input := [aLaunch] }
     s.input.find? (fun l => l.part.toNat == s.cur.n) = some aLaunch ∧
       ((s.kernelHeader 0 0x10000 0).map fun h => (s.liveOf 0 h, s.poolTableOf 0 h, s.measured aLaunch h)) = some (some [], some [], true) ∧
       (((opened poolKernelBytes).kernelHeader 0 0x10000 0).map fun h => (opened poolKernelBytes).poolTableOf 0 h) = some none ∧
       ((s.kernelHeader 0 0x10000 0).map fun h => s.shapeOk 0 2 1 h) = some false ∧
       (((s.onCtx 0 fun c => { c with state := .closed }).kernelHeader 0 0x10000 0).map fun h =>
         (s.onCtx 0 fun c => { c with state := .closed }).measured aLaunch h) = some false ∧
       ((s.kernelHeader 0 0x10000 0).map fun h => (s.shapeOk 0 1 1 h, s.firstFit 0 h.cols h.rows)) = some (true, some (0, 0))) ∧
    (((kernelAt true 0x5000000000000000 1).kernelHeader 0 0x10000 0).map fun h => (kernelAt true 0x5000000000000000 1).liveOf 0 h) = some none ∧
    (let s := { kernelAt false 0 1 with corePart := [(0, 1)], launches := [{ placed with part := 1 }] }
     ((s.kernelHeader 0 0x10000 0).map fun h => (s.shapeOk 1 1 1 h, s.firstFit 1 h.cols h.rows)) = some (true, none)) := by decide +kernel

/-- Core 0 runs the launch. -/
def running (l : Launch) : State := { turn 0 4 0 false (kernelAt false 0 1) with launches := [l] }

theorem witness_LaunchesAndPreemption_completion :
    (running placed).launches.find? (fun l => l.placed && l.id == (running placed).cur.n) = some placed ∧ placed.cores .y7 = [0] ∧
    (running placed).coreSettled 0 = false ∧ ((running placed).on fun c => { c with endAsked := true }).coreSettled 0 = true ∧
    (running placed).regions = [] ∧ placed.signal = 0 ∧
    ((running placed).writeSignal 0 0x10200 false 5).map (·.2) = some true ∧ ((running placed).writeSignal 0 0x30000 false 5).map (·.2) = some false := by
  decide +kernel

theorem witness_LaunchesAndPreemption_requests :
    let asked : Launch := { placed with pending := true }
    (running placed).launchById (running placed).cur.n = some placed ∧ placed.pending = false ∧ placed.saved = false ∧ placed.stopped = false ∧ placed.point = none ∧
    (running asked).launchById 4 = some asked ∧ asked.pending = true ∧ asked.saved = false ∧ asked.stopped = false ∧ asked.point = none ∧ ({ asked with point := some 0 } : Launch).point = some 0 ∧
    (running asked).regionAtRest [0] = true ∧ ((running asked).on fun c => { c with accesses := [access .store 0] }).regionAtRest [0] = false ∧
    (running asked).overdue asked = false ∧
    (let s := (running asked).on fun c => { c with cycle := 1024 }
     s.overdue asked = true ∧
       s.flights.all (fun f => !([0].contains f.dst.core)) = true ∧ s.credits.all (fun k => !([0].contains k.dst.core)) = true ∧
       { s with credits := [⟨.port 0 4 0, false, 0⟩] }.credits.all (fun k => !([0].contains k.dst.core)) = false) ∧
    ({ placed with saved := true } : Launch).saved = true ∧ ({ asked with stopped := true } : Launch).stopped = true := by decide +kernel

/-- The records of the launch, and a save area of its context that holds them. -/
def savedRun : SavedLaunch := { launch := placed, headers := [saveHeader false 0 0 0x1000], cores := [(0, Core.reset)], traffic := [] }
def saveOf (shut : Bool) : SaveArea := { tag := 0, saved := [savedRun], sealed_ := shut }

theorem witness_LaunchesAndPreemption_saves :
    (let s (shut : Bool) := (({ turn 0 0 0 true (kernelAt false 0 1) with saves := [saveOf shut] } : State).onCtx 0 fun c => { c with slot := some (KeySlot.drawn 0) })
     (s false).saves[(s false).cur.n]? = some (saveOf false) ∧ (saveOf false).saved[(s false).cur.m]? = some savedRun ∧ (saveOf false).sealed_ = false ∧ savedRun.wellFormed (s false).variant = true ∧ ((s false).ctx 0).live = true ∧ ((s false).ctx 0).keys = true ∧
       (∀ c ∈ placed.cores .y7, ((s false).launchOf c).isNone = true ∧ (s false).partOf c = some 0 ∧ (s false).retired.contains c = false) ∧
       (s false).cur.flag = true ∧ (s true).saves[(s true).cur.n]? = some (saveOf true) ∧ (saveOf true).sealed_ = true) ∧
    (let s := { turn 0 0 0 false (kernelAt false 0 1) with saves := [saveOf false], launches := [{ placed with saved := true }] }
     (∃ m ∈ s.launches, m.saved = true ∧ m.tag = (saveOf false).tag) ∧ s.cur.flag = false) ∧
    ((7 : Nat) ∉ savedRun.cores.flatMap fun p => p.2.liveSectors placed.poolTable []) := by decide +kernel

/-! ### Witnesses: contexts, sessions, the link, health and power -/

/-- An SPDM session, finished or not, bound to a tag or to none. -/
def session (done : Bool) (t : Option (BitVec 6)) : Session := { device := none, finished := done, tag := t, count := 0, keyGen := 0, wrapped := false }

/-- Context 1 in a state, with the pages of `paged`, its data page of its own. -/
def context1 (st : CtxState) (prot : Bool) (bs : List Byte) : State :=
  { (opened bs).onCtx 1 fun c => { c with state := st, prot := prot, slot := some (KeySlot.drawn 1), root := 0x10000, part := 1 } with pot := [(5, 1)] }

/-- The responder agreed, with session 3. -/
def withSession (x : Session) (s : State) : State :=
  { s with spdm := { s.spdm with version := true, caps := true, algorithms := true, sessions := [(3, x)] } }

/-- A message in session 3. -/
def inSession (m : Message) : Message := { m with session := some 3 }

theorem witness_ContextsAndProtection_requests :
    (let m := message 5 0 []
     let s := received m (opened [])
     s.message = some m ∧ m.op = 5 ∧ s.takeMessage.sessionOf m = none) ∧
    (let m := inSession (message 5 0 (bytesOf 8 0 ++ bytesOf 8 1 ++ bytesOf 8 9))
     let s := received m (withSession (session true none) { paged 0 with ready := true })
     s.takeMessage.sessionOf m = some (3, session true none) ∧ m.clean = true ∧ s.ready = true ∧ s.lowestFreeTag = some 1 ∧
       (session true none).tag = none ∧ qwordsOf m.payload = [0, 1, 9] ∧ s.tagOfPart 0 = 0 ∧ (0 : Word).toNat < s.variant.partitions) ∧
    (let m := inSession (message 5 1 (bytesOf 8 0x10000 ++ bytesOf 8 104))
     let s := received m (withSession (session true (some 1)) (context1 .opened false (kernelBytes false)))
     s.takeMessage.sessionOf m = some (3, session true (some 1)) ∧ m.clean = true ∧ s.ready = true ∧ (s.ctx 1).state = .opened ∧ m.ctxh = 1 ∧
       qwordsOf m.payload = [0x10000, 104] ∧ (s.ctx 1).objects.length < 64 ∧ s.updatesOpen 1 = false ∧
       s.readsFate 1 [0x10000] = .arrives ∧ (s.takeMessage.contextBytes 1 0x10000 104).isSome = true ∧
       (s.takeMessage.kernelsOf 1 0x10000 256 0).isSome = true ∧
       ((received m (withSession (session true (some 1)) (context1 .closed false []))).ctx 1).state ≠ .opened) := by decide +kernel

theorem witness_ContextsAndProtection_failures :
    (turn 4 0 0 false (at0 id)).cur.unit < 16 ∧ 4 ≤ (turn 4 0 0 false (at0 id)).cur.unit ∧ (turn 3 0 0 false (at0 id)).cur.unit < 4 ∧
    (let k : TagCheck := ⟨0, 1, 0, 0x50000⟩
     let s := { turn 0 0 0 true (context1 .opened false []) with checks := [k] }
     s.cur.flag = true ∧ s.checks[s.cur.n]? = some k ∧ k ∈ s.checks ∧ s.unitTag k = s.unitTag k ∧ (1 : Nat).testBit k.stack.toNat = true) ∧
    (let s := turn 0 0x50000 0 false (context1 .opened false [])
     s.cur.flag = false ∧ canonical s.variant s.cur.n = some 0x50000 ∧ (Sparse.get 0#7 s.pot (0x50000 / 65536)).getLsbD 6 = false ∧
       (Sparse.get 0#7 ({ s with pot := [(5, 0x41)] } : State).pot (0x50000 / 65536)).getLsbD 6 = true) ∧
    (1 : BitVec 6) ≠ 0 ∧ ((context1 .opened false []).ctx 1).state ≠ .free ∧ ((context1 .opened false []).ctx 2).state = .free := by decide +kernel

/-- An SPDM request of a code. -/
def request (code : Nat) : Message := message 5 0 [0x13, BitVec.ofNat 8 code, 0, 1]

/-- FINISH with the right code of session 3. -/
def rightFinish : Message := inSession (message 5 0 ([0x13, 0xE5, 0, 0] ++ finishCode 3))

theorem witness_SessionsAndLink_requests :
    (let s (m : Message) := received m (withSession (session true none) (opened []))
     let codes := [0x84, 0xE1, 0xE3, 0x81, 0x82, 0x83, 0xE0, 0xE4, 0xE5, 0xE8, 0xE9, 0xEC]
     (∀ c ∈ codes, (s (request c)).message = some (request c) ∧ (request c).op = 5 ∧ requestByte (request c) 1 = c ∧ (request c).clean = true ∧
       4 ≤ (request c).len) ∧ (message 5 0 [0x13, 0x84]).len < 4 ∧ (s (request 0x84)).spdm.agreed = true ∧
       (received (request 0xE1) (opened [])).spdm.version = false ∧ requestByte (request 0xE0) 2 % 2 = 0) ∧
    (let m := inSession (request 0xE5)
     let s (done : Bool) := received m (withSession (session done none) (opened []))
     (s true).takeMessage.namedSession m = some (3, session true none) ∧ (session true none).finished = true ∧
       (s false).takeMessage.namedSession m = some (3, session false none) ∧ (session false none).finished = false ∧ m.payload.drop 4 ≠ finishCode 3 ∧
       (s true).takeMessage.sessionOf (request 0xE8) = none ∧ (s true).takeMessage.sessionOf m = some (3, session true none)) := by decide +kernel

/-- KEY_UPDATE with an operation. -/
def keyUpdate (op : Nat) : Message := inSession (message 5 0 [0x13, 0xE9, BitVec.ofNat 8 op, 1])

/-- A responder whose sessions have the numbers below a bound. -/
def crowded (n : Nat) : State :=
  { opened [] with spdm := { (opened []).spdm with version := true, caps := true, algorithms := true,
                                                   sessions := (List.range n).map fun k => (k, session true none) } }

theorem witness_SessionsAndLink_keys :
    (let m := { request 0xE9 with qword0 := 0x10400000005 }
     let s := received m (withSession (session true none) (opened []))
     s.message = some m ∧ m.op = 5 ∧ requestByte m 1 = 0xE9 ∧ m.clean = false) ∧
    (let s (op : Nat) := received (keyUpdate op) (withSession (session true none) (opened []))
     (∀ op ∈ [0, 1, 2, 3, 4], (s op).message = some (keyUpdate op) ∧ requestByte (keyUpdate op) 2 = op ∧ (keyUpdate op).clean = true ∧
       (s op).takeMessage.sessionOf (keyUpdate op) = some (3, session true none))) ∧
    (let s := received (request 0xE4) (crowded 3)
     s.message = some (request 0xE4) ∧ s.ready = true ∧ s.spdm.agreed = true ∧ Sparse.find s.takeMessage.spdm.sessions 3 = none ∧
       ∀ j < 3, Sparse.find s.takeMessage.spdm.sessions j ≠ none) := by decide +kernel

/-- Its sessions. -/
theorem crowded_sessions (n : Nat) (m : Message) :
    (received m (crowded n)).takeMessage.spdm.sessions = (List.range n).map fun k => (k, session true none) := rfl

/-- Each number below the bound has one. -/
theorem crowded_full (n j : Nat) (m : Message) (h : j < n) : Sparse.find (received m (crowded n)).takeMessage.spdm.sessions j ≠ none := by
  rw [crowded_sessions]
  have there (l : List Nat) : j ∈ l → Sparse.find (l.map fun k => (k, session true none)) j ≠ none := by
    induction l with
    | nil => intro h; cases h
    | cons k l ih =>
      intro m
      simp only [List.map_cons, Sparse.find]
      split
      · simp
      · next n => exact ih ((List.mem_cons.1 m).resolve_left fun e => n e.symm)
  exact there _ (List.mem_range.2 h)

theorem witness_SessionsAndLink_crowded :
    ∀ j, 1 ≤ j → j < 65536 → Sparse.find (received (request 0xE4) (crowded 65536)).takeMessage.spdm.sessions j ≠ none :=
  fun j _ h => crowded_full 65536 j (request 0xE4) h

theorem witness_SessionsAndLink_finish :
    (rightFinish.op = 5 ∧ requestByte rightFinish 1 = 0xE5 ∧ rightFinish.clean = true ∧ 4 ≤ rightFinish.len) ∧ rightFinish.session = some 3 :=
  ⟨by decide +kernel, rfl⟩

theorem witness_SessionsAndLink_finish_code : rightFinish.payload.drop 4 = finishCode 3 := rfl

theorem witness_SessionsAndLink_measurements :
    (1 - 1 < 16 ∧ 1 ≤ 1) ∧ ((context1 .opened false []).ctx 1).state ≠ .free ∧ ((context1 .opened false []).ctx 2).state = .free := by decide +kernel

/-- RDMA of two bytes at a virtual address. -/
def rdma (op : Nat) (va : Nat) (p : List Byte) (len : Nat) : Message :=
  { message op 1 p with qword0 := BitVec.ofNat 64 (op + 2 ^ 16 + len * 2 ^ 32), qword1 := BitVec.ofNat 64 va }

theorem witness_SessionsAndLink_rdma :
    (let m (va : Nat) := rdma 1 va [1, 2] 2
     let s (va : Nat) (prot : Bool) := received (m va) (context1 .opened prot [])
     (s 0x10000 false).message = some (m 0x10000) ∧ (m 0x10000).op = 1 ∧ (m 0x10000).clean = true ∧ (m 0x10000).status = 0 ∧
       (s 0x10000 false).takeMessage.contextOf (m 0x10000) = some 1 ∧ ((s 0x10000 true).takeMessage.accepted (m 0x10000) 1).isNone = true ∧
       (((s 0x10000 false).takeMessage.accepted (m 0x10000) 1).bind fun u => u.stretches 1 .write rdmaGranules 0x10000 2) = some [(0x50000, 2)] ∧
       (((s 0x30000 false).takeMessage.accepted (m 0x30000) 1).map fun u => u.stretches 1 .write rdmaGranules 0x30000 2) = some none ∧
       (s 0x10000 false).inWindow 0x50000 2 = false ∧ (s 0x10000 false).portFate 0x50000 = .arrives ∧ (received (m 0) (opened [])).takeMessage.contextOf (m 0) = none) ∧
    (let m := rdma 2 0x10000 [] 2
     let s := received m (context1 .opened false [])
     s.message = some m ∧ m.op = 2 ∧ ({ m with payload := List.replicate m.len 0 } : Message).clean = true ∧ m.payload = [] ∧ m.status = 0 ∧
       s.takeMessage.contextOf m = some 1 ∧
       ((s.takeMessage.accepted m 1).bind fun u => u.stretches 1 .read rdmaGranules m.va m.len) = some [(0x50000, 2)] ∧ s.portFate 0x50000 = .arrives) := by decide +kernel

/-- Beat 0 from a remote device, and one of a write to a remote device. -/
def remoteBeats : List Beat :=
  [{ beat0 none [] with src := .remote 2 0 },
   { beat0 (some (0, false)) [] with n := 1, remote := [(2, 0)], delivered := true, waits := 1 }]

theorem witness_SessionsAndLink_replies :
    (let s := streaming 1 (some { copyJob (memEntry 0x20000) with next := 2, beats := remoteBeats })
     let m (op n : Nat) (p : List Byte) : Message := { message op 1 p with beat := n }
     let r := m 3 0 (List.replicate 32 1)
     let a := m 7 1 []
     (∀ m ∈ [r, a], ((received m s).takeMessage.accepted m ((received m s).takeMessage.core m.core).ctxTag).isSome = true ∧
       ((received m (s.onCtx 0 fun c => { c with prot := true })).takeMessage.accepted m 0).isSome = false) ∧
     (received r s).message = some r ∧ r.op = 3 ∧ r.status = 0 ∧ r.payload.length = 32 ∧
       (received r s).takeMessage.beatMeets r.core r.engine r.beat Beat.awaitsReply = true ∧ a.op = 7 ∧ a.status = 0 ∧
       (received a s).takeMessage.beatMeets a.core a.engine a.beat (fun b => b.delivered && !b.remote.isEmpty) = true ∧
       ({ a with qword0 := 0x0100000000010007 } : Message).status ≠ 0) ∧
    (let m := message 5 0 (bytesOf 8 3 ++ bytesOf 8 9)
     let s := received m (opened [])
     s.message = some m ∧ m.op = 5 ∧ m.clean = true ∧ m.status = 0 ∧ (s.takeMessage.management m (qwordsOf m.payload)).isSome = true ∧
       (s.takeMessage.admitted m).isSome = true ∧ s.takeMessage.manageAddress (qwordsOf m.payload) = none ∧
       (s.takeMessage.management m [9]).isNone = true) ∧
    (let m := message 5 0 (bytesOf 8 2 ++ bytesOf 8 0 ++ bytesOf 8 0x50000)
     let s := received m (opened [])
     let t := received m ((opened []).on fun c => { c with accesses := [access .store 0x50000] })
     s.takeMessage.manageAddress (qwordsOf m.payload) = some 0x50000 ∧ s.takeMessage.pageBusy 5 = false ∧ s.portFate 0x50000 = .arrives ∧
       t.takeMessage.manageAddress (qwordsOf m.payload) = some 0x50000 ∧ t.takeMessage.pageBusy 5 = true) ∧
    (let m := message 5 1 (bytesOf 8 3 ++ bytesOf 8 9)
     (received m (context1 .opened true [])).takeMessage.admitted m = none) ∧
    (let m (op : Nat) (p : List Byte) := message op 0 p
     let s (op : Nat) (p : List Byte) (w : Power) : State := { received (m op p) (opened []) with power := w }
     (s 8 [] .on).message = some (m 8 []) ∧ (m 8 []).op = 8 ∧ (s 8 [] .on).power ≠ .boot ∧ (s 5 [] .boot).message = some (m 5 []) ∧
       (m 5 []).uploads = false ∧ (s 5 (bytesOf 8 10) .boot).message = some (m 5 (bytesOf 8 10)) ∧ (m 5 (bytesOf 8 10)).uploads = true ∧
       (m 5 (bytesOf 8 10)).clean = true ∧ (m 5 (bytesOf 8 10)).status = 0) ∧
    (let m := inSession (message 5 0 [])
     let x : Session := { session true none with device := some 7 }
     let s := (withSession x (context1 .opened false [])).onCtx 1 fun c => { c with peers := [7] }
     s.sessionOf m = some (3, x) ∧ x.device = some 7 ∧ (1 : Word).toNat < 64 ∧ (s.ctx 1).live = true ∧ (s.ctx 1).peers.contains 7 = true ∧
       s.sessionOf (message 5 0 []) = none) ∧
    (turn 0 1 0 false (at0 id)).cur.n = 1 ∧ 1 < (turn 0 2 0 false (at0 id)).cur.n := by decide +kernel

theorem witness_HealthAndPower_errors :
    (let s (u n : Nat) := { turn u 0x50000 0 false (at0 id) with softErrors := [(u, n)] }
     (s 0x1FF 0).variant.healthUnit 0x1FF = false ∧ (s 0 3).variant.healthUnit 0 = true ∧ Sparse.get 0 (s 0 3).softErrors 0 + 1 < (s 0 3).hthr.toNat ∧
       (s 0 15).hthr.toNat ≤ Sparse.get 0 (s 0 15).softErrors 0 + 1 ∧ 0 ∉ (s 0 15).softLimits ∧ 0 ∈ ({ s 0 15 with softLimits := [0] } : State).softLimits ∧
       (s 0 15).variant.healthUnit 0x200 = true ∧
       (s 0 15).variant.coreCount ≤ 0x200 ∧ 0 < (s 0 15).variant.coreCount ∧ (s 0 15).lasting.contains 0 = false ∧
       (s 0 15).retired.contains 0 = false ∧ canonical .y7 (s 0x200 0).cur.n = some 0x50000 ∧ 0x200 = 0x200 + stackOf 0x50000) ∧
    (let s := { at0 id with lasting := [0] }
     let retiring : TxRecord := { record 1 .pending with retires := true, entries := [⟨0x40010000, 0, 0, 0⟩] }
     0 ∉ (at0 id).lasting ∧ 0 ∈ s.lasting ∧ s.journal.records = [] ∧ s.launches = [] ∧ (s.partOf 0).isSome = true ∧ s.roomForTx.isSome = true ∧
       ({ s with unowned := [0] } : State).partOf 0 = none ∧ (held ((List.range 64).map fun n => record (n + 1) .pending) s).roomForTx = none ∧
       (retiring.retires = true ∧ retiring.state.inFlight = true ∧ ∃ e ∈ retiring.entries, keyCore e.key = 0) ∧
       ∃ l ∈ (running placed).launches, l.placed = true ∧ l.saved = false ∧ 0 ∈ l.cores .y7) ∧
    ((at0 id).variant.coreCount ≤ (turn 0x200 0 0 false (at0 id)).cur.unit) := by decide +kernel

theorem witness_HealthAndPower_states :
    (let s := { at0 id with net := [⟨1, 0, .event, 0⟩], dusk := [0] }
     (at0 id).cur.unit < (at0 id).variant.coreCount ∧ (at0 id).cur.unit ∉ (at0 id).dusk ∧ (at0 id).launchOf 0 = none ∧
       (at0 id).net = [] ∧ (at0 id).flights = [] ∧ (at0 id).credits = [] ∧ (at0 id).here.unitsIdle = true ∧
       (at0 fun c => { c with run := .running }).here.run = .running ∧ (at0 fun c => { c with run := .running }).here.unitsIdle = false ∧
       (elemWith 0x67001FA001000000 1 [[tok 0 1]] [] id).elem.atRest = false ∧ s.cur.unit ∈ s.dusk ∧ ∃ p ∈ s.net, p.dst = s.cur.unit) ∧
    (let s := { context1 .opened false [] with checks := [⟨0, 1, 0, 0⟩] }
     (∀ l ∈ s.launches, l.placed = true → l.saved = true) ∧ s.checks ≠ [] ∧ (context1 .opened false []).checks = []) ∧
    (∃ l ∈ (running placed).launches, l.placed = true ∧ l.saved = false) ∧ ((running placed).launches.map (·.id)).Nodup ∧
    ({ at0 id with power := .midnight } : State).power = .midnight ∧ (at0 id).power ≠ .midnight ∧ (turn 0 0 0 true (at0 id)).cur.flag = true := by decide +kernel

/-! ### Effects: the spec's worked examples, one step or one function each -/

/-- The registers after the first step of core 0 on a word, from registers set before it. -/
def runWord (w : Nat) (f : Core → Core) : Core := (ok (step ((State.reset.withFetchWord 32 w).onCore 0 f))).core 0

/-- The table of R100: ADDI s4, s4, #-16, from s4 = 0 wraps; ADD s3, s1, s2. -/
theorem test_addi : (runWord 0x0484FFF0 id).reg 4 = 0xFFFFFFFFFFFFFFF0 ∧ (runWord 0x0484FFF0 id).pc = 4 := by decide +kernel
theorem test_add : (runWord 0x00611000 fun c => (c.setReg 1 5).setReg 2 0xFFFFFFFFFFFFFFFF).reg 3 = 4 := by decide +kernel
/-- R100: LOOP 0, #12, last sets lc to 12 and the body's end five words on (R81). -/
theorem test_loop : (runWord 0x6C00C005 id).loops.lc[0] = 12 ∧ (runWord 0x6C00C005 id).loops.le[0] = 20 := by decide +kernel
/-- R100: the word with minor 0x015 traps ILLEGAL_OP with the word in TVAL. -/
theorem test_illegal : (runWord 0x00611015 id).tval = 0x00611015 ∧ (runWord 0x00611015 id).tcause.extractLsb' 0 8 = 1 := by decide +kernel

/-- R84: the outcomes at phase 5. -/
theorem test_barrier_outcomes : waitOutcome 5 5 = .lag 0 ∧ waitOutcome 6 5 = .wait ∧ waitOutcome 4 5 = .lag 1 ∧ waitOutcome 1 5 = .lag 4 ∧
    waitOutcome 8 5 = .future := by decide +kernel

/-- R68. -/
theorem test_mix32 : mix32 1 = 0x688990C0 := by decide +kernel

/-- The worked walk of R319: the address, a leaf with X and without W, and a leaf with both. -/
def walked (leaf : Nat) : State :=
  let m := writeBytes (writeBytes (writeBytes [] 0x10018 (bytesOf 8 0x20001)) 0x20090 (bytesOf 8 0x30001)) 0x30030 (bytesOf 8 leaf)
  ({ State.reset with mem := m } : State).onCtx 0 fun c => { c with root := 0x10000 }
def walkedVa : Word := 0xC0240061234
theorem test_walk : reached ((walked 0x0000001000500007).translate 0 0 .write walkedVa) = some 0x1000501234 ∧
    faulted ((walked 0x000000100050000B).translate 0 0 .write walkedVa) = some 0x11 ∧
    reached ((walked 0x000000100050000B).translate 0 0 .read walkedVa) = some 0x1000501234 ∧
    faulted ((walked 0x000000100050000F).translate 0 0 .read walkedVa) = some 0x10 := by decide +kernel

/-- The four requests of the sparse-update example at one word, applied apart: AMO.fadd reads 1.0 and writes 2.0. -/
theorem test_fadd_word : amoResult .fadd 32 0x3F800000 0x33800000 0 = 0x3F800000 ∧ amoResult .fadd 32 0x3F800000 0x34000000 0 = 0x3F800001 ∧
    amoResult .fadd 32 0x3F800001 0x3F800000 0 = 0x40000000 ∧ amoResult .fadd 32 0x40000000 0x33800000 0 = 0x40000000 := by decide +kernel

/-- The lanes of BF16 operands. -/
def bf (x : Nat) : FVal := decodeFloat bf16 x
/-- FMA.bf16 at the limits (R205): lanes 0–5; with saturation lane 3, and with RDN lane 4. -/
theorem test_fma_limits :
    (ffma bf16 .rne (bf 0x3F80) (bf 0x4000) (bf 0x3F00)).1 = 0x4020 ∧ (ffma bf16 .rne (bf 0x3F81) (bf 0x3F81) (bf 0)).1 = 0x3F82 ∧
    (ffma bf16 .rne (bf 0x7F80) (bf 0) (bf 0)).1 = 0x7FC0 ∧ (ffma bf16 .rne (bf 0x7F7F) (bf 0x4000) (bf 0)).1 = 0x7F80 ∧
    (ffma bf16 .rne (bf 0x3F80) (bf 0xBF80) (bf 0x3F80)).1 = 0 ∧ (ffma bf16 .rne (bf 1) (bf 0x3F00) (bf 0)).1 = 0 ∧
    (ffma bf16 ⟨0, true, 0⟩ (bf 0x7F7F) (bf 0x4000) (bf 0)).1 = 0x7F7F ∧ (ffma bf16 ⟨3, false, 0⟩ (bf 0x3F80) (bf 0xBF80) (bf 0x3F80)).1 = 0x8000 := by
  decide +kernel

/-- The payload of the first token that element 3 sends, and FSTAT, after a firing. -/
def fired (i : Instr) (s : State) : Option Payload × BitVec 8 :=
  let t := ok (exec i (s.on fun c => { c with cfg := { c.cfg with active := c.cfg.active ++ [(256 * 4 + 8, 0x14), (256 * 4 + 0x3F, 1)], dests := [(6, [(8, .port 0 4 0)])] } }))
  ((t.flights.head?).map (·.tok.payload), t.elem.fstat)

/-- The same example as one firing: FSTAT reads 0x17. -/
theorem test_fma_firing :
    fired (.fma ⟨1, 0, 0, 1, 2, 1, 0, 0, 3, 0, 0⟩) (elemWith 0 1 [[tok 0 0x00013F807F7F7F803F813F80], [tok 0 0x3F00BF80400000003F814000],
      [tok 0 0x3F800000000000003F00]] [] id) = (some 0x7F807FC03F824020, 0x17) := by decide +kernel

/-- R206: IMULQ.i16 with sh 15, by wrapping and by clamping. -/
theorem test_imulq : (fired (.imulq ⟨4, 0, 0, 1, 7, 1, 0, 0, 3, 0, 15⟩) (elemWith 0 4 [[tok 0 0x80004000], [tok 0 0x80006000]] [] id)) =
    (some 0x80003000, 0) ∧
    (fired (.imulq ⟨4, 8, 0, 1, 7, 1, 0, 0, 3, 0, 15⟩) (elemWith 0 4 [[tok 0 0x80004000], [tok 0 0x80006000]] [] id)) =
    (some 0x7FFF3000, 0x20) := by decide +kernel

/-- R208: FP32 0x3F80C000 to BF16 under RNE and RTZ. -/
theorem test_cvt : (convertLane 0 1 .rne 127 127 0x3F80C000).1 = 0x3F81 ∧ (convertLane 0 1 ⟨1, false, 0⟩ 127 127 0x3F80C000).1 = 0x3F80 := by
  decide +kernel

/-- R64, R208: a scaled lane is rounded RNE to the operation type first, 2.5 of E4M3 to INT8 whatever MOD; and 448 × 2^8 leaves FP16, with SAT its
largest finite value. -/
theorem test_scaled_cvt : (convertLane 9 5 ⟨2, false, 0⟩ 127 127 0x42).1 = 2 ∧ (convertLane 9 5 ⟨3, false, 0⟩ 127 127 0x42).1 = 2 ∧
    (convertLane 9 2 ⟨0, true, 0⟩ 135 127 0x7E).1 = 0x7BFF ∧ (convertLane 9 2 .rne 135 127 0x7E).1 = 0x7C00 := by decide +kernel

/-- R428: OWN counts modulo 0xF_FFFF; an operation waits for its predecessor, and the last one frees the chain. -/
theorem test_chain : seqOwn 0xFFFFE = 0xFFFFE ∧ seqOwn 0xFFFFF = 0 ∧
    (let q (own pred succ : BitVec 20) : SeqNums := ⟨4, 0, 2, own, pred, succ⟩
     chainStep [] 1 (q 1 0 2) = none ∧ chainStep [] 1 (q 0 noSeq 1) = some [⟨1, q 0 noSeq 1⟩] ∧
       chainStep [⟨1, q 0 noSeq 1⟩] 1 (q 1 0 noSeq) = some [] ∧ chainStep [⟨0, q 0 noSeq 1⟩] 1 (q 1 0 noSeq) = none) := by decide +kernel

/-- The DITHER rows of R56: phases 0 and 7, lane by lane. -/
theorem test_dither :
    ((List.range 16).map fun i => (convertLane 0 1 ⟨4, false, i⟩ 127 127 0x3F80C000).1 % 16) = [1, 1, 1, 1, 0, 1, 0, 1, 1, 1, 1, 1, 0, 1, 0, 1] ∧
    ((List.range 16).map fun i => (convertLane 0 1 ⟨4, false, i + 7⟩ 127 127 0x3F80C000).1 % 16) =
      [1, 1, 1, 1, 1, 0, 1, 0, 1, 1, 1, 1, 1, 0, 1, 0] := by decide +kernel

/-- QNT to E2M1 and back (R61): 7.5, −0.3 as BF16, 1.25, then zeros. -/
theorem test_quantise :
    (let r := quantise 0xB (fun _ => .rne) ([0x40F0, 0xBE9A, 0x3FA0, 0].map fun x => laneValue 1 x)
     r.1 = [7, 9, 2, 0] ∧ r.2.1 = 0x7F ∧ r.2.2.sat = true ∧ r.2.2.nx = true) ∧
    [7, 9, 2, 0].map (fun k => (dequantise 0xB 0x7F k).1) = [0x40C0, 0xBF00, 0x3F80, 0] := by decide +kernel

/-- The order of an RSUM (R66): RNE, RDN and RUP. -/
theorem test_rsum :
    let xs := [0x3F80, 0x3380, 0xBF80] ++ List.replicate 13 0
    (sumFloat 1 .rne xs).1 = 0 ∧ (sumFloat 1 ⟨3, false, 0⟩ xs).1 = 0x8000 ∧ (sumFloat 1 ⟨2, false, 0⟩ xs).1 = 0x3400 := by decide +kernel

/-- R212: SHUF.bf16 with these constants takes lane 0 to lane 15. -/
theorem test_shuf :
    fired (.shuf ⟨1, 0, 0, 7, 7, 1, 0, 0, 3, 0, 0⟩) (elemWith 0 1 [[tok 0 0x2222]] [(256 * 3 + 4, 0xCDEF), (256 * 3 + 5, 0x89AB),
      (256 * 3 + 6, 0x4567), (256 * 3 + 7, 0x0123)] id) = (some ((0x2222 : Payload) <<< 240), 0) := by decide +kernel

/-- R266: offset 0x1A0 of slot 3 of the pool, under LINE and under SLOT: bank 6 line 0x10D, and bank 7 line 0x106. -/
def examplePlane (slot : Bool) : Sparse (BitVec 16) := 
  [(256 * 0x42, 8), (256 * 0x42 + 1, if slot then 0x2A else 0xA), (256 * 0x42 + 2, 0xF0), (256 * 0x42 + 3, 0x100)]
theorem test_placement : placement (examplePlane false) 2 3 13 = (6, 0x10D, 1) ∧ placement (examplePlane true) 2 3 13 = (7, 0x106, 1) := by
  decide +kernel

/-- R391: the two example entries are ones that the dispatcher accepts, of KINDs 2 and 4 for id 3. -/
theorem test_live : liveOk 0x2030014000000000 = true ∧ liveKind 0x2030014000000000 = 2 ∧ liveElem 0x2030014000000000 = 0xA ∧
    liveOk 0x40300102000000F0 = true ∧ liveKind 0x40300102000000F0 = 4 ∧ liveOk 0x5000000000000000 = false := by decide +kernel

/-- The worked draw of R292: set 0 in DET, stage 1 done, SEQ 5. -/
def drawn (used : Nat) (mode : BitVec 2) : State :=
  at0 fun c =>
    let c := { c with cfg := { c.cfg with active := [(0x3F, 1), (0x3C, 0x40), (0x13F, 1), (0x13C, 0x110), (0x5000, 0x0493), (0x5001, 8),
      (0x5002, 0x3F), (0x5008, 0x0000), (0x500A, 0x0004)] } }
    let c := c.onSet 0 fun t => { t with lmode := mode, p1 := t.p1.set 2 192, p2 := t.p2.set 2 192 }
    c.onElem 0 fun e => e.onPort 0 fun p => { p with toks := List.replicate used ⟨tok 0 0, 0⟩ }
def drawnEntry : RecordEntry := entryOf (tok 0 (((2 : Payload) <<< 248) ||| ((5 : Payload) <<< 224)))
theorem test_draw : (drawn 0 1).tickets 0 drawnEntry 0 = 8193 ∧ (drawn 0 1).tickets 0 drawnEntry 2 = 1025 ∧ (drawn 0 1).drawStage 0 drawnEntry = 2 ∧
    (drawn 5 2).tickets 0 drawnEntry 0 = 2048 ∧ (drawn 5 2).drawStage 0 drawnEntry = 2 := by decide +kernel
/-- Its log entry in recording mode, with stage 2 passing (R301). -/
theorem test_log_entry : logEntry 0 true 2 1 0 5 = 0x28800005 := by decide +kernel

/-- The event of a failure in stack 1 at offset 0x501200 of the context with tag 5 (R416, R437). -/
theorem test_integrity_event :
    ((context1 .opened false []).failContext 1 0x70 1 0x50120000).outbox.map (fun m => (m.payload.take 16)) =
      [bytesOf 8 0x10170 ++ bytesOf 8 0x50120000] := by decide +kernel

/-- The value of s3 after an instruction on s1 and s2. -/
def resultOf (i : Instr) (x y : Word) : Word := (ok (exec i (at0 fun c => (c.setReg 1 x).setReg 2 y))).here.reg 3

/-- The table of R104. -/
theorem test_division : [(7, 0xFFFFFFFFFFFFFFFE), (0xFFFFFFFFFFFFFFF9, 2), (5, 0), (0x8000000000000000, 0xFFFFFFFFFFFFFFFF), (0xFFFFFFFFFFFFFFFF, 3)].map
      (fun p : Word × Word => (resultOf (.div 3 1 2) p.1 p.2, resultOf (.rem 3 1 2) p.1 p.2)) =
    [(0xFFFFFFFFFFFFFFFD, 1), (0xFFFFFFFFFFFFFFFD, 0xFFFFFFFFFFFFFFFF), (0xFFFFFFFFFFFFFFFF, 5), (0x8000000000000000, 0), (0, 0xFFFFFFFFFFFFFFFF)] := by
  decide +kernel
theorem test_natural_division : [(7, 0xFFFFFFFFFFFFFFFE), (0xFFFFFFFFFFFFFFF9, 2), (5, 0), (0x8000000000000000, 0xFFFFFFFFFFFFFFFF), (0xFFFFFFFFFFFFFFFF, 3)].map
      (fun p : Word × Word => (resultOf (.divn 3 1 2) p.1 p.2, resultOf (.remn 3 1 2) p.1 p.2)) =
    [(0, 7), (0x7FFFFFFFFFFFFFFC, 1), (0xFFFFFFFFFFFFFFFF, 5), (0, 0x8000000000000000), (0x5555555555555555, 0)] := by decide +kernel

/-- R103: high products, a shift by 64 + 4 bits, counts; a source that is the destination. -/
theorem test_products : resultOf (.mulh 3 1 2) 0xFFFFFFFFFFFFFFFF 2 = 0xFFFFFFFFFFFFFFFF ∧ resultOf (.mulhn 3 1 2) 0xFFFFFFFFFFFFFFFF 2 = 1 ∧
    resultOf (.shl 3 1 2) 1 68 = 16 ∧ resultOf (.sha 3 1 2) 0x8000000000000000 63 = 0xFFFFFFFFFFFFFFFF ∧ resultOf (.clz 3 1) 0 0 = 64 ∧
    resultOf (.popc 3 1) 0xF0 0 = 4 ∧ resultOf (.min 3 1 2) 0xFFFFFFFFFFFFFFFF 1 = 0xFFFFFFFFFFFFFFFF ∧ resultOf (.minn 3 1 2) 0xFFFFFFFFFFFFFFFF 1 = 1 := by
  decide +kernel
/-- R103: LIH s3, #0x8000. -/
theorem test_lih : resultOf (.lih 3 0x8000) 0 0 = 0xFFFFFFFF80000000 := by decide +kernel
/-- R70: s0 reads zero and a write to it is discarded. -/
theorem test_s0 : (ok (exec (.addi 0 1 5) (at0 fun c => c.setReg 1 9))).here.reg 0 = 0 := by decide +kernel
/-- R105: signed and natural compares; p0 stays true. -/
theorem test_compares :
    (let c (i : Instr) := (ok (exec i (at0 fun c => (c.setReg 1 0xFFFFFFFFFFFFFFFF).setReg 2 1))).here
     (c (.cmp 2 1 2 2)).pred 2 = true ∧ (c (.cmp 2 1 2 4)).pred 2 = false ∧ (c (.cmp 0 1 2 4)).pred 0 = true) := by decide +kernel
/-- R112: a branch back by three words from address 0x40. -/
theorem test_branches : (ok (exec (.b 0 0 (-3)) (at0 fun c => { c with pc := 0x40 }))).here.pc = 0x34 := by decide +kernel
/-- R107: a misaligned load traps with its address in TVAL and leaves its destination. -/
theorem test_misaligned_load : (let c := (ok (exec (.ld 3 1 2 0) (at0 fun c => (c.setReg 1 0x10002).setReg 3 7))).here
    c.tval = 0x10002 ∧ c.tcause.extractLsb' 0 8 = 2 ∧ c.reg 3 = 7 ∧ c.epc = 0) := by decide +kernel

end Sys2Proof.Tests
end

section
/-! Proofs. Words that no map assigns (R90): how they read, what a sequencer's turn that fetches one chooses, and the trap it takes. -/

open Sys2Proof Sys2Proof.Machine

namespace Sys2Proof.Proofs.Unassigned

/-! ### How a sequencer's turn reaches issue (R75, R76, R136) -/

/-- The turn that begins is the current one, whatever the power state and whether its core is in Dusk. -/
theorem begin_cur (s : State) (t : Turn) (rest : List Turn) : (s.begin t rest).cur = t := by
  unfold State.begin State.syncWaitsAt
  dsimp only
  split <;> simp

/-- A step taken by a sequencer's turn, while the part is on, is what that turn chooses. -/
theorem choose_of_seq {s : State} {t : Turn} {rest : List Turn} (hpower : s.power = .on) (hnext : s.nextTurn = (some t, rest))
    (hact : t.act = .seq) : s.choose = (s.begin t rest).sequencerTurn := by
  unfold State.choose
  simp [hnext, hact, hpower]

/-- A running sequencer that neither waits nor is held goes on to issue, unless it is outside a handler and an asynchronous fault waits. -/
theorem sequencerTurn_of_ready {s : State} (hrun : s.here.run = .running) (hheld : s.isHeld s.cur.core = false)
    (hwait : s.here.wait = .none) (hfaults : s.here.tin = true ∨ s.here.faults = []) : s.sequencerTurn = s.issueTurn := by
  unfold State.sequencerTurn
  rcases hfaults with htin | hnone
  · simp [hrun, hheld, hwait, htin]
  · simp [hrun, hheld, hwait, hnone]

/-- An unassigned word that is fetched is issued as ILLEGAL_OP with its TVAL; the interlock does not apply to it. -/
theorem issueTurn_of_illegal {s u : State} {v : Word} (hfetch : s.fetch s.cur.core = (u, .ok (.illegal v))) :
    s.issueTurn = .run (.illegalOp v) u := by
  unfold State.issueTurn
  rw [hfetch]

/-- A step that chooses to run an instruction answers what the instruction does. -/
theorem step_of_choose_run {s u : State} {i : Instr} (h : s.choose = .run i u) : step s = exec i u := by
  unfold step
  rw [h]

/-! ### The four clauses -/

/-- The TVAL of a single word. -/
theorem readSingle_of_unassigned {w : Insn} (h : decodeWord w = none) : readSingle w = .illegal (w.setWidth 64) := by
  unfold readSingle
  rw [h]

/-- Two instruction words side by side are the first, shifted up, over the second. -/
theorem append_eq_shift_or (p w : Insn) : p ++ w = (p.setWidth 64 <<< 32) ||| w.setWidth 64 := by
  rw [BitVec.append_def, BitVec.shiftLeftZeroExtend_eq, BitVec.setWidth'_eq]

/-- The TVAL of a pair. -/
theorem readPair_of_unassigned {p w : Insn} (h : decodePair p w = none) :
    readPair p w = .illegal ((p.setWidth 64 <<< 32) ||| w.setWidth 64) := by
  unfold readPair
  rw [h, ← append_eq_shift_or]

/-- The step of a sequencer whose fetch reads an unassigned encoding. -/
theorem step_of_fetch_illegal {s u : State} {t : Turn} {rest : List Turn} {v : Word} (hpower : s.power = .on)
    (hnext : s.nextTurn = (some t, rest)) (hact : t.act = .seq) (hrun : (s.begin t rest).here.run = .running)
    (hheld : (s.begin t rest).isHeld t.core = false) (hwait : (s.begin t rest).here.wait = .none)
    (hfaults : (s.begin t rest).here.tin = true ∨ (s.begin t rest).here.faults = [])
    (hfetch : (s.begin t rest).fetch t.core = (u, .ok (.illegal v))) : step s = exec (.illegalOp v) u := by
  have hcore : (s.begin t rest).cur.core = t.core := congrArg Turn.core (begin_cur s t rest)
  rw [← hcore] at hheld hfetch
  apply step_of_choose_run
  calc s.choose
      _ = (s.begin t rest).sequencerTurn := choose_of_seq hpower hnext hact
      _ = (s.begin t rest).issueTurn := sequencerTurn_of_ready hrun hheld hwait hfaults
      _ = .run (.illegalOp v) u := issueTurn_of_illegal hfetch

/-- The meaning of ILLEGAL_OP: a precise fault with code 0x01. -/
theorem exec_illegalOp (v : Word) (s : State) : exec (.illegalOp v) s = .next (s.precise 0x01 v) := rfl

/-- ILLEGAL_OP outside a handler takes the trap, TVAL being its word. -/
theorem takesTrap_illegalOp (s : State) (v : Word) : TakesTrap (.illegalOp v) s 0x01 v := by
  intro htin
  rw [exec_illegalOp, State.precise_of_not_tin s 0x01 v htin]

/-- Settles O6: the readings of an unassigned word and pair, the step that issues one, and the trap it takes. -/
theorem unassignedWordsTrap : Obligations.UnassignedWordsTrap := by
  unfold Obligations.UnassignedWordsTrap
  refine ⟨fun _ => readSingle_of_unassigned, fun _ _ => readPair_of_unassigned, ?_, takesTrap_illegalOp⟩
  intro s u t rest v hpower hnext hact hrun hheld hwait hfaults hfetch
  exact step_of_fetch_illegal hpower hnext hact hrun hheld hwait hfaults hfetch

end Sys2Proof.Proofs.Unassigned
end

section
/-! Proofs. The integer instructions (R103): how a register instruction completes, each result the model computes in the table's own
terms, and the table. -/

open Sys2Proof Sys2Proof.Machine

namespace Sys2Proof.Proofs.Integer

/-! ### How a register instruction completes (R76, R80, R87) -/

/-- A register instruction whose back-edge turns to a misaligned start traps at itself, with no effect. -/
theorem issue_of_misaligned (s : State) (len : Nat) (f : Core → Core) (h : misaligned ((f s.here).finish len).pc = true) :
    s.issue len f = .next (s.precise 0x02 ((f s.here).finish len).pc) := by
  have heffect : (s.on f).core s.cur.core = f s.here := State.here_on s f
  unfold State.issue State.retire
  simp only [heffect, h, if_true]

/-- An instruction that means a register instruction completes with its effect. -/
theorem completes_of_issue {i : Instr} {len : Nat} {f : Core → Core} (hmeans : ∀ s, exec i s = s.issue len f) : Completes i len f := by
  intro s
  rw [hmeans s]
  exact ⟨State.issue_of_aligned s len f, issue_of_misaligned s len f⟩

/-- The register form with two sources. -/
theorem completes_of_binary {i : Instr} (g : Word → Word → Word) {d a b : SReg} (hmeans : ∀ s, exec i s = s.binary g d a b) :
    Completes i 4 fun c => c.setReg d (g (c.reg a) (c.reg b)) :=
  completes_of_issue hmeans

/-- The form with one source, and an immediate or none. -/
theorem completes_of_unary {i : Instr} {len : Nat} (g : Word → Word) {d a : SReg} (hmeans : ∀ s, exec i s = s.unary len g d a) :
    Completes i len fun c => c.setReg d (g (c.reg a)) :=
  completes_of_issue hmeans

/-- A division: its cycles pass and are counted, and then it writes its result (R75, R86, R104). -/
theorem completes_of_divide {i : Instr} (g : Word → Word → Word) (mag : Word → Nat) {d a b : SReg}
    (hmeans : ∀ s, exec i s = s.divide g mag d a b) :
    Completes i 4 fun c => ((c.tickBy (divisionCycles (mag (c.reg a)) - 1)).countBy 0x16 (divisionCycles (mag (c.reg a)))).setReg d
      (g (c.reg a) (c.reg b)) :=
  completes_of_issue hmeans

/-! ### Results in the terms of R103 -/

/-- Bits 127:64 of an integer are those of its floor division by 2^64. -/
theorem upperHalf_ofInt (z : Int) : (BitVec.ofInt 128 z).extractLsb' 64 64 = BitVec.ofInt 64 (z / 2 ^ 64) := by
  apply BitVec.eq_of_toNat_eq
  simp only [BitVec.extractLsb'_toNat, BitVec.toNat_ofInt, Nat.shiftRight_eq_div_pow]
  omega

theorem upperHalf_ofNat (n : Nat) : (BitVec.ofNat 128 n).extractLsb' 64 64 = BitVec.ofNat 64 (n / 2 ^ 64) := by
  apply BitVec.eq_of_toNat_eq
  simp only [BitVec.extractLsb'_toNat, BitVec.toNat_ofNat, Nat.shiftRight_eq_div_pow]
  omega

theorem mulHigh_eq (x y : Word) : mulHigh x y = BitVec.ofInt 64 (x.toInt * y.toInt / 2 ^ 64) := by
  rw [← upperHalf_ofInt, BitVec.ofInt_mul]
  rfl

theorem mulHighN_eq (x y : Word) : mulHighN x y = BitVec.ofNat 64 (x.toNat * y.toNat / 2 ^ 64) := by
  rw [← upperHalf_ofNat, BitVec.ofNat_mul, BitVec.ofNat_toNat, BitVec.ofNat_toNat]
  rfl

/-- The shift amount is the low six bits of y. -/
theorem shiftAmount_eq (y : Word) : shiftAmount y = (y.extractLsb' 0 6).toNat := by
  rw [BitVec.extractLsb'_toNat, Nat.shiftRight_zero]
  rfl

/-- A choice under a weaker condition is the same where the two values agree whenever only the weaker one holds. -/
theorem ite_eq_ite_of_weaker {p q : Prop} [Decidable p] [Decidable q] {u v : Word} (hweaker : p → q) (hsame : q → p ∨ u = v) :
    (if p then u else v) = if q then u else v := by
  by_cases hq : q
  · rw [if_pos hq]
    rcases hsame hq with hp | huv
    · rw [if_pos hp]
    · rw [huv, ite_self]
  · rw [if_neg hq, if_neg fun hp => hq (hweaker hp)]

/-- Words whose signed values are ordered are strictly so, or equal. -/
theorem toInt_lt_or_eq {x y : Word} (h : x.toInt ≤ y.toInt) : x.toInt < y.toInt ∨ x = y :=
  (Int.lt_or_eq_of_le h).imp_right BitVec.eq_of_toInt_eq

/-- Words whose natural values are ordered are strictly so, or equal. -/
theorem toNat_lt_or_eq {x y : Word} (h : x.toNat ≤ y.toNat) : x.toNat < y.toNat ∨ x = y :=
  (Nat.lt_or_eq_of_le h).imp_right BitVec.eq_of_toNat_eq

theorem minSigned_eq (x y : Word) : minSigned x y = if x.toInt ≤ y.toInt then x else y := by
  rw [← ite_eq_ite_of_weaker Int.le_of_lt toInt_lt_or_eq]
  simp only [minSigned, BitVec.slt_iff_toInt_lt]

theorem maxSigned_eq (x y : Word) : maxSigned x y = if x.toInt ≤ y.toInt then y else x := by
  rw [← ite_eq_ite_of_weaker Int.le_of_lt fun h => (toInt_lt_or_eq h).imp_right Eq.symm]
  simp only [maxSigned, BitVec.slt_iff_toInt_lt]

theorem minNatural_eq (x y : Word) : minNatural x y = if x.toNat ≤ y.toNat then x else y := by
  rw [← ite_eq_ite_of_weaker Nat.le_of_lt toNat_lt_or_eq]
  simp only [minNatural, BitVec.ult_iff_toNat_lt]

theorem maxNatural_eq (x y : Word) : maxNatural x y = if x.toNat ≤ y.toNat then y else x := by
  rw [← ite_eq_ite_of_weaker Nat.le_of_lt fun h => (toNat_lt_or_eq h).imp_right Eq.symm]
  simp only [maxNatural, BitVec.ult_iff_toNat_lt]

/-! ### The instructions whose result the table states in other terms than the model -/

theorem completes_mul (d a b : SReg) :
    Completes (.mul d a b) 4 fun c => c.setReg d (BitVec.ofNat 64 ((c.reg a).toNat * (c.reg b).toNat)) := by
  simpa only [BitVec.ofNat_mul, BitVec.ofNat_toNat, BitVec.setWidth_eq] using completes_of_binary (· * ·) fun _ => rfl

theorem completes_mulh (d a b : SReg) :
    Completes (.mulh d a b) 4 fun c => c.setReg d (BitVec.ofInt 64 ((c.reg a).toInt * (c.reg b).toInt / 2 ^ 64)) := by
  simpa only [mulHigh_eq] using completes_of_binary mulHigh fun _ => rfl

theorem completes_mulhn (d a b : SReg) :
    Completes (.mulhn d a b) 4 fun c => c.setReg d (BitVec.ofNat 64 ((c.reg a).toNat * (c.reg b).toNat / 2 ^ 64)) := by
  simpa only [mulHighN_eq] using completes_of_binary mulHighN fun _ => rfl

theorem completes_shl (d a b : SReg) :
    Completes (.shl d a b) 4 fun c => c.setReg d (c.reg a <<< ((c.reg b).extractLsb' 0 6).toNat) := by
  simpa only [shiftAmount_eq] using completes_of_binary (fun x y => x <<< shiftAmount y) fun _ => rfl

theorem completes_shr (d a b : SReg) :
    Completes (.shr d a b) 4 fun c => c.setReg d (c.reg a >>> ((c.reg b).extractLsb' 0 6).toNat) := by
  simpa only [shiftAmount_eq] using completes_of_binary (fun x y => x >>> shiftAmount y) fun _ => rfl

theorem completes_sha (d a b : SReg) :
    Completes (.sha d a b) 4 fun c => c.setReg d ((c.reg a).sshiftRight ((c.reg b).extractLsb' 0 6).toNat) := by
  simpa only [shiftAmount_eq] using completes_of_binary (fun x y => x.sshiftRight (shiftAmount y)) fun _ => rfl

theorem completes_min (d a b : SReg) :
    Completes (.min d a b) 4 fun c => c.setReg d (if (c.reg a).toInt ≤ (c.reg b).toInt then c.reg a else c.reg b) := by
  simpa only [minSigned_eq] using completes_of_binary minSigned fun _ => rfl

theorem completes_max (d a b : SReg) :
    Completes (.max d a b) 4 fun c => c.setReg d (if (c.reg a).toInt ≤ (c.reg b).toInt then c.reg b else c.reg a) := by
  simpa only [maxSigned_eq] using completes_of_binary maxSigned fun _ => rfl

theorem completes_minn (d a b : SReg) :
    Completes (.minn d a b) 4 fun c => c.setReg d (if (c.reg a).toNat ≤ (c.reg b).toNat then c.reg a else c.reg b) := by
  simpa only [minNatural_eq] using completes_of_binary minNatural fun _ => rfl

theorem completes_maxn (d a b : SReg) :
    Completes (.maxn d a b) 4 fun c => c.setReg d (if (c.reg a).toNat ≤ (c.reg b).toNat then c.reg b else c.reg a) := by
  simpa only [maxNatural_eq] using completes_of_binary maxNatural fun _ => rfl

/-- Settles O14: each instruction of R103 means one of the shared forms, whose result is the table's. -/
theorem integerResults : Obligations.IntegerResults := by
  unfold Obligations.IntegerResults
  exact ⟨
    fun _ _ _ => completes_of_binary (· + ·) fun _ => rfl,
    fun _ _ _ => completes_of_binary (· - ·) fun _ => rfl,
    completes_mul, completes_mulh, completes_mulhn,
    fun _ _ _ => completes_of_divide divSigned (fun x => x.toInt.natAbs) fun _ => rfl,
    fun _ _ _ => completes_of_divide divNatural BitVec.toNat fun _ => rfl,
    fun _ _ _ => completes_of_divide remSigned (fun x => x.toInt.natAbs) fun _ => rfl,
    fun _ _ _ => completes_of_divide remNatural BitVec.toNat fun _ => rfl,
    fun _ _ _ => completes_of_binary (· &&& ·) fun _ => rfl,
    fun _ _ _ => completes_of_binary (· ||| ·) fun _ => rfl,
    fun _ _ _ => completes_of_binary (· ^^^ ·) fun _ => rfl,
    completes_shl, completes_shr, completes_sha, completes_min, completes_max, completes_minn, completes_maxn,
    fun _ _ => completes_of_unary leadingZeros fun _ => rfl,
    fun _ _ => completes_of_unary onesCount fun _ => rfl,
    fun _ _ _ _ => completes_of_issue fun _ => rfl,
    fun _ _ i => completes_of_unary (· + i.signExtend 64) fun _ => rfl,
    fun _ _ i => completes_of_unary (· &&& i.setWidth 64) fun _ => rfl,
    fun _ _ i => completes_of_unary (· ||| i.setWidth 64) fun _ => rfl,
    fun _ _ i => completes_of_unary (· ^^^ i.setWidth 64) fun _ => rfl,
    fun _ _ n => completes_of_unary (· <<< n.toNat) fun _ => rfl,
    fun _ _ n => completes_of_unary (· >>> n.toNat) fun _ => rfl,
    fun _ _ n => completes_of_unary (·.sshiftRight n.toNat) fun _ => rfl,
    fun _ _ => completes_of_issue fun _ => rfl,
    fun _ _ i => completes_of_unary (· + i.signExtend 64) fun _ => rfl,
    fun _ _ i => completes_of_unary (· &&& i.setWidth 64) fun _ => rfl,
    fun _ _ i => completes_of_unary (· ||| i.setWidth 64) fun _ => rfl,
    fun _ _ i => completes_of_unary (· ^^^ i.setWidth 64) fun _ => rfl⟩

end Sys2Proof.Proofs.Integer
end
